-- ==== Sys2Proof/Word.lean ====
section
/-! DEFINITION. The word types of the Crejo X48: 32-bit registers (R17), bytes and 64-bit pairs. -/

namespace Sys2Proof

/-- One register, or one 32-bit word (R17). -/
abbrev Word := BitVec 32
/-- One byte of memory (R13). -/
abbrev Byte := BitVec 8
/-- A 64-bit pair of registers (R17) or a code word's data (R391). -/
abbrev DWord := BitVec 64
/-- An accumulator A0-A3 of an engine (R290). -/
abbrev Acc := BitVec 72

end Sys2Proof
end

