-- ==== Sys2Proof/Requester.lean ====
section
/-! DEFINITION. The requester of a fabric access (R35, R40, R481). -/

namespace Sys2Proof

/-- What every fabric access carries: tenant, ring, agent number and the debug mark. -/
structure Rq where
  tenant : Nat
  ring : Nat
  agent : Nat
  dbg : Bool
deriving DecidableEq, Repr

/-- What a write that aborts a sequence clears: EN of a sequencer, of the SEQ page or of the ADC page (R86). -/
inductive AbortBy where
  | unit (u : Nat)
  | seq
  | adc
deriving DecidableEq, Repr

end Sys2Proof
end

