-- ==== Sys2Proof/Syllable.lean ====
section
/-! DEFINITION. The syllables of an engine bundle (R293, R299-R306): slot, operation and the operand fields as the formats of R299 hold them (immediates unsigned, as encoded). -/

namespace Sys2Proof

/-- The second operand of an integer operation: a register (RRR) or the 13-bit immediate (RRI). -/
inductive Src where
  | reg (db : Nat)
  | imm (v : Nat)
deriving DecidableEq, Repr

/-- The integer operations with an RRR and an RRI form (R300). -/
inductive IntOp where
  | add | adc | sub | sbc | and | or | xor | andn | shl | shr | sar | ror | min | max | cmp | tst
deriving DecidableEq, Repr

/-- The saturating and bit operations of three or two registers (R300). -/
inductive RegOp where
  | adds | subs | abs | neg | clz | mull | mov
deriving DecidableEq, Repr

/-- MAC, MSU, MUL (R305, R312). -/
inductive MacOp where
  | mac | msu | mul
deriving DecidableEq, Repr

/-- The fp32 operations of two operands (R305, R320). -/
inductive FpOp where
  | fadd | fsub | fmul | fma
deriving DecidableEq, Repr

/-- The long operations (R317). -/
inductive LongOp where
  | divs | divu | sqrt | sincos | atan2 | fdiv
deriving DecidableEq, Repr

/-- Loads (R306). -/
inductive LoadOp where
  | ldb | ldbu | ldh | ldhu | ldw | ldd | ldp | lda
deriving DecidableEq, Repr

/-- Stores (R306). -/
inductive StoreOp where
  | stb | sth | stw | std | stp | sta
deriving DecidableEq, Repr

/-- Atomics (R306, R309). -/
inductive AtomOp where
  | aaddm | aorm | aswap
deriving DecidableEq, Repr

/-- The address forms of MEM (R307): offset, post-modify, indexed. -/
inductive Addr where
  | off (ofs : Nat)
  | post (ofs : Nat)
  | idx (dk : Nat)
deriving DecidableEq, Repr

/-- One operation with its operand fields (R299-R306). -/
inductive Op where
  | nop
  | int (k : IntOp) (dd da : Nat) (b : Src)
  | reg (k : RegOp) (dd da db : Nat)
  | exts (func dd da : Nat)
  | movi (dd imm18 : Nat)
  | movh (dd imm16 : Nat)
  | padd (pd ps imm13 : Nat)
  | movdp (dd ps : Nat)
  | movpd (pd ds : Nat)
  | sel (cond dd da db : Nat)
  | br (cond imm19 : Nat)
  | jmp (ps : Nat)
  | call (imm23 : Nat)
  | callr (ps : Nat)
  | ret
  | mfc (dd cr : Nat)
  | mtc (cr ds : Nat)
  | clrf (mask : Nat)
  | gate (n : Nat)
  | retg
  | rete
  | wait
  | brk
  | mac (k : MacOp) (an da db : Nat) (f sz : Bool)
  | macd (an px py mx my : Nat) (sz f neg clr : Bool)
  | ext (dd an sh : Nat) (rnd : Bool)
  | amov (an ds sh : Nat)
  | ash (an sh7 : Nat)
  | aadd (an am : Nat)
  | fp (k : FpOp) (dd da db : Nat)
  | fcmp (da db : Nat)
  | fcvt (func dd da : Nat)
  | long (k : LongOp) (dd da db : Nat)
  | vmac (an px py dn : Nat) (sz f neg : Bool)
  | load (k : LoadOp) (t pb : Nat) (a : Addr)
  | store (k : StoreOp) (t pb : Nat) (a : Addr)
  | ldrx (t pb ofs : Nat)
  | stcx (t pb ofs : Nat)
  | atom (k : AtomOp) (dd pb ds : Nat)
  | blkmov (dn ps pd : Nat)
  | blkcrc (dc ps dn : Nat)
  | iflush (t pb ofs : Nat)
  | fence
  /-- A syllable that R298 refuses: a reserved opcode, a refused field or a nonzero field marked 0. -/
  | bad
deriving DecidableEq, Repr

/-- One syllable: its slot S0-S3 and its operation; the last of a bundle carries STOP (R293). -/
structure Syl where
  slot : Nat
  op : Op
deriving DecidableEq, Repr

/-- A syllable put into a bundle after those of lower or equal slot (R293). -/
def bundleOf (y : Syl) : List Syl → List Syl
  | [] => [y]
  | z :: r => if y.slot < z.slot then y :: z :: r else z :: bundleOf y r

end Sys2Proof
end

