-- ==== Sys2Proof/Syntax.lean ====
section
/-! DEFINITION. The commands: one constructor for each row of spec/opcode_table.json, with its operands. -/

namespace Sys2Proof

/-- The commands of the device. Each docstring has the row's mnemonic and rule. -/
inductive Instr where
  /-- REGISTER_WRITE (R22). -/
  | registerWrite (rq : Rq) (addr size value : Nat)
  /-- RC_READ (R22). -/
  | rcRead (rq : Rq) (addr : Nat)
  /-- PAGE_STAT_CLEAR (R30). -/
  | pageStatClear (rq : Rq) (page bits : Nat)
  /-- IRQ_SET (R29). -/
  | irqSet (rq : Rq) (page bits : Nat)
  /-- IRQ_ENABLE_WRITE (R29). -/
  | irqEnableWrite (rq : Rq) (page value : Nat)
  /-- COMMIT_NOW (R25). -/
  | commitNow (rq : Rq) (page : Nat)
  /-- COMMIT_ARM (R26). -/
  | commitArm (rq : Rq) (page : Nat)
  /-- COMMIT_DISARM (R26). -/
  | commitDisarm (rq : Rq) (page : Nat)
  /-- SOFT_RESET (R28). -/
  | softReset (rq : Rq) (page : Nat)
  /-- SOFT_RESET_DONE (R28). -/
  | softResetDone (page : Nat)
  /-- SET_PWRPOL (R27). -/
  | setPwrpol (rq : Rq) (page pol : Nat)
  /-- BLOCK_RELEASE (R588). -/
  | blockRelease (page : Nat)
  /-- CHANGE_OWNER (R37). -/
  | changeOwner (rq : Rq) (page t : Nat)
  /-- OWNER_CHANGE_DONE (R37). -/
  | ownerChangeDone (page : Nat)
  /-- EVT_RAISE (R65). -/
  | evtRaise (rq : Rq) (k bits : Nat)
  /-- EVENT_ARRIVAL (R661). -/
  | eventArrival
  /-- MODE_WRITE (R52). -/
  | modeWrite (rq : Rq) (c value : Nat)
  /-- REF_ENABLE (R94). -/
  | refEnable (rq : Rq) (c : Nat) (on : Bool)
  /-- REF_READY (R94). -/
  | refReady (c : Nat)
  /-- SEQ_SWTRIG (R82). -/
  | seqSwtrig (rq : Rq) (c u : Nat)
  /-- PENDED_TRIGGER_ACCEPT (R85). -/
  | pendedTriggerAccept (c u : Nat)
  /-- SEQ_ABORT (R86). -/
  | seqAbort (rq : Rq) (c : Nat) (by_ : AbortBy)
  /-- ACQUISITION_OPEN (R88). -/
  | acquisitionOpen (c : Nat)
  /-- CONVERSION_END (R75). -/
  | conversionEnd (c u rawA rawB : Nat)
  /-- FIFO_FLUSH (R103). -/
  | fifoFlush (rq : Rq) (c : Nat) (a b : Bool)
  /-- FIFO_POP (R104). -/
  | fifoPop (rq : Rq) (c : Nat) (b : Bool)
  /-- CAL_ZERO (R107). -/
  | calZero (rq : Rq) (c input cvs : Nat)
  /-- CAL_SPAN (R108). -/
  | calSpan (rq : Rq) (c input cvs : Nat)
  /-- CAL_SKEW (R110). -/
  | calSkew (rq : Rq) (c input cvs : Nat)
  /-- CAL_ABORT (R106). -/
  | calAbort (rq : Rq) (c : Nat)
  /-- CAL_COMPLETE (R107). -/
  | calComplete (c : Nat)
  /-- REF_CODE_WRITE (R113). -/
  | refCodeWrite (rq : Rq) (c : Nat) (b : Bool) (value : Nat)
  /-- DRIFT_ENABLE (R112). -/
  | driftEnable (rq : Rq) (c : Nat)
  /-- COMPARATOR_CROSSING (R123). -/
  | comparatorCrossing (c n : Nat) (upper : Bool)
  /-- CMP_CFG_WRITE (R132). -/
  | cmpCfgWrite (rq : Rq) (c n value : Nat)
  /-- SETTLE_END (R120). -/
  | settleEnd (c n : Nat)
  /-- THRESHOLD_WRITE (R128). -/
  | thresholdWrite (rq : Rq) (c n value : Nat)
  /-- POSITION_HOLD (R138). -/
  | positionHold (c : Nat) (sin cos : Int)
  /-- POSITION_UPDATE (R139). -/
  | positionUpdate (c : Nat)
  /-- QUADRANT_STEP (R143). -/
  | quadrantStep (c k : Nat)
  /-- POS_LOAD (R150). -/
  | posLoad (rq : Rq) (c rev : Nat)
  /-- POS_MLOAD (R150). -/
  | posMload (rq : Rq) (c : Nat)
  /-- POS_ENABLE (R138). -/
  | posEnable (rq : Rq) (c : Nat)
  /-- POS_ZMK (R151). -/
  | posZmk (c : Nat) (rising : Bool)
  /-- SSI_SWTRIG (R163). -/
  | ssiSwtrig (rq : Rq) (c : Nat)
  /-- SSI_WORD (R162). -/
  | ssiWord (c : Nat) (word : DWord) (k : Nat)
  /-- SSI_TIMEOUT (R160). -/
  | ssiTimeout (c : Nat)
  /-- SSI_RECOVERY_END (R163). -/
  | ssiRecoveryEnd (c : Nat)
  /-- SSI_ENABLE (R164). -/
  | ssiEnable (rq : Rq) (c : Nat)
  /-- SSI_DISABLE (R159). -/
  | ssiDisable (rq : Rq) (c : Nat)
  /-- PWM_ENABLE (R171). -/
  | pwmEnable (rq : Rq) (c : Nat)
  /-- COUNTER_START (R171). -/
  | counterStart (c : Nat)
  /-- PWM_DISABLE (R171). -/
  | pwmDisable (rq : Rq) (c : Nat)
  /-- PWM_VALLEY (R173). -/
  | pwmValley (c : Nat)
  /-- PWM_PEAK (R186). -/
  | pwmPeak (c : Nat)
  /-- TRIGGER_POINT_REACHED (R175). -/
  | triggerPointReached (c k : Nat)
  /-- COMPARE_MATCH (R177). -/
  | compareMatch (c n : Nat)
  /-- DEAD_TIME_END (R183). -/
  | deadTimeEnd (c n : Nat)
  /-- BLANK_END (R189). -/
  | blankEnd (c n : Nat)
  /-- LEG_PERIOD_START (R180). -/
  | legPeriodStart (c n : Nat)
  /-- ON_TIME_END (R180). -/
  | onTimeEnd (c n : Nat)
  /-- CMP_SHADOW_WRITE (R67). -/
  | cmpShadowWrite (rq : Rq) (c n value : Nat)
  /-- TRIP_PIN_CHANGE (R192). -/
  | tripPinChange (c k : Nat) (lvl : Bool)
  /-- TRIP_QUALIFY (R192). -/
  | tripQualify (c k : Nat)
  /-- SOFTWARE_TRIP (R191). -/
  | softwareTrip (rq : Rq) (c : Nat)
  /-- LATCH_CLEAR (R194). -/
  | latchClear (rq : Rq) (c bits : Nat)
  /-- TRIP_CFG_WRITE (R196). -/
  | tripCfgWrite (rq : Rq) (c value : Nat)
  /-- CHISEL_RESULT (R209). -/
  | chiselResult (c : Nat)
  /-- CHISEL_DONE (R209). -/
  | chiselDone (c late : Nat)
  /-- CHISEL_DISABLE (R213). -/
  | chiselDisable (rq : Rq) (c : Nat) (slice : Bool)
  /-- CALIPER_HIT (R236). -/
  | caliperHit (n : Nat)
  /-- ENTRY_SEAT (R238). -/
  | entrySeat (rq : Rq) (n ctl : Nat)
  /-- TABOWN_WRITE (R234). -/
  | tabownWrite (rq : Rq) (b value : Nat)
  /-- SECOND_BOUNDARY (R243). -/
  | secondBoundary
  /-- TIME_READ (R244). -/
  | timeRead (rq : Rq)
  /-- TIME_APPLY (R245). -/
  | timeApply (rq : Rq)
  /-- TIME_CANCEL (R245). -/
  | timeCancel (rq : Rq)
  /-- OFFSET_SUBMIT (R247). -/
  | offsetSubmit (rq : Rq)
  /-- HOLDOVER (R248). -/
  | holdover
  /-- INTAKE_DELIVER (R253). -/
  | intakeDeliver (p : Nat)
  /-- JOB_ENABLE (R256). -/
  | jobEnable (rq : Rq) (p k : Nat)
  /-- JOB_STOP (R284). -/
  | jobStop (rq : Rq) (p k : Nat)
  /-- JOB_RESEED (R284). -/
  | jobReseed (rq : Rq) (p k : Nat)
  /-- STREAM_PROCESS (R282). -/
  | streamProcess (p k : Nat)
  /-- BLOCK_WORK (R282). -/
  | blockWork (p : Nat)
  /-- FRAME_COMPLETE (R280). -/
  | frameComplete (p : Nat)
  /-- FRRD_WRITE (R281). -/
  | frrdWrite (rq : Rq) (p k value : Nat)
  /-- MAQ_DISABLE (R284). -/
  | maqDisable (rq : Rq) (p : Nat)
  /-- LOAD_UPDATE (R283). -/
  | loadUpdate (p : Nat)
  /-- NOP (R300). -/
  | nop (e : Nat) (rest : List Syl)
  /-- ADD (R300). -/
  | add (e slot : Nat) (dd da : Nat) (b : Src) (rest : List Syl)
  /-- ADC (R300). -/
  | adc (e slot : Nat) (dd da : Nat) (b : Src) (rest : List Syl)
  /-- SUB (R300). -/
  | sub (e slot : Nat) (dd da : Nat) (b : Src) (rest : List Syl)
  /-- SBC (R300). -/
  | sbc (e slot : Nat) (dd da : Nat) (b : Src) (rest : List Syl)
  /-- AND (R300). -/
  | and (e slot : Nat) (dd da : Nat) (b : Src) (rest : List Syl)
  /-- OR (R300). -/
  | or (e slot : Nat) (dd da : Nat) (b : Src) (rest : List Syl)
  /-- XOR (R300). -/
  | xor (e slot : Nat) (dd da : Nat) (b : Src) (rest : List Syl)
  /-- ANDN (R300). -/
  | andn (e slot : Nat) (dd da : Nat) (b : Src) (rest : List Syl)
  /-- SHL (R301). -/
  | shl (e slot : Nat) (dd da : Nat) (b : Src) (rest : List Syl)
  /-- SHR (R301). -/
  | shr (e slot : Nat) (dd da : Nat) (b : Src) (rest : List Syl)
  /-- SAR (R301). -/
  | sar (e slot : Nat) (dd da : Nat) (b : Src) (rest : List Syl)
  /-- ROR (R301). -/
  | ror (e slot : Nat) (dd da : Nat) (b : Src) (rest : List Syl)
  /-- MIN (R300). -/
  | min (e slot : Nat) (dd da : Nat) (b : Src) (rest : List Syl)
  /-- MAX (R300). -/
  | max (e slot : Nat) (dd da : Nat) (b : Src) (rest : List Syl)
  /-- CMP (R300). -/
  | cmp (e slot : Nat) (da : Nat) (b : Src) (rest : List Syl)
  /-- TST (R300). -/
  | tst (e slot : Nat) (da : Nat) (b : Src) (rest : List Syl)
  /-- ADDS (R301). -/
  | adds (e slot : Nat) (dd da db : Nat) (rest : List Syl)
  /-- SUBS (R301). -/
  | subs (e slot : Nat) (dd da db : Nat) (rest : List Syl)
  /-- ABS (R301). -/
  | abs (e slot : Nat) (dd da : Nat) (rest : List Syl)
  /-- NEG (R301). -/
  | neg (e slot : Nat) (dd da : Nat) (rest : List Syl)
  /-- CLZ (R300). -/
  | clz (e slot : Nat) (dd da : Nat) (rest : List Syl)
  /-- EXTS (R300). -/
  | exts (e slot : Nat) (func dd da : Nat) (rest : List Syl)
  /-- MULL (R300). -/
  | mull (e : Nat) (dd da db : Nat) (rest : List Syl)
  /-- MOVI (R300). -/
  | movi (e slot : Nat) (dd imm18 : Nat) (rest : List Syl)
  /-- MOVH (R300). -/
  | movh (e slot : Nat) (dd imm16 : Nat) (rest : List Syl)
  /-- MOV (R300). -/
  | mov (e slot : Nat) (dd da : Nat) (rest : List Syl)
  /-- PADD (R300). -/
  | padd (e slot : Nat) (pd ps imm13 : Nat) (rest : List Syl)
  /-- MOVDP (R300). -/
  | movdp (e slot : Nat) (dd ps : Nat) (rest : List Syl)
  /-- MOVPD (R300). -/
  | movpd (e slot : Nat) (pd ds : Nat) (rest : List Syl)
  /-- SEL (R300). -/
  | sel (e slot : Nat) (cond dd da db : Nat) (rest : List Syl)
  /-- BR (R303). -/
  | br (e : Nat) (cond imm19 : Nat) (rest : List Syl)
  /-- JMP (R302). -/
  | jmp (e : Nat) (ps : Nat) (rest : List Syl)
  /-- CALL (R326). -/
  | call (e : Nat) (imm23 : Nat) (rest : List Syl)
  /-- CALLR (R326). -/
  | callr (e : Nat) (ps : Nat) (rest : List Syl)
  /-- RET (R326). -/
  | ret (e : Nat) (rest : List Syl)
  /-- MFC (R291). -/
  | mfc (e : Nat) (dd cr : Nat) (rest : List Syl)
  /-- MTC (R291). -/
  | mtc (e : Nat) (cr ds : Nat) (rest : List Syl)
  /-- CLRF (R302). -/
  | clrf (e : Nat) (mask : Nat) (rest : List Syl)
  /-- GATE (R361). -/
  | gate (e : Nat) (n : Nat) (rest : List Syl)
  /-- RETG (R362). -/
  | retg (e : Nat) (rest : List Syl)
  /-- RETE (R358). -/
  | rete (e : Nat) (rest : List Syl)
  /-- WAIT (R351). -/
  | wait (e : Nat) (rest : List Syl)
  /-- BRK (R636). -/
  | brk (e : Nat) (rest : List Syl)
  /-- MAC (R312). -/
  | mac (e slot : Nat) (an da db : Nat) (f sz : Bool) (rest : List Syl)
  /-- MSU (R312). -/
  | msu (e slot : Nat) (an da db : Nat) (f sz : Bool) (rest : List Syl)
  /-- MUL (R312). -/
  | mul (e slot : Nat) (an da db : Nat) (f sz : Bool) (rest : List Syl)
  /-- MACD (R315). -/
  | macd (e slot : Nat) (an px py mx my : Nat) (sz f minus clr : Bool) (rest : List Syl)
  /-- EXT (R312). -/
  | ext (e slot : Nat) (dd an sh : Nat) (rnd : Bool) (rest : List Syl)
  /-- AMOV (R305). -/
  | amov (e slot : Nat) (an ds sh : Nat) (rest : List Syl)
  /-- ASH (R305). -/
  | ash (e slot : Nat) (an sh7 : Nat) (rest : List Syl)
  /-- AADD (R305). -/
  | aadd (e slot : Nat) (an am : Nat) (rest : List Syl)
  /-- FADD (R320). -/
  | fadd (e slot : Nat) (dd da db : Nat) (rest : List Syl)
  /-- FSUB (R320). -/
  | fsub (e slot : Nat) (dd da db : Nat) (rest : List Syl)
  /-- FMUL (R320). -/
  | fmul (e slot : Nat) (dd da db : Nat) (rest : List Syl)
  /-- FMA (R320). -/
  | fma (e slot : Nat) (dd da db : Nat) (rest : List Syl)
  /-- FCMP (R320). -/
  | fcmp (e slot : Nat) (da db : Nat) (rest : List Syl)
  /-- FCVT (R321). -/
  | fcvt (e slot : Nat) (func dd da : Nat) (rest : List Syl)
  /-- DIVS (R318). -/
  | divs (e slot : Nat) (dd da db : Nat) (rest : List Syl)
  /-- DIVU (R318). -/
  | divu (e slot : Nat) (dd da db : Nat) (rest : List Syl)
  /-- SQRT (R318). -/
  | sqrt (e slot : Nat) (dd da : Nat) (rest : List Syl)
  /-- SINCOS (R318). -/
  | sincos (e slot : Nat) (dd da : Nat) (rest : List Syl)
  /-- ATAN2 (R318). -/
  | atan2 (e slot : Nat) (dd da db : Nat) (rest : List Syl)
  /-- FDIV (R317). -/
  | fdiv (e slot : Nat) (dd da db : Nat) (rest : List Syl)
  /-- LONG_RESULT (R317). -/
  | longResult (e : Nat)
  /-- VMAC (R325). -/
  | vmac (e : Nat) (an px py dn : Nat) (sz f minus : Bool) (limit : Nat) (rest : List Syl)
  /-- LDB (R306). -/
  | ldb (e : Nat) (t pb : Nat) (a : Addr) (rest : List Syl)
  /-- LDBU (R306). -/
  | ldbu (e : Nat) (t pb : Nat) (a : Addr) (rest : List Syl)
  /-- LDH (R306). -/
  | ldh (e : Nat) (t pb : Nat) (a : Addr) (rest : List Syl)
  /-- LDHU (R306). -/
  | ldhu (e : Nat) (t pb : Nat) (a : Addr) (rest : List Syl)
  /-- LDW (R306). -/
  | ldw (e : Nat) (t pb : Nat) (a : Addr) (rest : List Syl)
  /-- LDD (R306). -/
  | ldd (e : Nat) (t pb : Nat) (a : Addr) (rest : List Syl)
  /-- LDP (R306). -/
  | ldp (e : Nat) (t pb : Nat) (a : Addr) (rest : List Syl)
  /-- LDA (R306). -/
  | lda (e : Nat) (t pb : Nat) (a : Addr) (rest : List Syl)
  /-- STB (R306). -/
  | stb (e : Nat) (t pb : Nat) (a : Addr) (rest : List Syl)
  /-- STH (R306). -/
  | sth (e : Nat) (t pb : Nat) (a : Addr) (rest : List Syl)
  /-- STW (R306). -/
  | stw (e : Nat) (t pb : Nat) (a : Addr) (rest : List Syl)
  /-- STD (R306). -/
  | std (e : Nat) (t pb : Nat) (a : Addr) (rest : List Syl)
  /-- STP (R306). -/
  | stp (e : Nat) (t pb : Nat) (a : Addr) (rest : List Syl)
  /-- STA (R306). -/
  | sta (e : Nat) (t pb : Nat) (a : Addr) (rest : List Syl)
  /-- LDRX (R310). -/
  | ldrx (e : Nat) (t pb ofs : Nat) (rest : List Syl)
  /-- STCX (R310). -/
  | stcx (e : Nat) (t pb ofs : Nat) (rest : List Syl)
  /-- AADDM (R309). -/
  | aaddm (e : Nat) (dd pb ds : Nat) (rest : List Syl)
  /-- AORM (R309). -/
  | aorm (e : Nat) (dd pb ds : Nat) (rest : List Syl)
  /-- ASWAP (R309). -/
  | aswap (e : Nat) (dd pb ds : Nat) (rest : List Syl)
  /-- BLKMOV (R323). -/
  | blkmov (e : Nat) (dn ps pd : Nat) (limit : Nat) (rest : List Syl)
  /-- BLKCRC (R324). -/
  | blkcrc (e : Nat) (dc ps dn : Nat) (limit : Nat) (rest : List Syl)
  /-- IFLUSH (R339). -/
  | iflush (e : Nat) (t pb ofs : Nat) (rest : List Syl)
  /-- FENCE (R311). -/
  | fence (e : Nat) (rest : List Syl)
  /-- LOAD_DATA_RETURN (R333). -/
  | loadDataReturn (e : Nat)
  /-- STORE_PERFORM (R336). -/
  | storePerform (e : Nat)
  /-- ICACHE_FILL (R338). -/
  | icacheFill (e : Nat)
  /-- TABLE_WALK (R372). -/
  | tableWalk (e : Nat)
  /-- ENGINE_RESET_DONE (R357). -/
  | engineResetDone (e : Nat)
  /-- EVENT_ENTRY (R345). -/
  | eventEntry (e : Nat)
  /-- CONTEXT_WRITE (R461). -/
  | contextWrite (rq : Rq) (e x value : Nat)
  /-- INVALIDATE_ADDRESS (R385). -/
  | invalidateAddress (rq : Rq) (t : Nat)
  /-- INVALIDATE_TENANT (R385). -/
  | invalidateTenant (rq : Rq) (t : Nat)
  /-- INVALIDATE_ALL (R385). -/
  | invalidateAll (rq : Rq)
  /-- INVALIDATE_DONE (R385). -/
  | invalidateDone
  /-- ROOT_WRITE (R387). -/
  | rootWrite (rq : Rq) (t value : Nat)
  /-- ECC_LOG_POP (R411). -/
  | eccLogPop (rq : Rq)
  /-- SCRUB_BURST (R400). -/
  | scrubBurst
  /-- SWEEP_START (R402). -/
  | sweepStart
  /-- SWEEP_END (R402). -/
  | sweepEnd
  /-- DRAM_SCRUB_LINE (R403). -/
  | dramScrubLine
  /-- SRAM_FILL (R404). -/
  | sramFill (bad : List (Nat × Nat))
  /-- FILL_DONE (R404). -/
  | fillDone (bootmode : Nat)
  /-- DRAM_ENABLE (R398). -/
  | dramEnable (rq : Rq)
  /-- TRAINING_DONE (R398). -/
  | trainingDone (ok : Bool)
  /-- DRAM_FILL_REGION (R406). -/
  | dramFillRegion
  /-- RASP_CLEAR (R407). -/
  | raspClear (rq : Rq)
  /-- CLEAR_DONE (R407). -/
  | clearDone
  /-- ARM_SUBMIT (R417). -/
  | armSubmit
  /-- ARM_WITHDRAW (R440). -/
  | armWithdraw
  /-- ARM_QUERY (R415). -/
  | armQuery
  /-- ARM_RESTART (R439). -/
  | armRestart
  /-- ARM_CTXSET (R420). -/
  | armCtxset
  /-- ARM_UNKNOWN_OP (R415). -/
  | armUnknownOp
  /-- ARM_COMMAND_DONE (R415). -/
  | armCommandDone
  /-- ENGINE_RETIRE (R435). -/
  | engineRetire (rq : Rq) (k value : Nat)
  /-- SLOW_DETECT (R435). -/
  | slowDetect (k : Nat)
  /-- MIGRATION_START (R437). -/
  | migrationStart (e : Nat)
  /-- MIGRATION_DONE (R437). -/
  | migrationDone (e : Nat)
  /-- REPORT_POP (R445). -/
  | reportPop (rq : Rq)
  /-- TENANT_REMOVE (R449). -/
  | tenantRemove (rq : Rq) (t : Nat)
  /-- TENANT_SCAN (R451). -/
  | tenantScan (rq : Rq) (t : Nat)
  /-- SCAN_DONE (R451). -/
  | scanDone
  /-- DW_END (R458). -/
  | dwEnd (rq : Rq)
  /-- MBOX_STAGE (R471). -/
  | mboxStage (rq : Rq) (m value : Nat)
  /-- MBOX_PUSH (R472). -/
  | mboxPush (rq : Rq) (m value : Nat)
  /-- MBOX_POP (R471). -/
  | mboxPop (rq : Rq) (m : Nat) (wide : Bool)
  /-- MBOX_CONFIG (R476). -/
  | mboxConfig (rq : Rq) (m value : Nat)
  /-- DOORBELL_RING (R479). -/
  | doorbellRing (rq : Rq) (d : Nat)
  /-- LOCK_ACQUIRE (R482). -/
  | lockAcquire (rq : Rq) (k : Nat)
  /-- LOCK_RELEASE (R482). -/
  | lockRelease (rq : Rq) (k value : Nat)
  /-- LOCK_FORCE (R484). -/
  | lockForce (k : Nat)
  /-- LOCK_CONFIG (R483). -/
  | lockConfig (rq : Rq) (k value : Nat)
  /-- EXTERNAL_ACCESS_VOTE (R491). -/
  | externalAccessVote
  /-- CHECKPOINT (R493). -/
  | checkpoint
  /-- LAG_TIMEOUT (R494). -/
  | lagTimeout
  /-- CHECKPOINT_TIMEOUT (R496). -/
  | checkpointTimeout
  /-- EXCHANGE_BATCH (R497). -/
  | exchangeBatch
  /-- BATCH_APPLY (R497). -/
  | batchApply (k : Nat)
  /-- PSREQ_WRITE (R500). -/
  | psreqWrite (k which value : Nat)
  /-- SAFE_TOGGLE (R503). -/
  | safeToggle
  /-- RESYNC_START (R505). -/
  | resyncStart (rq : Rq) (copy : Nat)
  /-- RESYNC_COPY (R505). -/
  | resyncCopy
  /-- RESYNC_FREEZE (R505). -/
  | resyncFreeze
  /-- RESYNC_CHECK (R505). -/
  | resyncCheck
  /-- CYCLE_START (R527). -/
  | cycleStart (p : Nat)
  /-- CYCLE_MISS (R529). -/
  | cycleMiss (p : Nat)
  /-- FRAME_RECEIVE (R522). -/
  | frameReceive (p : Nat) (ok : Bool) (body : List Nat) (ref chk : Nat)
  /-- CYCLE_RECEIVE (R541). -/
  | cycleReceive (p : Nat)
  /-- ISO_RECEIVE (R533). -/
  | isoReceive (p : Nat)
  /-- MSG_RECEIVE (R537). -/
  | msgReceive (p : Nat)
  /-- ACK_RECEIVE (R535). -/
  | ackReceive (p : Nat)
  /-- DLYREQ_RECEIVE (R542). -/
  | dlyreqReceive (p : Nat)
  /-- DLYRSP_RECEIVE (R542). -/
  | dlyrspReceive (p : Nat)
  /-- POLL_RECEIVE (R548). -/
  | pollReceive (p : Nat) (body : List Nat) (at_ : Nat)
  /-- PRESENT_RECEIVE (R546). -/
  | presentReceive (p : Nat)
  /-- WAKE_FRAME (R548). -/
  | wakeFrame (body : List Nat)
  /-- SLOT_READ_START (R531). -/
  | slotReadStart (p k : Nat)
  /-- SLOT_LAUNCH (R531). -/
  | slotLaunch (p k : Nat)
  /-- CONTENTION_SEND (R534). -/
  | contentionSend (p at_ : Nat)
  /-- ACK_TIMEOUT (R535). -/
  | ackTimeout (p : Nat)
  /-- ACK_SEND (R535). -/
  | ackSend (p : Nat)
  /-- DLYRSP_SEND (R542). -/
  | dlyrspSend (p : Nat)
  /-- DLYREQ_DUE (R542). -/
  | dlyreqDue (p : Nat)
  /-- PRESENT_SEND (R548). -/
  | presentSend (p : Nat)
  /-- KEY_LOAD (R552). -/
  | keyLoad (rq : Rq) (ix : Nat)
  /-- KEY_ERASE (R552). -/
  | keyErase (rq : Rq) (ix : Nat)
  /-- KEY_TXUSE (R521). -/
  | keyTxuse (rq : Rq) (ix : Nat)
  /-- FORM (R556). -/
  | form (rq : Rq)
  /-- FORM_ABORT (R575). -/
  | formAbort (rq : Rq)
  /-- KEYCHK_RERUN (R563). -/
  | keychkRerun (rq : Rq)
  /-- CLAIM (R557). -/
  | claim (p : Nat) (collided : Bool)
  /-- CLAIM_RECEIVE (R557). -/
  | claimReceive (p : Nat)
  /-- HEAD_CONFIRM (R557). -/
  | headConfirm (p : Nat)
  /-- TURN (R558). -/
  | turn (p : Nat)
  /-- TURN_ANSWER (R558). -/
  | turnAnswer (p : Nat)
  /-- JOIN_RECEIVE (R559). -/
  | joinReceive (p : Nat)
  /-- REGREQ (R560). -/
  | regreq (p : Nat)
  /-- REGISTER_RECEIVE (R560). -/
  | registerReceive (p : Nat)
  /-- ROOT_RECEIVE (R561). -/
  | rootReceive (p : Nat)
  /-- KEYCHK_RECEIVE (R563). -/
  | keychkReceive (p : Nat)
  /-- KEYRES_RECEIVE (R563). -/
  | keyresReceive (p : Nat)
  /-- FORMED_RECEIVE (R563). -/
  | formedReceive (p : Nat)
  /-- ROOT_REPEAT (R565). -/
  | rootRepeat
  /-- BARRIER_ARRIVE (R570). -/
  | barrierArrive (rq : Rq) (value : Nat)
  /-- ARRIVE_RECEIVE (R570). -/
  | arriveReceive (p : Nat)
  /-- RELEASE_RECEIVE (R570). -/
  | releaseReceive (p : Nat)
  /-- BARRIER_RELEASE (R570). -/
  | barrierRelease
  /-- SNAP_RECEIVE (R571). -/
  | snapReceive (p : Nat)
  /-- SNAPSHOT_CAPTURE (R571). -/
  | snapshotCapture
  /-- RESET_RECEIVE (R572). -/
  | resetReceive (p : Nat)
  /-- LINE_RESET (R572). -/
  | lineReset
  /-- POWER_ON (R594). -/
  | powerOn (xmode : Bool)
  /-- CORE_ENABLE (R594). -/
  | coreEnable
  /-- IO_ENABLE (R577). -/
  | ioEnable (good : Nat)
  /-- RAILS_GOOD (R594). -/
  | railsGood (t : Nat)
  /-- OSC_VALID (R594). -/
  | oscValid (t : Nat)
  /-- PLL_LOCK (R594). -/
  | pllLock (t : Nat)
  /-- FUSE_READ_DONE (R594). -/
  | fuseReadDone
  /-- BOOT_IMAGE_LOAD (R595). -/
  | bootImageLoad (bytes : List Nat)
  /-- IMAGE_VERIFY (R596). -/
  | imageVerify
  /-- BOOT_SOURCE_TIMEOUT (R613). -/
  | bootSourceTimeout
  /-- PIN_RESET (R592). -/
  | pinReset
  /-- SUPPLY_WARNING (R578). -/
  | supplyWarning (rail : Nat)
  /-- BROWNOUT (R578). -/
  | brownout (rail : Nat)
  /-- CLOCK_LOSS (R580). -/
  | clockLoss
  /-- CLOCK_RECOVER (R580). -/
  | clockRecover
  /-- THROTTLE_START (R590). -/
  | throttleStart (k t : Nat)
  /-- THROTTLE_END (R590). -/
  | throttleEnd (k t : Nat)
  /-- OVERTEMP (R591). -/
  | overtemp (k t : Nat)
  /-- POWER_CYCLE_RESTART (R592). -/
  | powerCycleRestart
  /-- SYSTEM_SOFT_RESET (R592). -/
  | systemSoftReset (rq : Rq)
  /-- DOZE (R582). -/
  | doze (rq : Rq)
  /-- DOZE_ENTRY (R582). -/
  | dozeEntry
  /-- DOZE_WAKE (R583). -/
  | dozeWake (src : Nat)
  /-- WATCH (R584). -/
  | watch (rq : Rq)
  /-- SHELF (R584). -/
  | shelf (rq : Rq)
  /-- POWER_DOWN_STEP (R584). -/
  | powerDownStep
  /-- WAKE_PIN (R585). -/
  | wakePin (n : Nat)
  /-- WAKE_TIMER (R585). -/
  | wakeTimer
  /-- WAKE_SHOCK (R136). -/
  | wakeShock (c : Nat) (above : Bool)
  /-- ENGINE_POWER_GATE (R586). -/
  | enginePowerGate (e : Nat)
  /-- ENGINE_POWER_UP (R475). -/
  | enginePowerUp (e : Nat)
  /-- FUSE_PROGRAM (R601). -/
  | fuseProgram (rq : Rq) (word bit : Nat)
  /-- FUSE_PROGRAM_DONE (R601). -/
  | fuseProgramDone
  /-- TXKICK (R606). -/
  | txkick (rq : Rq) (n : Nat)
  /-- ETH_TX_DONE (R606). -/
  | ethTxDone (n sfd done : Nat)
  /-- ETH_RX_FRAME (R606). -/
  | ethRxFrame (n : Nat) (bytes : List Nat) (fcs : Bool) (sfd done : Nat)
  /-- MDIO_TRANSFER (R609). -/
  | mdioTransfer (rq : Rq) (read : Bool) (phy reg data : Nat)
  /-- MDIO_DONE (R609). -/
  | mdioDone (data : Nat)
  /-- HSPI_WRITE (R611). -/
  | hspiWrite (addr : Nat) (words : List Word)
  /-- HSPI_READ (R611). -/
  | hspiRead (addr n : Nat)
  /-- HSPI_STATUS (R611). -/
  | hspiStatus
  /-- HSPI_IRQACK (R611). -/
  | hspiIrqack (mask : Nat)
  /-- HSPI_BOOTLOAD (R613). -/
  | hspiBootload (words : List Word)
  /-- HSPI_WRITE_PERFORM (R612). -/
  | hspiWritePerform
  /-- BOOTDATA_POP (R614). -/
  | bootdataPop
  /-- QSPI_TRANSFER (R616). -/
  | qspiTransfer (rq : Rq) (value : Nat)
  /-- QSPI_DONE (R616). -/
  | qspiDone (bytes : List Nat)
  /-- GPIO_SET (R618). -/
  | gpioSet (rq : Rq) (pins : Nat)
  /-- GPIO_CLR (R618). -/
  | gpioClr (rq : Rq) (pins : Nat)
  /-- GPIO_EDGE (R617). -/
  | gpioEdge (pins : Nat)
  /-- PERF_OWN_WRITE (R620). -/
  | perfOwnWrite (rq : Rq) (e j value : Nat)
  /-- TAG_CHOOSE (R624). -/
  | tagChoose (e : Nat)
  /-- TAG_COMPLETE (R624). -/
  | tagComplete (e outcome slots met target fd dh xw : Nat)
  /-- BW_WINDOW_END (R625). -/
  | bwWindowEnd (e : Nat)
  /-- TAP_EXTEST (R628). -/
  | tapExtest
  /-- TAP_IDCODE (R627). -/
  | tapIdcode
  /-- TAP_SAMPLE_PRELOAD (R627). -/
  | tapSamplePreload (bits : List Bool)
  /-- TAP_BYPASS (R627). -/
  | tapBypass (bit : Bool)
  /-- TAP_RESET (R631). -/
  | tapReset
  /-- DBG_READ (R629). -/
  | dbgRead (addr : Nat)
  /-- DBG_WRITE (R629). -/
  | dbgWrite (addr : Nat) (value : Word)
  /-- DBGACC_DONE (R629). -/
  | dbgaccDone
  /-- DEBUG_REQUEST (R630). -/
  | debugRequest (value : Nat)
  /-- SESSION_OPEN (R630). -/
  | sessionOpen (rq : Rq) (t ring cap : Nat)
  /-- SESSION_CLOSE (R631). -/
  | sessionClose (rq : Rq)
  /-- HALT (R634). -/
  | halt (t : Nat)
  /-- RESUME (R634). -/
  | resume (t : Nat)
  /-- STEP (R634). -/
  | step (t : Nat)
  /-- DEBUG_RESET (R639). -/
  | debugReset
  /-- SYNC_OUTPUT_FALL (R122). -/
  | syncOutputFall (c n : Nat) (upper : Bool)
  /-- TRIP_BLANK_LIMIT (R190). -/
  | tripBlankLimit (c src : Nat)
  /-- WATCHOK_CHANGE (R135). -/
  | watchokChange (ok : Bool)
  /-- SUPPLY_WARNING_END (R578). -/
  | supplyWarningEnd (rail : Nat)
  /-- LOSS_OF_VAON (R581). -/
  | lossOfVaon
  /-- RESET_RELEASE (R592). -/
  | resetRelease
  /-- X32_CRYSTAL_VALID (R579). -/
  | x32CrystalValid
  /-- PEDESTAL_CLEAR_DONE (R598). -/
  | pedestalClearDone
  /-- DLYRSP_TIMEOUT (R542). -/
  | dlyrspTimeout (p : Nat)
  /-- CALIPER_BOUNDARY (R231). -/
  | caliperBoundary
deriving DecidableEq, Repr

end Sys2Proof
end

