-- ==== Sys2Proof/Config.lean ====
section
/-! DEFINITION. The values the manual leaves open. Every constant below is opaque: nothing can evaluate it, so a claim holds for every value of it (log 5). -/

namespace Sys2Proof.Config

/-- A free value: the site that asks and the state's counter of free values (log 5). -/
opaque free : Nat → Nat → Nat

/-- Whether an inexact result is rounded up, where the manual states no rounding: site, numerator, divisor (log 6). -/
opaque roundUp : Nat → Int → Int → Bool

/-- A deviation inside a stated error bound: site and two operands; the caller limits it to the bound (log 7). -/
opaque dev : Nat → Int → Int → Int

end Sys2Proof.Config
end

