-- ==== Sys2Proof/Machine/Bits.lean ====
section
/-! DEFINITION. Bit fields, two's complement, saturation, rounding, and the sparse tables that hold registers, memory and per-instance state. -/

namespace Sys2Proof.Machine

/-- Bits `hi:lo` of a natural number (R12). -/
def bitsOf (w hi lo : Nat) : Nat := (w >>> lo) % 2 ^ (hi + 1 - lo)

/-- Bit `i` of a natural number. -/
def bitOf (w i : Nat) : Bool := (w >>> i) % 2 == 1

/-- `w` with bits `hi:lo` replaced by `v`. -/
def putBits (w hi lo v : Nat) : Nat :=
  w - (bitsOf w hi lo) <<< lo + (v % 2 ^ (hi + 1 - lo)) <<< lo

/-- 1 or 0. -/
def b2n (b : Bool) : Nat := if b then 1 else 0

/-- The two's-complement value of the low `n` bits (R14). -/
def sx (n w : Nat) : Int :=
  if w % 2 ^ n < 2 ^ (n - 1) then Int.ofNat (w % 2 ^ n) else Int.ofNat (w % 2 ^ n) - (2 ^ n : Nat)

/-- The `n`-bit two's-complement pattern of an integer (R14). -/
def ux (n : Nat) (i : Int) : Nat := (i % ((2 ^ n : Nat) : Int)).toNat

/-- Saturation into `lo..hi`. -/
def clampI (lo hi i : Int) : Int := if i < lo then lo else if hi < i then hi else i

/-- Saturation into the `n`-bit two's-complement range. -/
def satS (n : Nat) (i : Int) : Int := clampI (-((2 ^ (n - 1) : Nat) : Int)) (((2 ^ (n - 1) : Nat) : Int) - 1) i

/-- Saturation of a natural number at `hi`. -/
def satN (hi n : Nat) : Nat := if hi < n then hi else n

/-- Right shift of an integer by `k`, towards minus infinity. -/
def asr (i : Int) (k : Nat) : Int := i / ((2 ^ k : Nat) : Int)

/-- Right shift by `k` with half added first (round half up). -/
def rnd (i : Int) (k : Nat) : Int := if k = 0 then i else asr (i + ((2 ^ (k - 1) : Nat) : Int)) k

/-- Rounded quotient, halves away from zero. -/
def divRound (a b : Int) : Int :=
  if b = 0 then 0
  else if (0 ≤ a) = (0 < b) then (2 * a.natAbs + b.natAbs) / (2 * b.natAbs : Nat)
  else - (((2 * a.natAbs + b.natAbs) / (2 * b.natAbs) : Nat) : Int)

/-- Quotient truncated towards zero. -/
def divTrunc (a b : Int) : Int :=
  if b = 0 then 0 else if (0 ≤ a) = (0 < b) then ((a.natAbs / b.natAbs : Nat) : Int) else - ((a.natAbs / b.natAbs : Nat) : Int)

/-- Ceiling of a quotient of naturals (0 for a divisor of 0). -/
def ceilDiv (a b : Nat) : Nat := if b = 0 then 0 else (a + b - 1) / b

/-- Integer square root by bisection from bit `k` down. -/
def isqrtGo (n : Nat) : Nat → Nat → Nat
  | 0, r => if (r + 1) * (r + 1) ≤ n then r + 1 else r
  | k + 1, r => let t := r + 2 ^ (k + 1); isqrtGo n k (if t * t ≤ n then t else r)

/-- Integer square root of a number below 2^(2 bits). -/
def isqrt (bits n : Nat) : Nat := isqrtGo n bits 0

/-- Parity of the low 64 bits. -/
def parity (w : Nat) : Nat := (List.range 64).foldl (fun p i => (p + (w >>> i) % 2) % 2) 0

/-- Number of ones in the low `n` bits. -/
def popcount (n w : Nat) : Nat := (List.range n).foldl (fun p i => p + (w >>> i) % 2) 0

/-- A sparse table: keys strictly rising, no entry equal to the default. Lookup. -/
def tget {α : Type} (d : Nat → α) : List (Nat × α) → Nat → α
  | [], k => d k
  | (k', v) :: r, k => if k' = k then v else tget d r k

/-- An entry put where its key belongs. -/
def tins {α : Type} : List (Nat × α) → Nat → α → List (Nat × α)
  | [], k, v => [(k, v)]
  | (k', v') :: r, k, v =>
    if k' = k then (k, v) :: r else if k < k' then (k, v) :: (k', v') :: r else (k', v') :: tins r k v

/-- A key without an entry. -/
def tdel {α : Type} (l : List (Nat × α)) (k : Nat) : List (Nat × α) := l.filter (fun p => p.1 != k)

/-- Insertion into a sparse table; an entry equal to the default is removed. -/
def tput {α : Type} [DecidableEq α] (d : Nat → α) (l : List (Nat × α)) (k : Nat) (v : α) : List (Nat × α) :=
  if v = d k then tdel l k else tins l k v

/-- The canonical form of a sparse table from key `lo` upward. -/
def twfFrom {α : Type} [DecidableEq α] (d : Nat → α) : Nat → List (Nat × α) → Bool
  | _, [] => true
  | lo, (k, v) :: r => decide (lo ≤ k) && decide (v ≠ d k) && twfFrom d (k + 1) r

/-- The canonical form of a sparse table. -/
def twf {α : Type} [DecidableEq α] (d : Nat → α) (l : List (Nat × α)) : Bool := twfFrom d 0 l

/-- Removal of every key in `lo ≤ k < hi`. -/
def tclear {α : Type} (lo hi : Nat) (l : List (Nat × α)) : List (Nat × α) :=
  l.filter (fun p => !(decide (lo ≤ p.1) && decide (p.1 < hi)))

/-- The `i`-th element, or `d`. -/
def lget {α : Type} (d : α) (l : List α) (i : Nat) : α := l.getD i d

/-- Replace the `i`-th element. -/
def lput {α : Type} (l : List α) (i : Nat) (v : α) : List α := l.set i v

end Sys2Proof.Machine
end

