-- ==== Sys2Proof/Machine/Reg.lean ====
section
/-! DEFINITION. The names and addresses of every page and register: R44-R46 and the register tables of the chapters. -/

namespace Sys2Proof.Machine.Reg

/-- R45: base of page `p` of channel `c`. -/
def chanPage (c p : Nat) : Nat := 0x40000000 + c * 0x10000 + p * 0x1000
/-- R46: base of device-wide page `n`. -/
def devPage (n : Nat) : Nat := 0x41000000 + n * 0x1000

namespace CHAN
abbrev page (c : Nat) : Nat := chanPage c 0
abbrev MODE (c : Nat) : Nat := page c + 0x40
abbrev STATUS (c : Nat) : Nat := page c + 0x44
abbrev EVTEN (c : Nat) : Nat := page c + 0x48
abbrev PINS (c : Nat) : Nat := page c + 0x4C
abbrev LAT (c : Nat) : Nat := page c + 0x50
abbrev LATLIM (c : Nat) : Nat := page c + 0x54
abbrev LATOVER (c : Nat) : Nat := page c + 0x58
end CHAN

namespace ADC
abbrev page (c : Nat) : Nat := chanPage c 1
abbrev CFG (c : Nat) : Nat := page c + 0x40
abbrev REF (c : Nat) : Nat := page c + 0x44
abbrev STAMP (c : Nat) : Nat := page c + 0x48
abbrev MAQDROP (c : Nat) : Nat := page c + 0x4C
end ADC

namespace SEQ
abbrev page (c : Nat) : Nat := chanPage c 2
abbrev SEQCTL (c k : Nat) : Nat := page c + 0x40 + 4 * k
abbrev TRIG (c k : Nat) : Nat := page c + 0x50 + 4 * k
abbrev DROPCNT (c k : Nat) : Nat := page c + 0x60 + 4 * k
abbrev STEP (c k : Nat) : Nat := page c + 0x80 + 4 * k
end SEQ

namespace ADCFIFO
abbrev page (c : Nat) : Nat := chanPage c 3
abbrev ADATA_LO (c : Nat) : Nat := page c + 0x40
abbrev ADATA_HI (c : Nat) : Nat := page c + 0x44
abbrev BDATA_LO (c : Nat) : Nat := page c + 0x48
abbrev BDATA_HI (c : Nat) : Nat := page c + 0x4C
abbrev LEVEL (c : Nat) : Nat := page c + 0x50
abbrev FLUSH (c : Nat) : Nat := page c + 0x54
end ADCFIFO

namespace ADCCAL
abbrev page (c : Nat) : Nat := chanPage c 4
abbrev COEF (c k : Nat) : Nat := page c + 0x40 + 4 * k
abbrev SKEW (c : Nat) : Nat := page c + 0x68
abbrev CALCTL (c : Nat) : Nat := page c + 0x6C
abbrev CALTGT (c : Nat) : Nat := page c + 0x70
abbrev DRIFTCTL (c : Nat) : Nat := page c + 0x74
abbrev DRIFTA (c : Nat) : Nat := page c + 0x78
abbrev DRIFTB (c : Nat) : Nat := page c + 0x7C
abbrev DRIFTLIM (c : Nat) : Nat := page c + 0x80
abbrev DRIFTAGE (c : Nat) : Nat := page c + 0x84
abbrev REFA (c : Nat) : Nat := page c + 0x88
abbrev REFB (c : Nat) : Nat := page c + 0x8C
end ADCCAL

namespace CMP
abbrev page (c : Nat) : Nat := chanPage c 5
abbrev CFG (c k : Nat) : Nat := page c + 0x40 + 4 * k
abbrev THR (c k : Nat) : Nat := page c + 0x54 + 4 * k
abbrev RAMP (c k : Nat) : Nat := page c + 0x68 + 4 * k
abbrev RAW (c : Nat) : Nat := page c + 0x74
abbrev STATUS (c : Nat) : Nat := page c + 0x78
abbrev CROSS (c k : Nat) : Nat := page c + 0x80 + 4 * k
end CMP

namespace POS
abbrev page (c : Nat) : Nat := chanPage c 6
abbrev CFG (c : Nat) : Nat := page c + 0x40
abbrev CORR (c : Nat) : Nat := page c + 0x44
abbrev AMPWIN (c : Nat) : Nat := page c + 0x48
abbrev WRAP (c : Nat) : Nat := page c + 0x4C
abbrev MCOUNT (c : Nat) : Nat := page c + 0x50
abbrev POSITION (c : Nat) : Nat := page c + 0x54
abbrev REV (c : Nat) : Nat := page c + 0x58
abbrev MOTANG (c : Nat) : Nat := page c + 0x5C
abbrev SPEED (c : Nat) : Nat := page c + 0x60
abbrev SAMPLE (c : Nat) : Nat := page c + 0x64
abbrev AMPNOW (c : Nat) : Nat := page c + 0x68
abbrev QCOUNT (c : Nat) : Nat := page c + 0x6C
abbrev CMPVAL (c : Nat) : Nat := page c + 0x70
abbrev CMPSTEP (c : Nat) : Nat := page c + 0x74
abbrev CMPCTL (c : Nat) : Nat := page c + 0x78
abbrev ZLATCH (c : Nat) : Nat := page c + 0x7C
abbrev ZCTL (c : Nat) : Nat := page c + 0x80
abbrev ZSET (c : Nat) : Nat := page c + 0x84
abbrev MOTSET (c : Nat) : Nat := page c + 0x88
abbrev POSSET (c : Nat) : Nat := page c + 0x8C
abbrev LOADCTL (c : Nat) : Nat := page c + 0x90
end POS

namespace SSI
abbrev page (c : Nat) : Nat := chanPage c 7
abbrev CLK (c : Nat) : Nat := page c + 0x40
abbrev FRAME (c : Nat) : Nat := page c + 0x44
abbrev CRC (c : Nat) : Nat := page c + 0x48
abbrev CRCINIT (c : Nat) : Nat := page c + 0x4C
abbrev FIELD (c : Nat) : Nat := page c + 0x50
abbrev CMD (c : Nat) : Nat := page c + 0x54
abbrev TRIG (c : Nat) : Nat := page c + 0x58
abbrev WORD_LO (c : Nat) : Nat := page c + 0x5C
abbrev WORD_HI (c : Nat) : Nat := page c + 0x60
abbrev RESULT (c : Nat) : Nat := page c + 0x64
abbrev ABS (c : Nat) : Nat := page c + 0x68
abbrev MT (c : Nat) : Nat := page c + 0x6C
abbrev CRCCNT (c : Nat) : Nat := page c + 0x70
abbrev TOUTCNT (c : Nat) : Nat := page c + 0x74
abbrev DROP (c : Nat) : Nat := page c + 0x78
end SSI

namespace PWM
abbrev page (c : Nat) : Nat := chanPage c 8
abbrev CFG (c : Nat) : Nat := page c + 0x40
abbrev PERIOD (c : Nat) : Nat := page c + 0x44
abbrev PERLIVE (c : Nat) : Nat := page c + 0x48
abbrev COUNT (c : Nat) : Nat := page c + 0x4C
abbrev CMP (c k : Nat) : Nat := page c + 0x50 + 4 * k
abbrev CMPLIVE (c k : Nat) : Nat := page c + 0x5C + 4 * k
abbrev TRGPT (c k : Nat) : Nat := page c + 0x68 + 4 * k
abbrev DT (c k : Nat) : Nat := page c + 0x70 + 4 * k
abbrev LEGCFG (c k : Nat) : Nat := page c + 0x7C + 4 * k
abbrev VA (c k : Nat) : Nat := page c + 0x88 + 4 * k
abbrev VB (c k : Nat) : Nat := page c + 0x94 + 4 * k
abbrev OUT (c : Nat) : Nat := page c + 0xA0
end PWM

namespace TRIP
abbrev page (c : Nat) : Nat := chanPage c 9
abbrev CFG (c : Nat) : Nat := page c + 0x40
abbrev SRC (c : Nat) : Nat := page c + 0x44
abbrev BLANKEN (c : Nat) : Nat := page c + 0x48
abbrev LATCH (c : Nat) : Nat := page c + 0x4C
abbrev FIRST (c : Nat) : Nat := page c + 0x50
abbrev FIRSTCNT (c : Nat) : Nat := page c + 0x54
abbrev CTRL (c : Nat) : Nat := page c + 0x58
abbrev TRIPCNT (c : Nat) : Nat := page c + 0x5C
end TRIP

namespace CHISEL
abbrev page (c : Nat) : Nat := chanPage c 10
abbrev CFG (c : Nat) : Nat := page c + 0x40
abbrev CTRL (c : Nat) : Nat := page c + 0x44
abbrev STATUS (c : Nat) : Nat := page c + 0x48
abbrev REF (c : Nat) : Nat := page c + 0x4C
abbrev FF (c : Nat) : Nat := page c + 0x50
abbrev VAPP (c : Nat) : Nat := page c + 0x54
abbrev KPD (c : Nat) : Nat := page c + 0x58
abbrev KID (c : Nat) : Nat := page c + 0x5C
abbrev KPQ (c : Nat) : Nat := page c + 0x60
abbrev KIQ (c : Nat) : Nat := page c + 0x64
abbrev ILIM (c : Nat) : Nat := page c + 0x68
abbrev VLIM (c : Nat) : Nat := page c + 0x6C
abbrev UDC (c : Nat) : Nat := page c + 0x70
abbrev ANG (c : Nat) : Nat := page c + 0x74
abbrev SPDSCL (c : Nat) : Nat := page c + 0x78
abbrev VADV (c : Nat) : Nat := page c + 0x7C
abbrev DTC (c : Nat) : Nat := page c + 0x80
abbrev DLIM (c : Nat) : Nat := page c + 0x84
abbrev INTD (c : Nat) : Nat := page c + 0x88
abbrev INTQ (c : Nat) : Nat := page c + 0x8C
abbrev IDQ (c : Nat) : Nat := page c + 0x90
abbrev VDQ (c : Nat) : Nat := page c + 0x94
abbrev THETA (c : Nat) : Nat := page c + 0x98
abbrev LIMCNT (c : Nat) : Nat := page c + 0x9C
abbrev SKIPCNT (c : Nat) : Nat := page c + 0xA0
end CHISEL

namespace WEAR
abbrev page (c : Nat) : Nat := chanPage c 11
abbrev CFG (c : Nat) : Nat := page c + 0x40
abbrev KLOSS (c : Nat) : Nat := page c + 0x44
abbrev HYST (c : Nat) : Nat := page c + 0x48
abbrev TEMP (c k : Nat) : Nat := page c + 0x4C + 4 * k
abbrev WEIGHT (c k : Nat) : Nat := page c + 0x58 + 4 * k
abbrev DAMAGE (c k : Nat) : Nat := page c + 0x78 + 4 * k
abbrev HC (c k : Nat) : Nat := page c + 0x84 + 4 * k
end WEAR

namespace DEVICE
abbrev page : Nat := devPage 0x0
abbrev IDENT : Nat := page + 0x40
abbrev DWSTAT : Nat := page + 0x44
abbrev DWREC0 : Nat := page + 0x48
abbrev DWREC1 : Nat := page + 0x4C
abbrev DWREC2 : Nat := page + 0x50
abbrev DWREC3 : Nat := page + 0x54
abbrev DWEND : Nat := page + 0x58
end DEVICE

namespace PWR
abbrev page : Nat := devPage 0x1
abbrev CMD : Nat := page + 0x40
abbrev STATUS : Nat := page + 0x44
abbrev WAKEEN : Nat := page + 0x48
abbrev WAKECMP : Nat := page + 0x4C
abbrev AONTICK : Nat := page + 0x50
abbrev WAKEREC0 : Nat := page + 0x54
abbrev WAKEREC1 : Nat := page + 0x58
abbrev WAKEMASK_LO : Nat := page + 0x5C
abbrev WAKEMASK_HI : Nat := page + 0x60
abbrev AONSCR (k : Nat) : Nat := page + 0x80 + 4 * k
end PWR

namespace CLK
abbrev page : Nat := devPage 0x2
abbrev STATUS : Nat := page + 0x40
abbrev LOSSCNT : Nat := page + 0x44
end CLK

namespace RST
abbrev page : Nat := devPage 0x3
abbrev CTL : Nat := page + 0x40
abbrev CAUSE : Nat := page + 0x44
abbrev LAST : Nat := page + 0x48
abbrev COUNT : Nat := page + 0x4C
end RST

namespace BOOT
abbrev page : Nat := devPage 0x4
abbrev STATUS : Nat := page + 0x40
abbrev IMGSVN : Nat := page + 0x44
abbrev IMGLEN : Nat := page + 0x48
end BOOT

namespace THERM
abbrev page : Nat := devPage 0x5
abbrev TEMP (k : Nat) : Nat := page + 0x40 + 4 * k
abbrev TLIM : Nat := page + 0x80
abbrev THROT : Nat := page + 0x84
abbrev TMAX : Nat := page + 0x88
end THERM

namespace CALIPER0
abbrev page : Nat := devPage 0x8
abbrev TIME_NS : Nat := page + 0x40
abbrev TIME_SEC_LO : Nat := page + 0x44
abbrev TIME_SEC_HI : Nat := page + 0x48
abbrev SET_NS : Nat := page + 0x4C
abbrev SET_SEC_LO : Nat := page + 0x50
abbrev SET_SEC_HI : Nat := page + 0x54
abbrev SETCTL : Nat := page + 0x58
abbrev DISC : Nat := page + 0x5C
abbrev FREQ : Nat := page + 0x60
abbrev GI : Nat := page + 0x64
abbrev SLEWN : Nat := page + 0x68
abbrev STEPLIM : Nat := page + 0x6C
abbrev OFSIN : Nat := page + 0x70
abbrev OFFSET : Nat := page + 0x74
abbrev DSTAT : Nat := page + 0x78
end CALIPER0

namespace CALIPER1
abbrev page : Nat := devPage 0x9
abbrev LCFG (k : Nat) : Nat := page + 0x40 + 32 * k
abbrev RATIO (k : Nat) : Nat := page + 0x44 + 32 * k
abbrev WRAP (k : Nat) : Nat := page + 0x48 + 32 * k
abbrev RATESET (k : Nat) : Nat := page + 0x4C + 32 * k
abbrev ANGLE (k : Nat) : Nat := page + 0x50 + 32 * k
abbrev RATE (k : Nat) : Nat := page + 0x54 + 32 * k
abbrev LERR (k : Nat) : Nat := page + 0x58 + 32 * k
abbrev LSTAT (k : Nat) : Nat := page + 0x5C + 32 * k
abbrev LJUMP : Nat := page + 0x240
end CALIPER1

namespace CALIPER2
abbrev page : Nat := devPage 0xA
abbrev TABOWN (k : Nat) : Nat := page + 0x40 + 4 * k
abbrev GRANT (k : Nat) : Nat := page + 0x240 + 4 * k
end CALIPER2

namespace CALIPER3
abbrev page : Nat := devPage 0xB
abbrev REFVAL (k : Nat) : Nat := page + 0x40 + 4 * k
end CALIPER3

namespace CALTAB
abbrev page (i : Nat) : Nat := devPage (0x10 + i)
abbrev CTL (i k : Nat) : Nat := page i + 0x40 + 12 * k
abbrev TARGET (i k : Nat) : Nat := page i + 0x44 + 12 * k
abbrev STEP (i k : Nat) : Nat := page i + 0x48 + 12 * k
end CALTAB

namespace MAQ
abbrev page (i : Nat) : Nat := devPage (0x20 + i)
abbrev STATUS (i : Nat) : Nat := page i + 0x40
abbrev LOAD (i : Nat) : Nat := page i + 0x44
abbrev INDROP (i : Nat) : Nat := page i + 0x48
abbrev FEED (i k : Nat) : Nat := page i + 0x50 + 4 * k
abbrev JBASE (i k : Nat) : Nat := page i + 0x100 + 32 * k
abbrev JCTL (i k : Nat) : Nat := page i + 0x104 + 32 * k
abbrev JREC (i k : Nat) : Nat := page i + 0x108 + 32 * k
abbrev FRWR (i k : Nat) : Nat := page i + 0x10C + 32 * k
abbrev FRRD (i k : Nat) : Nat := page i + 0x110 + 32 * k
abbrev JDROP (i k : Nat) : Nat := page i + 0x114 + 32 * k
abbrev JRES (i k : Nat) : Nat := page i + 0x118 + 32 * k
abbrev JFRD (i k : Nat) : Nat := page i + 0x11C + 32 * k
end MAQ

namespace PLINTH
abbrev page (i : Nat) : Nat := devPage (0x30 + i)
abbrev BANKSTAT (i : Nat) : Nat := page i + 0x40
abbrev CECNT (i k : Nat) : Nat := page i + 0x44 + 4 * k
abbrev UECNT (i : Nat) : Nat := page i + 0x64
abbrev ENGERR (i k : Nat) : Nat := page i + 0x68 + 4 * k
abbrev MAQERR (i : Nat) : Nat := page i + 0x88
end PLINTH

namespace ENG
abbrev page (i : Nat) : Nat := devPage (0x40 + i)
abbrev CFG (i : Nat) : Nat := page i + 0x40
abbrev STATUS (i : Nat) : Nat := page i + 0x44
abbrev STORE (i : Nat) : Nat := page i + 0x48
abbrev FAULTCNT (i : Nat) : Nat := page i + 0x4C
abbrev DFCNT (i : Nat) : Nat := page i + 0x50
abbrev RESETCNT (i : Nat) : Nat := page i + 0x54
abbrev ENTRYCNT (i : Nat) : Nat := page i + 0x58
abbrev LATMAX (i : Nat) : Nat := page i + 0x5C
abbrev CTXCFG (i k : Nat) : Nat := page i + 0x100 + 32 * k
abbrev TVEC (i k : Nat) : Nat := page i + 0x104 + 32 * k
abbrev GTAB (i k : Nat) : Nat := page i + 0x108 + 32 * k
abbrev GLEN (i k : Nat) : Nat := page i + 0x10C + 32 * k
abbrev SP1 (i k : Nat) : Nat := page i + 0x110 + 32 * k
abbrev SP2 (i k : Nat) : Nat := page i + 0x114 + 32 * k
abbrev STRIDE (i k : Nat) : Nat := page i + 0x118 + 32 * k
abbrev DFVEC (i k : Nat) : Nat := page i + 0x11C + 32 * k
abbrev SCTL (i k : Nat) : Nat := page i + 0x400 + 16 * k
abbrev ENTRY (i k : Nat) : Nat := page i + 0x404 + 16 * k
abbrev ARG (i k : Nat) : Nat := page i + 0x408 + 16 * k
abbrev SP (i k : Nat) : Nat := page i + 0x40C + 16 * k
end ENG

namespace PERF
abbrev page (i : Nat) : Nat := devPage (0xA0 + i)
abbrev OWN (i k : Nat) : Nat := page i + 0x40 + 4 * k
abbrev CFG (i k : Nat) : Nat := page i + 0x70 + 4 * k
abbrev CNT (i k : Nat) : Nat := page i + 0x90 + 4 * k
abbrev TDCTL (i : Nat) : Nat := page i + 0xC0
abbrev TDRET (i : Nat) : Nat := page i + 0xC4
abbrev TDWASTE (i : Nat) : Nat := page i + 0xC8
abbrev TDFRONT (i : Nat) : Nat := page i + 0xCC
abbrev TDBACK (i : Nat) : Nat := page i + 0xD0
abbrev TAGCFG (i : Nat) : Nat := page i + 0xE0
abbrev TAGPC (i : Nat) : Nat := page i + 0xE4
abbrev TAGT1 (i : Nat) : Nat := page i + 0xE8
abbrev TAGT2 (i : Nat) : Nat := page i + 0xEC
abbrev TAGINFO (i : Nat) : Nat := page i + 0xF0
abbrev TAGLOST (i : Nat) : Nat := page i + 0xF4
abbrev BWCFG (i : Nat) : Nat := page i + 0x100
abbrev BWCNT (i : Nat) : Nat := page i + 0x104
abbrev BWLAST (i : Nat) : Nat := page i + 0x108
abbrev BWPEAK (i : Nat) : Nat := page i + 0x10C
abbrev BWWINS (i : Nat) : Nat := page i + 0x110
end PERF

namespace ARM0
abbrev page : Nat := devPage 0x100
abbrev STAGE (k : Nat) : Nat := page + 0x40 + 4 * k
abbrev CMD : Nat := page + 0x80
abbrev RESULT : Nat := page + 0x84
abbrev RINFO (k : Nat) : Nat := page + 0x88 + 4 * k
end ARM0

namespace ARM1
abbrev page : Nat := devPage 0x101
abbrev CFG : Nat := page + 0x40
abbrev STATUS : Nat := page + 0x44
abbrev RETIRE (k : Nat) : Nat := page + 0x48 + 4 * k
abbrev AVOID : Nat := page + 0x54
abbrev POOL (k : Nat) : Nat := page + 0x60 + 4 * k
abbrev ENGLOAD (k : Nat) : Nat := page + 0x100 + 4 * k
end ARM1

namespace ARM2
abbrev page : Nat := devPage 0x102
abbrev TQUOTA (k : Nat) : Nat := page + 0x40 + 4 * k
end ARM2

namespace ARM3
abbrev page : Nat := devPage 0x103
abbrev REP0 : Nat := page + 0x40
abbrev REP1 : Nat := page + 0x44
abbrev REP2 : Nat := page + 0x48
abbrev REP3 : Nat := page + 0x4C
abbrev REPLVL : Nat := page + 0x50
abbrev REPDROP : Nat := page + 0x54
abbrev TMEM (k : Nat) : Nat := page + 0x800 + 4 * k
end ARM3

namespace RASP
abbrev page : Nat := devPage 0x110
abbrev CTL : Nat := page + 0x40
abbrev SPERIOD : Nat := page + 0x44
abbrev DPERIOD : Nat := page + 0x48
abbrev SINTV : Nat := page + 0x4C
abbrev DINTV : Nat := page + 0x50
abbrev SPASS : Nat := page + 0x54
abbrev DPASS : Nat := page + 0x58
abbrev FILLSTAT : Nat := page + 0x5C
abbrev DFILL : Nat := page + 0x60
abbrev CLRBASE : Nat := page + 0x64
abbrev CLRLEN : Nat := page + 0x68
abbrev CLRCTL : Nat := page + 0x6C
end RASP

namespace DRAM
abbrev page : Nat := devPage 0x111
abbrev CFG : Nat := page + 0x40
abbrev STATUS : Nat := page + 0x44
abbrev USABLE : Nat := page + 0x48
end DRAM

namespace ECC
abbrev page : Nat := devPage 0x112
abbrev LOG0 : Nat := page + 0x40
abbrev LOG1 : Nat := page + 0x44
abbrev LOG2 : Nat := page + 0x48
abbrev LOGLVL : Nat := page + 0x4C
abbrev CECNT : Nat := page + 0x50
abbrev UECNT : Nat := page + 0x54
abbrev ADRCNT : Nat := page + 0x58
abbrev LOGDROP : Nat := page + 0x5C
abbrev FLIPADDR_LO : Nat := page + 0x60
abbrev FLIPADDR_HI : Nat := page + 0x64
abbrev FLIPD_LO : Nat := page + 0x68
abbrev FLIPD_HI : Nat := page + 0x6C
abbrev FLIPCTL : Nat := page + 0x70
end ECC

namespace MMU
abbrev page : Nat := devPage 0x118
abbrev INVCMD : Nat := page + 0x40
abbrev INVVA : Nat := page + 0x44
abbrev INVSTAT : Nat := page + 0x48
abbrev ROOT (k : Nat) : Nat := page + 0x400 + 4 * k
end MMU

namespace TENANT
abbrev page : Nat := devPage 0x119
abbrev CHECK : Nat := page + 0x40
abbrev CHECKRES : Nat := page + 0x44
abbrev TCFG (k : Nat) : Nat := page + 0x400 + 4 * k
end TENANT

namespace FABRIC
abbrev page : Nat := devPage 0x120
abbrev SHARESUM : Nat := page + 0x40
abbrev SHARE (k : Nat) : Nat := page + 0x400 + 4 * k
end FABRIC

namespace MBOX
abbrev page (i : Nat) : Nat := devPage (0x140 + i)
abbrev DATA_LO (i k : Nat) : Nat := page i + 0x40 + 32 * k
abbrev DATA_HI (i k : Nat) : Nat := page i + 0x44 + 32 * k
abbrev CFG (i k : Nat) : Nat := page i + 0x48 + 32 * k
abbrev PCFG (i k : Nat) : Nat := page i + 0x4C + 32 * k
abbrev STAT (i k : Nat) : Nat := page i + 0x50 + 32 * k
abbrev DROP (i k : Nat) : Nat := page i + 0x54 + 32 * k
end MBOX

namespace DBELL
abbrev page (i : Nat) : Nat := devPage (0x148 + i)
abbrev RING (i k : Nat) : Nat := page i + 0x40 + 4 * k
abbrev DBCFG (i k : Nat) : Nat := page i + 0x440 + 4 * k
end DBELL

namespace LOCK
abbrev page : Nat := devPage 0x14C
abbrev LOCK (k : Nat) : Nat := page + 0x40 + 4 * k
abbrev LOCKCFG (k : Nat) : Nat := page + 0x140 + 4 * k
abbrev HELD_LO : Nat := page + 0x240
abbrev HELD_HI : Nat := page + 0x244
abbrev FORCE : Nat := page + 0x248
end LOCK

namespace LINE
abbrev page (i : Nat) : Nat := devPage (0x150 + i)
abbrev CFG (i : Nat) : Nat := page i + 0x40
abbrev ROLE (i : Nat) : Nat := page i + 0x44
abbrev TIMING (i : Nat) : Nat := page i + 0x48
abbrev CONT (i : Nat) : Nat := page i + 0x4C
abbrev LAT (i : Nat) : Nat := page i + 0x50
abbrev DELAY (i : Nat) : Nat := page i + 0x54
abbrev STATUS (i : Nat) : Nat := page i + 0x58
abbrev CRCERR (i : Nat) : Nat := page i + 0x5C
abbrev FMTERR (i : Nat) : Nat := page i + 0x60
abbrev STRANGER (i : Nat) : Nat := page i + 0x64
abbrev REPLAY (i : Nat) : Nat := page i + 0x68
abbrev RXDROP (i : Nat) : Nat := page i + 0x6C
abbrev CYCMISS (i : Nat) : Nat := page i + 0x70
abbrev SLOTMISS (i : Nat) : Nat := page i + 0x74
abbrev COLL (i : Nat) : Nat := page i + 0x78
abbrev FWDDROP (i : Nat) : Nat := page i + 0x7C
abbrev STRLAST (i : Nat) : Nat := page i + 0x80
abbrev TSCTL (i k : Nat) : Nat := page i + 0x100 + 16 * k
abbrev TSTIME (i k : Nat) : Nat := page i + 0x104 + 16 * k
abbrev TSDEST (i k : Nat) : Nat := page i + 0x108 + 16 * k
abbrev TSBUF (i k : Nat) : Nat := page i + 0x10C + 16 * k
abbrev RSCTL (i k : Nat) : Nat := page i + 0x200 + 16 * k
abbrev RSNOTE (i k : Nat) : Nat := page i + 0x204 + 16 * k
abbrev RSBUF (i k : Nat) : Nat := page i + 0x208 + 16 * k
abbrev RSSTAT (i k : Nat) : Nat := page i + 0x20C + 16 * k
abbrev MTCFG (i k : Nat) : Nat := page i + 0x400 + 16 * k
abbrev MTBASE (i k : Nat) : Nat := page i + 0x404 + 16 * k
abbrev MRCFG (i k : Nat) : Nat := page i + 0x480 + 16 * k
abbrev MRBASE (i k : Nat) : Nat := page i + 0x484 + 16 * k
abbrev LEAFMAP (i k : Nat) : Nat := page i + 0x600 + 4 * k
end LINE

namespace LINEKEY
abbrev page : Nat := devPage 0x154
abbrev DEVID : Nat := page + 0x40
abbrev KCMD : Nat := page + 0x44
abbrev KEYIN (k : Nat) : Nat := page + 0x48 + 4 * k
abbrev WATCH : Nat := page + 0x58
abbrev KCTL (k : Nat) : Nat := page + 0x80 + 4 * k
abbrev ANGRX (k : Nat) : Nat := page + 0x180 + 4 * k
abbrev ENROL (k : Nat) : Nat := page + 0x200 + 4 * k
abbrev SYSCFG : Nat := page + 0x400
abbrev SYSCTL : Nat := page + 0x404
abbrev SYSSTAT : Nat := page + 0x408
abbrev SYSROOT : Nat := page + 0x40C
abbrev KEYRES : Nat := page + 0x410
abbrev UNKNOWN : Nat := page + 0x414
abbrev BARRIER : Nat := page + 0x418
abbrev SNAPLAST : Nat := page + 0x41C
abbrev SNAPNS : Nat := page + 0x420
abbrev SNAPSEC : Nat := page + 0x424
abbrev SYSLATE : Nat := page + 0x428
abbrev FORMTIME : Nat := page + 0x42C
end LINEKEY

namespace PEDESTAL
abbrev page : Nat := devPage 0x158
abbrev CTRL : Nat := page + 0x40
abbrev STATUS : Nat := page + 0x44
abbrev PSREQ0 : Nat := page + 0x48
abbrev PSREQ1 : Nat := page + 0x4C
abbrev PSOUT0 : Nat := page + 0x50
abbrev PSOUT1 : Nat := page + 0x54
abbrev CKPT : Nat := page + 0x58
abbrev CKINT : Nat := page + 0x5C
abbrev CMPTO : Nat := page + 0x60
abbrev CKTO : Nat := page + 0x64
abbrev EXCFG : Nat := page + 0x68
abbrev RESYNC : Nat := page + 0x6C
abbrev OUTCNT : Nat := page + 0x70
abbrev LASTOUT : Nat := page + 0x74
abbrev LASTIC : Nat := page + 0x78
abbrev ICLO (k : Nat) : Nat := page + 0x80 + 8 * k
abbrev ICHI (k : Nat) : Nat := page + 0x84 + 8 * k
abbrev SCTL (k : Nat) : Nat := page + 0x100 + 16 * k
abbrev ENTRY (k : Nat) : Nat := page + 0x104 + 16 * k
abbrev ARG (k : Nat) : Nat := page + 0x108 + 16 * k
abbrev SP (k : Nat) : Nat := page + 0x10C + 16 * k
end PEDESTAL

namespace ETH
abbrev page (i : Nat) : Nat := devPage (0x160 + i)
abbrev CFG (i : Nat) : Nat := page i + 0x40
abbrev MACLO (i : Nat) : Nat := page i + 0x44
abbrev MACHI (i : Nat) : Nat := page i + 0x48
abbrev WINBASE (i : Nat) : Nat := page i + 0x4C
abbrev WINSIZE (i : Nat) : Nat := page i + 0x50
abbrev TXRING (i : Nat) : Nat := page i + 0x54
abbrev RXRING (i : Nat) : Nat := page i + 0x58
abbrev RXBUF (i : Nat) : Nat := page i + 0x5C
abbrev TXKICK (i : Nat) : Nat := page i + 0x60
abbrev TXHEAD (i : Nat) : Nat := page i + 0x64
abbrev RXHEAD (i : Nat) : Nat := page i + 0x68
abbrev NOTE (i : Nat) : Nat := page i + 0x6C
abbrev LAT (i : Nat) : Nat := page i + 0x70
abbrev STATUS (i : Nat) : Nat := page i + 0x74
abbrev RXDROP (i : Nat) : Nat := page i + 0x78
abbrev CRCERR (i : Nat) : Nat := page i + 0x7C
abbrev MDIO (i : Nat) : Nat := page i + 0x80
end ETH

namespace HSPI
abbrev page : Nat := devPage 0x162
abbrev CFG : Nat := page + 0x40
abbrev WINBASE : Nat := page + 0x44
abbrev WINSIZE : Nat := page + 0x48
abbrev HOSTIRQ : Nat := page + 0x4C
abbrev BOOTDATA : Nat := page + 0x50
abbrev BOOTLVL : Nat := page + 0x54
end HSPI

namespace QSPI
abbrev page : Nat := devPage 0x163
abbrev CFG : Nat := page + 0x40
abbrev XCTL : Nat := page + 0x44
abbrev XADDR : Nat := page + 0x48
abbrev XLEN : Nat := page + 0x4C
abbrev XMEM : Nat := page + 0x50
abbrev DATA (k : Nat) : Nat := page + 0x60 + 4 * k
end QSPI

namespace GPIO
abbrev page : Nat := devPage 0x164
abbrev DIR : Nat := page + 0x40
abbrev OUT : Nat := page + 0x44
abbrev SET : Nat := page + 0x48
abbrev CLR : Nat := page + 0x4C
abbrev IN : Nat := page + 0x50
abbrev EDGE : Nat := page + 0x54
abbrev INCFG (k : Nat) : Nat := page + 0x80 + 4 * k
abbrev ACT (k : Nat) : Nat := page + 0x100 + 4 * k
end GPIO

namespace DEBUG
abbrev page : Nat := devPage 0x168
abbrev CTRL : Nat := page + 0x40
abbrev STATUS : Nat := page + 0x44
abbrev SESSION : Nat := page + 0x48
abbrev CHAL (k : Nat) : Nat := page + 0x50 + 4 * k
abbrev REQ (k : Nat) : Nat := page + 0x80 + 4 * k
abbrev ECMD : Nat := page + 0xC0
abbrev ESTAT : Nat := page + 0xC4
abbrev RSEL : Nat := page + 0xC8
abbrev RDATA : Nat := page + 0xCC
abbrev BRKEN (k : Nat) : Nat := page + 0xD0 + 4 * k
end DEBUG

namespace FUSE
abbrev page : Nat := devPage 0x169
abbrev KEYHASH (k : Nat) : Nat := page + 0x40 + 4 * k
abbrev SVN : Nat := page + 0x60
abbrev CFG : Nat := page + 0x64
abbrev PGM : Nat := page + 0x68
end FUSE

namespace EVT
abbrev page : Nat := devPage 0x170
abbrev RAISE (k : Nat) : Nat := page + 0x40 + 4 * k
abbrev SWOWN (k : Nat) : Nat := page + 0x200 + 4 * k
end EVT

end Sys2Proof.Machine.Reg
end

