-- ==== Sys2Proof/Machine/RegMap.lean ====
section
/-! DEFINITION. The access class and reset value of every block register (R22), one row per register of the tables of spec/. -/

namespace Sys2Proof.Machine

/-- One register (or a row of equal registers at a stride): the bits of each access class of R22 and the reset value. `wr` holds the bits a software write stores (RW, SH, CNT). -/
structure RegRow where
  off : Nat
  stride : Nat
  count : Nat
  wr : BitVec 32
  w1c : BitVec 32
  w1s : BitVec 32
  rc : BitVec 32
  sh : BitVec 32
  cnt : BitVec 32
  reset : BitVec 32
deriving DecidableEq, Repr

def rowsCHAN : List RegRow := [
  ⟨0x40, 0, 1, 0x733#32, 0x0#32, 0x0#32, 0x0#32, 0x0#32, 0x0#32, 0x0#32⟩,  -- MODE
  ⟨0x44, 0, 1, 0x0#32, 0x0#32, 0x0#32, 0x0#32, 0x0#32, 0x0#32, 0x0#32⟩,  -- STATUS
  ⟨0x48, 0, 1, 0xFFFFF000#32, 0x0#32, 0x0#32, 0x0#32, 0x0#32, 0x0#32, 0xFFF#32⟩,  -- EVTEN
  ⟨0x4C, 0, 1, 0x0#32, 0x0#32, 0x0#32, 0x0#32, 0x0#32, 0x0#32, 0x0#32⟩,  -- PINS
  ⟨0x50, 0, 1, 0x0#32, 0x0#32, 0x0#32, 0xFFFF0000#32, 0x0#32, 0x0#32, 0x0#32⟩,  -- LAT
  ⟨0x54, 0, 1, 0xFFFF#32, 0x0#32, 0x0#32, 0x0#32, 0x0#32, 0x0#32, 0x0#32⟩,  -- LATLIM
  ⟨0x58, 0, 1, 0xFFFFFFFF#32, 0x0#32, 0x0#32, 0x0#32, 0x0#32, 0xFFFFFFFF#32, 0x0#32⟩  -- LATOVER
]

def rowsADC : List RegRow := [
  ⟨0x40, 0, 1, 0xFFF#32, 0x0#32, 0x0#32, 0x0#32, 0x0#32, 0x0#32, 0x7#32⟩,  -- CFG
  ⟨0x44, 0, 1, 0x1#32, 0x0#32, 0x0#32, 0x0#32, 0x0#32, 0x0#32, 0x0#32⟩,  -- REF
  ⟨0x48, 0, 1, 0x30F#32, 0x0#32, 0x0#32, 0x0#32, 0x0#32, 0x0#32, 0x0#32⟩,  -- STAMP
  ⟨0x4C, 0, 1, 0xFFFFFFFF#32, 0x0#32, 0x0#32, 0x0#32, 0x0#32, 0xFFFFFFFF#32, 0x0#32⟩  -- MAQDROP
]

def rowsSEQ : List RegRow := [
  ⟨0x40, 4, 4, 0x300001#32, 0x0#32, 0x0#32, 0x0#32, 0x0#32, 0x0#32, 0x0#32⟩,  -- SEQCTL
  ⟨0x50, 4, 4, 0x8FFF8FFF#32, 0x0#32, 0x0#32, 0x0#32, 0x0#32, 0x0#32, 0x0#32⟩,  -- TRIG
  ⟨0x60, 4, 4, 0xFFFFFFFF#32, 0x0#32, 0x0#32, 0x0#32, 0x0#32, 0xFFFFFFFF#32, 0x0#32⟩,  -- DROPCNT
  ⟨0x80, 4, 32, 0xBEFF00FF#32, 0x0#32, 0x0#32, 0x0#32, 0x0#32, 0x0#32, 0x80000000#32⟩  -- STEP
]

def rowsADCFIFO : List RegRow := [
  ⟨0x40, 0, 1, 0x0#32, 0x0#32, 0x0#32, 0x0#32, 0x0#32, 0x0#32, 0x0#32⟩,  -- ADATA_LO
  ⟨0x44, 0, 1, 0x0#32, 0x0#32, 0x0#32, 0x0#32, 0x0#32, 0x0#32, 0x0#32⟩,  -- ADATA_HI
  ⟨0x48, 0, 1, 0x0#32, 0x0#32, 0x0#32, 0x0#32, 0x0#32, 0x0#32, 0x0#32⟩,  -- BDATA_LO
  ⟨0x4C, 0, 1, 0x0#32, 0x0#32, 0x0#32, 0x0#32, 0x0#32, 0x0#32, 0x0#32⟩,  -- BDATA_HI
  ⟨0x50, 0, 1, 0x3F003F#32, 0x0#32, 0x0#32, 0x0#32, 0x0#32, 0x0#32, 0x0#32⟩,  -- LEVEL
  ⟨0x54, 0, 1, 0x0#32, 0x0#32, 0x0#32, 0x0#32, 0x0#32, 0x0#32, 0x0#32⟩  -- FLUSH
]

def rowsADCCAL : List RegRow := [
  ⟨0x40, 4, 10, 0xFFFFFFFF#32, 0x0#32, 0x0#32, 0x0#32, 0x0#32, 0x0#32, 0x40000000#32⟩,  -- COEF
  ⟨0x68, 0, 1, 0x1FFFF#32, 0x0#32, 0x0#32, 0x0#32, 0x0#32, 0x0#32, 0x0#32⟩,  -- SKEW
  ⟨0x6C, 0, 1, 0x307#32, 0x0#32, 0x0#32, 0x0#32, 0x0#32, 0x0#32, 0x0#32⟩,  -- CALCTL
  ⟨0x70, 0, 1, 0xFFFFFFFF#32, 0x0#32, 0x0#32, 0x0#32, 0x0#32, 0x0#32, 0x40000000#32⟩,  -- CALTGT
  ⟨0x74, 0, 1, 0xF3#32, 0x0#32, 0x0#32, 0x0#32, 0x0#32, 0x0#32, 0x80#32⟩,  -- DRIFTCTL
  ⟨0x78, 0, 1, 0x0#32, 0x0#32, 0x0#32, 0x0#32, 0x0#32, 0x0#32, 0x0#32⟩,  -- DRIFTA
  ⟨0x7C, 0, 1, 0x0#32, 0x0#32, 0x0#32, 0x0#32, 0x0#32, 0x0#32, 0x0#32⟩,  -- DRIFTB
  ⟨0x80, 0, 1, 0xFFFFFFFF#32, 0x0#32, 0x0#32, 0x0#32, 0x0#32, 0x0#32, 0x0#32⟩,  -- DRIFTLIM
  ⟨0x84, 0, 1, 0x0#32, 0x0#32, 0x0#32, 0x0#32, 0x0#32, 0x0#32, 0x0#32⟩,  -- DRIFTAGE
  ⟨0x88, 0, 1, 0xFFFFFFFF#32, 0x0#32, 0x0#32, 0x0#32, 0x0#32, 0x0#32, 0xC0004000#32⟩,  -- REFA
  ⟨0x8C, 0, 1, 0xFFFFFFFF#32, 0x0#32, 0x0#32, 0x0#32, 0x0#32, 0x0#32, 0xC0004000#32⟩  -- REFB
]

def rowsCMP : List RegRow := [
  ⟨0x40, 4, 5, 0x8F8F31#32, 0x0#32, 0x0#32, 0x0#32, 0x0#32, 0x0#32, 0x10#32⟩,  -- CFG
  ⟨0x54, 4, 5, 0x3FF03FF#32, 0x0#32, 0x0#32, 0x0#32, 0x0#32, 0x0#32, 0x3FF0000#32⟩,  -- THR
  ⟨0x68, 4, 3, 0x3FFFFFF#32, 0x0#32, 0x0#32, 0x0#32, 0x0#32, 0x0#32, 0x3FF0000#32⟩,  -- RAMP
  ⟨0x74, 0, 1, 0x0#32, 0x0#32, 0x0#32, 0x0#32, 0x0#32, 0x0#32, 0x0#32⟩,  -- RAW
  ⟨0x78, 0, 1, 0x0#32, 0x0#32, 0x0#32, 0x0#32, 0x0#32, 0x0#32, 0x0#32⟩,  -- STATUS
  ⟨0x80, 4, 5, 0xFFFFFFFF#32, 0x0#32, 0x0#32, 0x0#32, 0x0#32, 0xFFFFFFFF#32, 0x0#32⟩  -- CROSS
]

def rowsPOS : List RegRow := [
  ⟨0x40, 0, 1, 0x3F7FFFFB#32, 0x0#32, 0x0#32, 0x0#32, 0x0#32, 0x0#32, 0x4000#32⟩,  -- CFG
  ⟨0x44, 0, 1, 0xFFFFFFFF#32, 0x0#32, 0x0#32, 0x0#32, 0x0#32, 0x0#32, 0x40000000#32⟩,  -- CORR
  ⟨0x48, 0, 1, 0xFFFFFFFF#32, 0x0#32, 0x0#32, 0x0#32, 0x0#32, 0x0#32, 0xFFFF0000#32⟩,  -- AMPWIN
  ⟨0x4C, 0, 1, 0xFFFFFFFF#32, 0x0#32, 0x0#32, 0x0#32, 0x0#32, 0x0#32, 0x0#32⟩,  -- WRAP
  ⟨0x50, 0, 1, 0xFFFFFFFF#32, 0x0#32, 0x0#32, 0x0#32, 0x0#32, 0x0#32, 0x0#32⟩,  -- MCOUNT
  ⟨0x54, 0, 1, 0x0#32, 0x0#32, 0x0#32, 0x0#32, 0x0#32, 0x0#32, 0x0#32⟩,  -- POSITION
  ⟨0x58, 0, 1, 0x0#32, 0x0#32, 0x0#32, 0x0#32, 0x0#32, 0x0#32, 0x0#32⟩,  -- REV
  ⟨0x5C, 0, 1, 0x0#32, 0x0#32, 0x0#32, 0x0#32, 0x0#32, 0x0#32, 0x0#32⟩,  -- MOTANG
  ⟨0x60, 0, 1, 0x0#32, 0x0#32, 0x0#32, 0x0#32, 0x0#32, 0x0#32, 0x0#32⟩,  -- SPEED
  ⟨0x64, 0, 1, 0x0#32, 0x0#32, 0x0#32, 0x0#32, 0x0#32, 0x0#32, 0x0#32⟩,  -- SAMPLE
  ⟨0x68, 0, 1, 0x0#32, 0x0#32, 0x0#32, 0x0#32, 0x0#32, 0x0#32, 0x0#32⟩,  -- AMPNOW
  ⟨0x6C, 0, 1, 0x0#32, 0x0#32, 0x0#32, 0x0#32, 0x0#32, 0x0#32, 0x0#32⟩,  -- QCOUNT
  ⟨0x70, 0, 1, 0xFFFFFFFF#32, 0x0#32, 0x0#32, 0x0#32, 0x0#32, 0x0#32, 0x0#32⟩,  -- CMPVAL
  ⟨0x74, 0, 1, 0xFFFFFFFF#32, 0x0#32, 0x0#32, 0x0#32, 0x0#32, 0x0#32, 0x0#32⟩,  -- CMPSTEP
  ⟨0x78, 0, 1, 0xFFFF0001#32, 0x0#32, 0x0#32, 0x0#32, 0x0#32, 0xFFFF0000#32, 0x0#32⟩,  -- CMPCTL
  ⟨0x7C, 0, 1, 0x0#32, 0x0#32, 0x0#32, 0x0#32, 0x0#32, 0x0#32, 0x0#32⟩,  -- ZLATCH
  ⟨0x80, 0, 1, 0x7#32, 0x0#32, 0x0#32, 0x0#32, 0x0#32, 0x0#32, 0x0#32⟩,  -- ZCTL
  ⟨0x84, 0, 1, 0xFFFFFFFF#32, 0x0#32, 0x0#32, 0x0#32, 0x0#32, 0x0#32, 0x0#32⟩,  -- ZSET
  ⟨0x88, 0, 1, 0xFFFFFFFF#32, 0x0#32, 0x0#32, 0x0#32, 0x0#32, 0x0#32, 0x0#32⟩,  -- MOTSET
  ⟨0x8C, 0, 1, 0xFFFFFFFF#32, 0x0#32, 0x0#32, 0x0#32, 0x0#32, 0x0#32, 0x0#32⟩,  -- POSSET
  ⟨0x90, 0, 1, 0xFFFF0000#32, 0x0#32, 0x0#32, 0x0#32, 0x0#32, 0x0#32, 0x0#32⟩  -- LOADCTL
]

def rowsSSI : List RegRow := [
  ⟨0x40, 0, 1, 0x3FF0FFF#32, 0x0#32, 0x0#32, 0x0#32, 0x0#32, 0x0#32, 0x32#32⟩,  -- CLK
  ⟨0x44, 0, 1, 0xFFFF7F8F#32, 0x0#32, 0x0#32, 0x0#32, 0x0#32, 0x0#32, 0x13141980#32⟩,  -- FRAME
  ⟨0x48, 0, 1, 0xFFFFFF3F#32, 0x0#32, 0x0#32, 0x0#32, 0x0#32, 0x0#32, 0x0#32⟩,  -- CRC
  ⟨0x4C, 0, 1, 0xFFFF#32, 0x0#32, 0x0#32, 0x0#32, 0x0#32, 0x0#32, 0x0#32⟩,  -- CRCINIT
  ⟨0x50, 0, 1, 0xF1F3F3F#32, 0x0#32, 0x0#32, 0x0#32, 0x0#32, 0x0#32, 0x1900#32⟩,  -- FIELD
  ⟨0x54, 0, 1, 0xFF#32, 0x0#32, 0x0#32, 0x0#32, 0x0#32, 0x0#32, 0x0#32⟩,  -- CMD
  ⟨0x58, 0, 1, 0x8FFF#32, 0x0#32, 0x0#32, 0x0#32, 0x0#32, 0x0#32, 0x0#32⟩,  -- TRIG
  ⟨0x5C, 0, 1, 0x0#32, 0x0#32, 0x0#32, 0x0#32, 0x0#32, 0x0#32, 0x0#32⟩,  -- WORD_LO
  ⟨0x60, 0, 1, 0x0#32, 0x0#32, 0x0#32, 0x0#32, 0x0#32, 0x0#32, 0x0#32⟩,  -- WORD_HI
  ⟨0x64, 0, 1, 0x0#32, 0x0#32, 0x0#32, 0x0#32, 0x0#32, 0x0#32, 0x0#32⟩,  -- RESULT
  ⟨0x68, 0, 1, 0x0#32, 0x0#32, 0x0#32, 0x0#32, 0x0#32, 0x0#32, 0x0#32⟩,  -- ABS
  ⟨0x6C, 0, 1, 0x0#32, 0x0#32, 0x0#32, 0x0#32, 0x0#32, 0x0#32, 0x0#32⟩,  -- MT
  ⟨0x70, 0, 1, 0xFFFFFFFF#32, 0x0#32, 0x0#32, 0x0#32, 0x0#32, 0xFFFFFFFF#32, 0x0#32⟩,  -- CRCCNT
  ⟨0x74, 0, 1, 0xFFFFFFFF#32, 0x0#32, 0x0#32, 0x0#32, 0x0#32, 0xFFFFFFFF#32, 0x0#32⟩,  -- TOUTCNT
  ⟨0x78, 0, 1, 0xFFFFFFFF#32, 0x0#32, 0x0#32, 0x0#32, 0x0#32, 0xFFFFFFFF#32, 0x0#32⟩  -- DROP
]

def rowsPWM : List RegRow := [
  ⟨0x40, 0, 1, 0x3F11FFF#32, 0x0#32, 0x0#32, 0x0#32, 0x0#32, 0x0#32, 0x0#32⟩,  -- CFG
  ⟨0x44, 0, 1, 0xFFFFF#32, 0x0#32, 0x0#32, 0x0#32, 0xFFFFF#32, 0x0#32, 0x186A0#32⟩,  -- PERIOD
  ⟨0x48, 0, 1, 0x0#32, 0x0#32, 0x0#32, 0x0#32, 0x0#32, 0x0#32, 0x186A0#32⟩,  -- PERLIVE
  ⟨0x4C, 0, 1, 0x0#32, 0x0#32, 0x0#32, 0x0#32, 0x0#32, 0x0#32, 0x0#32⟩,  -- COUNT
  ⟨0x50, 4, 3, 0x7FFFFF#32, 0x0#32, 0x0#32, 0x0#32, 0x7FFFFF#32, 0x0#32, 0x7FFFF8#32⟩,  -- CMP
  ⟨0x5C, 4, 3, 0x0#32, 0x0#32, 0x0#32, 0x0#32, 0x0#32, 0x0#32, 0x7FFFF8#32⟩,  -- CMPLIVE
  ⟨0x68, 4, 2, 0xC00FFFFF#32, 0x0#32, 0x0#32, 0x0#32, 0xC00FFFFF#32, 0x0#32, 0x0#32⟩,  -- TRGPT
  ⟨0x70, 4, 3, 0xFFF0FFF#32, 0x0#32, 0x0#32, 0x0#32, 0x0#32, 0x0#32, 0x3200320#32⟩,  -- DT
  ⟨0x7C, 4, 3, 0x7FF0007#32, 0x0#32, 0x0#32, 0x0#32, 0x0#32, 0x0#32, 0x0#32⟩,  -- LEGCFG
  ⟨0x88, 4, 3, 0xFFFFF#32, 0x0#32, 0x0#32, 0x0#32, 0x0#32, 0x0#32, 0x0#32⟩,  -- VA
  ⟨0x94, 4, 3, 0xFFFFF#32, 0x0#32, 0x0#32, 0x0#32, 0x0#32, 0x0#32, 0x10#32⟩,  -- VB
  ⟨0xA0, 0, 1, 0x0#32, 0x0#32, 0x0#32, 0x0#32, 0x0#32, 0x0#32, 0x0#32⟩  -- OUT
]

def rowsTRIP : List RegRow := [
  ⟨0x40, 0, 1, 0xFFFF0F#32, 0x0#32, 0x0#32, 0x0#32, 0x0#32, 0x0#32, 0x0#32⟩,  -- CFG
  ⟨0x44, 0, 1, 0x0#32, 0x0#32, 0x0#32, 0x0#32, 0x0#32, 0x0#32, 0x0#32⟩,  -- SRC
  ⟨0x48, 0, 1, 0x1FFF#32, 0x0#32, 0x0#32, 0x0#32, 0x0#32, 0x0#32, 0x0#32⟩,  -- BLANKEN
  ⟨0x4C, 0, 1, 0x0#32, 0x1FFF#32, 0x0#32, 0x0#32, 0x0#32, 0x0#32, 0x0#32⟩,  -- LATCH
  ⟨0x50, 0, 1, 0x0#32, 0x0#32, 0x0#32, 0x0#32, 0x0#32, 0x0#32, 0x0#32⟩,  -- FIRST
  ⟨0x54, 0, 1, 0x0#32, 0x0#32, 0x0#32, 0x0#32, 0x0#32, 0x0#32, 0x0#32⟩,  -- FIRSTCNT
  ⟨0x58, 0, 1, 0x0#32, 0x0#32, 0x0#32, 0x0#32, 0x0#32, 0x0#32, 0x0#32⟩,  -- CTRL
  ⟨0x5C, 0, 1, 0xFFFFFFFF#32, 0x0#32, 0x0#32, 0x0#32, 0x0#32, 0xFFFFFFFF#32, 0x0#32⟩  -- TRIPCNT
]

def rowsCHISEL : List RegRow := [
  ⟨0x40, 0, 1, 0x3F0FE000#32, 0x0#32, 0x0#32, 0x0#32, 0x0#32, 0x0#32, 0x1008000#32⟩,  -- CFG
  ⟨0x44, 0, 1, 0x1#32, 0x0#32, 0x0#32, 0x0#32, 0x0#32, 0x0#32, 0x0#32⟩,  -- CTRL
  ⟨0x48, 0, 1, 0x0#32, 0x0#32, 0x0#32, 0x0#32, 0x0#32, 0x0#32, 0x0#32⟩,  -- STATUS
  ⟨0x4C, 0, 1, 0xFFFFFFFF#32, 0x0#32, 0x0#32, 0x0#32, 0xFFFFFFFF#32, 0x0#32, 0x0#32⟩,  -- REF
  ⟨0x50, 0, 1, 0xFFFFFFFF#32, 0x0#32, 0x0#32, 0x0#32, 0xFFFFFFFF#32, 0x0#32, 0x0#32⟩,  -- FF
  ⟨0x54, 0, 1, 0xFFFFFFFF#32, 0x0#32, 0x0#32, 0x0#32, 0x0#32, 0x0#32, 0x0#32⟩,  -- VAPP
  ⟨0x58, 0, 1, 0xFFFFFF#32, 0x0#32, 0x0#32, 0x0#32, 0x0#32, 0x0#32, 0x0#32⟩,  -- KPD
  ⟨0x5C, 0, 1, 0xFFFFFF#32, 0x0#32, 0x0#32, 0x0#32, 0x0#32, 0x0#32, 0x0#32⟩,  -- KID
  ⟨0x60, 0, 1, 0xFFFFFF#32, 0x0#32, 0x0#32, 0x0#32, 0x0#32, 0x0#32, 0x0#32⟩,  -- KPQ
  ⟨0x64, 0, 1, 0xFFFFFF#32, 0x0#32, 0x0#32, 0x0#32, 0x0#32, 0x0#32, 0x0#32⟩,  -- KIQ
  ⟨0x68, 0, 1, 0xFFFF#32, 0x0#32, 0x0#32, 0x0#32, 0x0#32, 0x0#32, 0x7FFF#32⟩,  -- ILIM
  ⟨0x6C, 0, 1, 0xFFFF#32, 0x0#32, 0x0#32, 0x0#32, 0x0#32, 0x0#32, 0x49E7#32⟩,  -- VLIM
  ⟨0x70, 0, 1, 0xFFFFFFFF#32, 0x0#32, 0x0#32, 0x0#32, 0x0#32, 0x0#32, 0x4000000#32⟩,  -- UDC
  ⟨0x74, 0, 1, 0xFFFFFFFF#32, 0x0#32, 0x0#32, 0x0#32, 0x0#32, 0x0#32, 0x0#32⟩,  -- ANG
  ⟨0x78, 0, 1, 0xFFFFFFFF#32, 0x0#32, 0x0#32, 0x0#32, 0x0#32, 0x0#32, 0x0#32⟩,  -- SPDSCL
  ⟨0x7C, 0, 1, 0xFFFF#32, 0x0#32, 0x0#32, 0x0#32, 0x0#32, 0x0#32, 0x0#32⟩,  -- VADV
  ⟨0x80, 0, 1, 0xFFFFFFFF#32, 0x0#32, 0x0#32, 0x0#32, 0x0#32, 0x0#32, 0x0#32⟩,  -- DTC
  ⟨0x84, 0, 1, 0xFFFFFFFF#32, 0x0#32, 0x0#32, 0x0#32, 0x0#32, 0x0#32, 0x80000000#32⟩,  -- DLIM
  ⟨0x88, 0, 1, 0xFFFFFF#32, 0x0#32, 0x0#32, 0x0#32, 0x0#32, 0x0#32, 0x0#32⟩,  -- INTD
  ⟨0x8C, 0, 1, 0xFFFFFF#32, 0x0#32, 0x0#32, 0x0#32, 0x0#32, 0x0#32, 0x0#32⟩,  -- INTQ
  ⟨0x90, 0, 1, 0x0#32, 0x0#32, 0x0#32, 0x0#32, 0x0#32, 0x0#32, 0x0#32⟩,  -- IDQ
  ⟨0x94, 0, 1, 0x0#32, 0x0#32, 0x0#32, 0x0#32, 0x0#32, 0x0#32, 0x0#32⟩,  -- VDQ
  ⟨0x98, 0, 1, 0x0#32, 0x0#32, 0x0#32, 0x0#32, 0x0#32, 0x0#32, 0x0#32⟩,  -- THETA
  ⟨0x9C, 0, 1, 0xFFFFFFFF#32, 0x0#32, 0x0#32, 0x0#32, 0x0#32, 0xFFFFFFFF#32, 0x0#32⟩,  -- LIMCNT
  ⟨0xA0, 0, 1, 0xFFFFFFFF#32, 0x0#32, 0x0#32, 0x0#32, 0x0#32, 0xFFFFFFFF#32, 0x0#32⟩  -- SKIPCNT
]

def rowsWEAR : List RegRow := [
  ⟨0x40, 0, 1, 0x11F07#32, 0x0#32, 0x0#32, 0x0#32, 0x0#32, 0x0#32, 0x907#32⟩,  -- CFG
  ⟨0x44, 0, 1, 0xFFFFFFFF#32, 0x0#32, 0x0#32, 0x0#32, 0x0#32, 0x0#32, 0x40000000#32⟩,  -- KLOSS
  ⟨0x48, 0, 1, 0xFFFF#32, 0x0#32, 0x0#32, 0x0#32, 0x0#32, 0x0#32, 0x100#32⟩,  -- HYST
  ⟨0x4C, 4, 3, 0x0#32, 0x0#32, 0x0#32, 0x0#32, 0x0#32, 0x0#32, 0x0#32⟩,  -- TEMP
  ⟨0x58, 4, 8, 0xFFFF#32, 0x0#32, 0x0#32, 0x0#32, 0x0#32, 0x0#32, 0x0#32⟩,  -- WEIGHT
  ⟨0x78, 4, 3, 0xFFFFFFFF#32, 0x0#32, 0x0#32, 0x0#32, 0x0#32, 0xFFFFFFFF#32, 0x0#32⟩,  -- DAMAGE
  ⟨0x84, 4, 24, 0xFFFFFFFF#32, 0x0#32, 0x0#32, 0x0#32, 0x0#32, 0xFFFFFFFF#32, 0x0#32⟩  -- HC
]

def rowsDEVICE : List RegRow := [
  ⟨0x40, 0, 1, 0x0#32, 0x0#32, 0x0#32, 0x0#32, 0x0#32, 0x0#32, 0xC480200#32⟩,  -- IDENT
  ⟨0x44, 0, 1, 0x0#32, 0x1F0000#32, 0x0#32, 0x0#32, 0x0#32, 0x0#32, 0x0#32⟩,  -- DWSTAT
  ⟨0x48, 0, 1, 0x0#32, 0x0#32, 0x0#32, 0x0#32, 0x0#32, 0x0#32, 0x0#32⟩,  -- DWREC0
  ⟨0x4C, 0, 1, 0x0#32, 0x0#32, 0x0#32, 0x0#32, 0x0#32, 0x0#32, 0x0#32⟩,  -- DWREC1
  ⟨0x50, 0, 1, 0x0#32, 0x0#32, 0x0#32, 0x0#32, 0x0#32, 0x0#32, 0x0#32⟩,  -- DWREC2
  ⟨0x54, 0, 1, 0x0#32, 0x0#32, 0x0#32, 0x0#32, 0x0#32, 0x0#32, 0x0#32⟩,  -- DWREC3
  ⟨0x58, 0, 1, 0x0#32, 0x0#32, 0x0#32, 0x0#32, 0x0#32, 0x0#32, 0x0#32⟩  -- DWEND
]

def rowsPWR : List RegRow := [
  ⟨0x40, 0, 1, 0x3#32, 0x0#32, 0x0#32, 0x0#32, 0x0#32, 0x0#32, 0x0#32⟩,  -- CMD
  ⟨0x44, 0, 1, 0x0#32, 0x0#32, 0x0#32, 0x0#32, 0x0#32, 0x0#32, 0x0#32⟩,  -- STATUS
  ⟨0x48, 0, 1, 0xE00F000F#32, 0x0#32, 0x0#32, 0x0#32, 0x0#32, 0x0#32, 0x0#32⟩,  -- WAKEEN
  ⟨0x4C, 0, 1, 0xFFFFFFFF#32, 0x0#32, 0x0#32, 0x0#32, 0x0#32, 0x0#32, 0x0#32⟩,  -- WAKECMP
  ⟨0x50, 0, 1, 0x0#32, 0x0#32, 0x0#32, 0x0#32, 0x0#32, 0x0#32, 0x0#32⟩,  -- AONTICK
  ⟨0x54, 0, 1, 0x0#32, 0x80000000#32, 0x0#32, 0x0#32, 0x0#32, 0x0#32, 0x0#32⟩,  -- WAKEREC0
  ⟨0x58, 0, 1, 0x0#32, 0x0#32, 0x0#32, 0x0#32, 0x0#32, 0x0#32, 0x0#32⟩,  -- WAKEREC1
  ⟨0x5C, 0, 1, 0x0#32, 0x0#32, 0x0#32, 0x0#32, 0x0#32, 0x0#32, 0x0#32⟩,  -- WAKEMASK_LO
  ⟨0x60, 0, 1, 0x0#32, 0x0#32, 0x0#32, 0x0#32, 0x0#32, 0x0#32, 0x0#32⟩,  -- WAKEMASK_HI
  ⟨0x80, 4, 8, 0xFFFFFFFF#32, 0x0#32, 0x0#32, 0x0#32, 0x0#32, 0x0#32, 0x0#32⟩  -- AONSCR
]

def rowsCLK : List RegRow := [
  ⟨0x40, 0, 1, 0x0#32, 0x0#32, 0x0#32, 0x0#32, 0x0#32, 0x0#32, 0x0#32⟩,  -- STATUS
  ⟨0x44, 0, 1, 0xFFFFFFFF#32, 0x0#32, 0x0#32, 0x0#32, 0x0#32, 0xFFFFFFFF#32, 0x0#32⟩  -- LOSSCNT
]

def rowsRST : List RegRow := [
  ⟨0x40, 0, 1, 0x0#32, 0x0#32, 0x0#32, 0x0#32, 0x0#32, 0x0#32, 0x0#32⟩,  -- CTL
  ⟨0x44, 0, 1, 0x0#32, 0xFF#32, 0x0#32, 0x0#32, 0x0#32, 0x0#32, 0x1#32⟩,  -- CAUSE
  ⟨0x48, 0, 1, 0x0#32, 0x0#32, 0x0#32, 0x0#32, 0x0#32, 0x0#32, 0x1#32⟩,  -- LAST
  ⟨0x4C, 0, 1, 0xFFFFFFFF#32, 0x0#32, 0x0#32, 0x0#32, 0x0#32, 0xFFFFFFFF#32, 0x0#32⟩  -- COUNT
]

def rowsBOOT : List RegRow := [
  ⟨0x40, 0, 1, 0xFC0000FF#32, 0x0#32, 0x0#32, 0x0#32, 0x0#32, 0x0#32, 0x0#32⟩,  -- STATUS
  ⟨0x44, 0, 1, 0xFFFFFFFF#32, 0x0#32, 0x0#32, 0x0#32, 0x0#32, 0x0#32, 0x0#32⟩,  -- IMGSVN
  ⟨0x48, 0, 1, 0xFFFFFFFF#32, 0x0#32, 0x0#32, 0x0#32, 0x0#32, 0x0#32, 0x0#32⟩  -- IMGLEN
]

def rowsTHERM : List RegRow := [
  ⟨0x40, 4, 13, 0x0#32, 0x0#32, 0x0#32, 0x0#32, 0x0#32, 0x0#32, 0x0#32⟩,  -- TEMP
  ⟨0x80, 0, 1, 0xFF#32, 0x0#32, 0x0#32, 0x0#32, 0x0#32, 0x0#32, 0x78#32⟩,  -- TLIM
  ⟨0x84, 0, 1, 0x0#32, 0x0#32, 0x0#32, 0x0#32, 0x0#32, 0x0#32, 0x0#32⟩,  -- THROT
  ⟨0x88, 0, 1, 0x0#32, 0x0#32, 0x0#32, 0xFFFF#32, 0x0#32, 0x0#32, 0x0#32⟩  -- TMAX
]

def rowsCALIPER0 : List RegRow := [
  ⟨0x40, 0, 1, 0x0#32, 0x0#32, 0x0#32, 0x0#32, 0x0#32, 0x0#32, 0x0#32⟩,  -- TIME_NS
  ⟨0x44, 0, 1, 0x0#32, 0x0#32, 0x0#32, 0x0#32, 0x0#32, 0x0#32, 0x0#32⟩,  -- TIME_SEC_LO
  ⟨0x48, 0, 1, 0x0#32, 0x0#32, 0x0#32, 0x0#32, 0x0#32, 0x0#32, 0x0#32⟩,  -- TIME_SEC_HI
  ⟨0x4C, 0, 1, 0x3FFFFFFF#32, 0x0#32, 0x0#32, 0x0#32, 0x0#32, 0x0#32, 0x0#32⟩,  -- SET_NS
  ⟨0x50, 0, 1, 0xFFFFFFFF#32, 0x0#32, 0x0#32, 0x0#32, 0x0#32, 0x0#32, 0x0#32⟩,  -- SET_SEC_LO
  ⟨0x54, 0, 1, 0xFFFF#32, 0x0#32, 0x0#32, 0x0#32, 0x0#32, 0x0#32, 0x0#32⟩,  -- SET_SEC_HI
  ⟨0x58, 0, 1, 0x0#32, 0x0#32, 0x0#32, 0x0#32, 0x0#32, 0x0#32, 0x0#32⟩,  -- SETCTL
  ⟨0x5C, 0, 1, 0xFFFF0003#32, 0x0#32, 0x0#32, 0x0#32, 0x0#32, 0x0#32, 0x7D00000#32⟩,  -- DISC
  ⟨0x60, 0, 1, 0xFFFFFFFF#32, 0x0#32, 0x0#32, 0x0#32, 0x0#32, 0x0#32, 0x0#32⟩,  -- FREQ
  ⟨0x64, 0, 1, 0xFFFFFFFF#32, 0x0#32, 0x0#32, 0x0#32, 0x0#32, 0x0#32, 0xABCC0000#32⟩,  -- GI
  ⟨0x68, 0, 1, 0xFFFFFFFF#32, 0x0#32, 0x0#32, 0x0#32, 0x0#32, 0x0#32, 0x61A8#32⟩,  -- SLEWN
  ⟨0x6C, 0, 1, 0xFFFFFFFF#32, 0x0#32, 0x0#32, 0x0#32, 0x0#32, 0x0#32, 0xF4240#32⟩,  -- STEPLIM
  ⟨0x70, 0, 1, 0xFFFFFFFF#32, 0x0#32, 0x0#32, 0x0#32, 0x0#32, 0x0#32, 0x0#32⟩,  -- OFSIN
  ⟨0x74, 0, 1, 0x0#32, 0x0#32, 0x0#32, 0x0#32, 0x0#32, 0x0#32, 0x0#32⟩,  -- OFFSET
  ⟨0x78, 0, 1, 0x0#32, 0x0#32, 0x0#32, 0x0#32, 0x0#32, 0x0#32, 0x0#32⟩  -- DSTAT
]

def rowsCALIPER1 : List RegRow := [
  ⟨0x40, 32, 16, 0xF0F07#32, 0x0#32, 0x0#32, 0x0#32, 0xF0F07#32, 0x0#32, 0xA0000#32⟩,  -- LCFG
  ⟨0x44, 32, 16, 0xFFFFFFFF#32, 0x0#32, 0x0#32, 0x0#32, 0xFFFFFFFF#32, 0x0#32, 0x1000000#32⟩,  -- RATIO
  ⟨0x48, 32, 16, 0xFFFFFFFF#32, 0x0#32, 0x0#32, 0x0#32, 0xFFFFFFFF#32, 0x0#32, 0x0#32⟩,  -- WRAP
  ⟨0x4C, 32, 16, 0xFFFFFFFF#32, 0x0#32, 0x0#32, 0x0#32, 0xFFFFFFFF#32, 0x0#32, 0x0#32⟩,  -- RATESET
  ⟨0x50, 32, 16, 0x0#32, 0x0#32, 0x0#32, 0x0#32, 0x0#32, 0x0#32, 0x0#32⟩,  -- ANGLE
  ⟨0x54, 32, 16, 0x0#32, 0x0#32, 0x0#32, 0x0#32, 0x0#32, 0x0#32, 0x0#32⟩,  -- RATE
  ⟨0x58, 32, 16, 0x0#32, 0x0#32, 0x0#32, 0x0#32, 0x0#32, 0x0#32, 0x0#32⟩,  -- LERR
  ⟨0x5C, 32, 16, 0x0#32, 0x0#32, 0x0#32, 0x0#32, 0x0#32, 0x0#32, 0x0#32⟩,  -- LSTAT
  ⟨0x240, 0, 1, 0xFFFFFFFF#32, 0x0#32, 0x0#32, 0x0#32, 0x0#32, 0x0#32, 0x10000#32⟩  -- LJUMP
]

def rowsCALIPER2 : List RegRow := [
  ⟨0x40, 4, 128, 0x800001FF#32, 0x0#32, 0x0#32, 0x0#32, 0x0#32, 0x0#32, 0x0#32⟩,  -- TABOWN
  ⟨0x240, 4, 48, 0x800001FF#32, 0x0#32, 0x0#32, 0x0#32, 0x0#32, 0x0#32, 0x0#32⟩  -- GRANT
]

def rowsCALIPER3 : List RegRow := [
  ⟨0x40, 4, 192, 0xFFFFFFFF#32, 0x0#32, 0x0#32, 0x0#32, 0x0#32, 0x0#32, 0x0#32⟩  -- REFVAL
]

def rowsCALTAB : List RegRow := [
  ⟨0x40, 12, 256, 0xE07F3FFF#32, 0x18000000#32, 0x0#32, 0x0#32, 0x0#32, 0x0#32, 0x0#32⟩,  -- CTL
  ⟨0x44, 12, 256, 0xFFFFFFFF#32, 0x0#32, 0x0#32, 0x0#32, 0x0#32, 0x0#32, 0x0#32⟩,  -- TARGET
  ⟨0x48, 12, 256, 0xFFFFFFFF#32, 0x0#32, 0x0#32, 0x0#32, 0x0#32, 0x0#32, 0x0#32⟩  -- STEP
]

def rowsMAQ : List RegRow := [
  ⟨0x40, 0, 1, 0x0#32, 0x0#32, 0x0#32, 0x0#32, 0x0#32, 0x0#32, 0x0#32⟩,  -- STATUS
  ⟨0x44, 0, 1, 0x0#32, 0x0#32, 0x0#32, 0x0#32, 0x0#32, 0x0#32, 0x0#32⟩,  -- LOAD
  ⟨0x48, 0, 1, 0xFFFFFFFF#32, 0x0#32, 0x0#32, 0x0#32, 0x0#32, 0xFFFFFFFF#32, 0x0#32⟩,  -- INDROP
  ⟨0x50, 4, 4, 0x8000001F#32, 0x0#32, 0x0#32, 0x0#32, 0x0#32, 0x0#32, 0x0#32⟩,  -- FEED
  ⟨0x100, 32, 32, 0x7FFC0#32, 0x0#32, 0x0#32, 0x0#32, 0x0#32, 0x0#32, 0x0#32⟩,  -- JBASE
  ⟨0x104, 32, 32, 0x80000000#32, 0x0#32, 0x0#32, 0x0#32, 0x0#32, 0x0#32, 0x0#32⟩,  -- JCTL
  ⟨0x108, 32, 32, 0x0#32, 0x0#32, 0x0#32, 0x0#32, 0x0#32, 0x0#32, 0x0#32⟩,  -- JREC
  ⟨0x10C, 32, 32, 0x0#32, 0x0#32, 0x0#32, 0x0#32, 0x0#32, 0x0#32, 0x0#32⟩,  -- FRWR
  ⟨0x110, 32, 32, 0xFFFFFFFF#32, 0x0#32, 0x0#32, 0x0#32, 0x0#32, 0x0#32, 0x0#32⟩,  -- FRRD
  ⟨0x114, 32, 32, 0xFFFFFFFF#32, 0x0#32, 0x0#32, 0x0#32, 0x0#32, 0xFFFFFFFF#32, 0x0#32⟩,  -- JDROP
  ⟨0x118, 32, 32, 0xFFFFFFFF#32, 0x0#32, 0x0#32, 0x0#32, 0x0#32, 0xFFFFFFFF#32, 0x0#32⟩,  -- JRES
  ⟨0x11C, 32, 32, 0xFFFF#32, 0x0#32, 0x0#32, 0x0#32, 0x0#32, 0xFFFF#32, 0x0#32⟩  -- JFRD
]

def rowsPLINTH : List RegRow := [
  ⟨0x40, 0, 1, 0x0#32, 0x0#32, 0x0#32, 0x0#32, 0x0#32, 0x0#32, 0x0#32⟩,  -- BANKSTAT
  ⟨0x44, 4, 8, 0xFFFFFFFF#32, 0x0#32, 0x0#32, 0x0#32, 0x0#32, 0xFFFFFFFF#32, 0x0#32⟩,  -- CECNT
  ⟨0x64, 0, 1, 0xFFFFFFFF#32, 0x0#32, 0x0#32, 0x0#32, 0x0#32, 0xFFFFFFFF#32, 0x0#32⟩,  -- UECNT
  ⟨0x68, 4, 8, 0xFFFFFFFF#32, 0x0#32, 0x0#32, 0x0#32, 0x0#32, 0xFFFFFFFF#32, 0x0#32⟩,  -- ENGERR
  ⟨0x88, 0, 1, 0xFFFFFFFF#32, 0x0#32, 0x0#32, 0x0#32, 0x0#32, 0xFFFFFFFF#32, 0x0#32⟩  -- MAQERR
]

def rowsENG : List RegRow := [
  ⟨0x40, 0, 1, 0x3#32, 0x0#32, 0x0#32, 0x0#32, 0x0#32, 0x0#32, 0x2#32⟩,  -- CFG
  ⟨0x44, 0, 1, 0x0#32, 0x0#32, 0x0#32, 0x0#32, 0x0#32, 0x0#32, 0x80000000#32⟩,  -- STATUS
  ⟨0x48, 0, 1, 0x0#32, 0x0#32, 0x0#32, 0x0#32, 0x0#32, 0x0#32, 0x0#32⟩,  -- STORE
  ⟨0x4C, 0, 1, 0xFFFFFFFF#32, 0x0#32, 0x0#32, 0x0#32, 0x0#32, 0xFFFFFFFF#32, 0x0#32⟩,  -- FAULTCNT
  ⟨0x50, 0, 1, 0xFFFFFFFF#32, 0x0#32, 0x0#32, 0x0#32, 0x0#32, 0xFFFFFFFF#32, 0x0#32⟩,  -- DFCNT
  ⟨0x54, 0, 1, 0xFFFFFFFF#32, 0x0#32, 0x0#32, 0x0#32, 0x0#32, 0xFFFFFFFF#32, 0x0#32⟩,  -- RESETCNT
  ⟨0x58, 0, 1, 0xFFFFFFFF#32, 0x0#32, 0x0#32, 0x0#32, 0x0#32, 0xFFFFFFFF#32, 0x0#32⟩,  -- ENTRYCNT
  ⟨0x5C, 0, 1, 0x0#32, 0x0#32, 0x0#32, 0xFFFF#32, 0x0#32, 0x0#32, 0x0#32⟩,  -- LATMAX
  ⟨0x100, 32, 8, 0x800001FF#32, 0x0#32, 0x0#32, 0x0#32, 0x0#32, 0x0#32, 0x0#32⟩,  -- CTXCFG
  ⟨0x104, 32, 8, 0xFFFFFFE0#32, 0x0#32, 0x0#32, 0x0#32, 0x0#32, 0x0#32, 0x0#32⟩,  -- TVEC
  ⟨0x108, 32, 8, 0xFFFFFFF8#32, 0x0#32, 0x0#32, 0x0#32, 0x0#32, 0x0#32, 0x0#32⟩,  -- GTAB
  ⟨0x10C, 32, 8, 0x1FF#32, 0x0#32, 0x0#32, 0x0#32, 0x0#32, 0x0#32, 0x0#32⟩,  -- GLEN
  ⟨0x110, 32, 8, 0xFFFFFFF0#32, 0x0#32, 0x0#32, 0x0#32, 0x0#32, 0x0#32, 0x0#32⟩,  -- SP1
  ⟨0x114, 32, 8, 0xFFFFFFF0#32, 0x0#32, 0x0#32, 0x0#32, 0x0#32, 0x0#32, 0x0#32⟩,  -- SP2
  ⟨0x118, 32, 8, 0xFFFC0#32, 0x0#32, 0x0#32, 0x0#32, 0x0#32, 0x0#32, 0x0#32⟩,  -- STRIDE
  ⟨0x11C, 32, 8, 0xFFFFFFFC#32, 0x0#32, 0x0#32, 0x0#32, 0x0#32, 0x0#32, 0x0#32⟩,  -- DFVEC
  ⟨0x400, 16, 64, 0x8FFDC000#32, 0x60000000#32, 0x0#32, 0x0#32, 0x0#32, 0xF000000#32, 0xC0000#32⟩,  -- SCTL
  ⟨0x404, 16, 64, 0xFFFFFFFC#32, 0x0#32, 0x0#32, 0x0#32, 0x0#32, 0x0#32, 0x0#32⟩,  -- ENTRY
  ⟨0x408, 16, 64, 0xFFFFFFFF#32, 0x0#32, 0x0#32, 0x0#32, 0x0#32, 0x0#32, 0x0#32⟩,  -- ARG
  ⟨0x40C, 16, 64, 0xFFFFFFF0#32, 0x0#32, 0x0#32, 0x0#32, 0x0#32, 0x0#32, 0x0#32⟩  -- SP
]

def rowsPERF : List RegRow := [
  ⟨0x40, 4, 11, 0x800001FF#32, 0x0#32, 0x0#32, 0x0#32, 0x0#32, 0x0#32, 0x0#32⟩,  -- OWN
  ⟨0x70, 4, 8, 0xFCFFFFFF#32, 0x2000000#32, 0x0#32, 0x0#32, 0x0#32, 0x0#32, 0x3C001800#32⟩,  -- CFG
  ⟨0x90, 4, 8, 0xFFFFFFFF#32, 0x0#32, 0x0#32, 0x0#32, 0x0#32, 0xFFFFFFFF#32, 0x0#32⟩,  -- CNT
  ⟨0xC0, 0, 1, 0x80000000#32, 0x0#32, 0x0#32, 0x0#32, 0x0#32, 0x0#32, 0x0#32⟩,  -- TDCTL
  ⟨0xC4, 0, 1, 0xFFFFFFFF#32, 0x0#32, 0x0#32, 0x0#32, 0x0#32, 0xFFFFFFFF#32, 0x0#32⟩,  -- TDRET
  ⟨0xC8, 0, 1, 0xFFFFFFFF#32, 0x0#32, 0x0#32, 0x0#32, 0x0#32, 0xFFFFFFFF#32, 0x0#32⟩,  -- TDWASTE
  ⟨0xCC, 0, 1, 0xFFFFFFFF#32, 0x0#32, 0x0#32, 0x0#32, 0x0#32, 0xFFFFFFFF#32, 0x0#32⟩,  -- TDFRONT
  ⟨0xD0, 0, 1, 0xFFFFFFFF#32, 0x0#32, 0x0#32, 0x0#32, 0x0#32, 0xFFFFFFFF#32, 0x0#32⟩,  -- TDBACK
  ⟨0xE0, 0, 1, 0xCFFF001F#32, 0x0#32, 0x0#32, 0x0#32, 0x0#32, 0x0#32, 0x8000010#32⟩,  -- TAGCFG
  ⟨0xE4, 0, 1, 0x0#32, 0x0#32, 0x0#32, 0x0#32, 0x0#32, 0x0#32, 0x0#32⟩,  -- TAGPC
  ⟨0xE8, 0, 1, 0x0#32, 0x0#32, 0x0#32, 0x0#32, 0x0#32, 0x0#32, 0x0#32⟩,  -- TAGT1
  ⟨0xEC, 0, 1, 0x0#32, 0x0#32, 0x0#32, 0x0#32, 0x0#32, 0x0#32, 0x0#32⟩,  -- TAGT2
  ⟨0xF0, 0, 1, 0x0#32, 0x0#32, 0x0#32, 0xFFFE0000#32, 0x0#32, 0x0#32, 0x0#32⟩,  -- TAGINFO
  ⟨0xF4, 0, 1, 0xFFFFFFFF#32, 0x0#32, 0x0#32, 0x0#32, 0x0#32, 0xFFFFFFFF#32, 0x0#32⟩,  -- TAGLOST
  ⟨0x100, 0, 1, 0x800073FF#32, 0x0#32, 0x0#32, 0x0#32, 0x0#32, 0x0#32, 0x301#32⟩,  -- BWCFG
  ⟨0x104, 0, 1, 0x0#32, 0x0#32, 0x0#32, 0x0#32, 0x0#32, 0x0#32, 0x0#32⟩,  -- BWCNT
  ⟨0x108, 0, 1, 0x0#32, 0x0#32, 0x0#32, 0x0#32, 0x0#32, 0x0#32, 0x0#32⟩,  -- BWLAST
  ⟨0x10C, 0, 1, 0x0#32, 0x0#32, 0x0#32, 0xFFFFFFFF#32, 0x0#32, 0x0#32, 0x0#32⟩,  -- BWPEAK
  ⟨0x110, 0, 1, 0xFFFFFFFF#32, 0x0#32, 0x0#32, 0x0#32, 0x0#32, 0xFFFFFFFF#32, 0x0#32⟩  -- BWWINS
]

def rowsARM0 : List RegRow := [
  ⟨0x40, 4, 16, 0xFFFFFFFF#32, 0x0#32, 0x0#32, 0x0#32, 0x0#32, 0x0#32, 0x0#32⟩,  -- STAGE
  ⟨0x80, 0, 1, 0xF1FFFFF#32, 0x0#32, 0x0#32, 0x0#32, 0x0#32, 0x0#32, 0x0#32⟩,  -- CMD
  ⟨0x84, 0, 1, 0x0#32, 0x0#32, 0x0#32, 0x0#32, 0x0#32, 0x0#32, 0x0#32⟩,  -- RESULT
  ⟨0x88, 4, 4, 0x0#32, 0x0#32, 0x0#32, 0x0#32, 0x0#32, 0x0#32, 0x0#32⟩  -- RINFO
]

def rowsARM1 : List RegRow := [
  ⟨0x40, 0, 1, 0xFFFFFFFF#32, 0x0#32, 0x0#32, 0x0#32, 0x0#32, 0x0#32, 0x3E80100#32⟩,  -- CFG
  ⟨0x44, 0, 1, 0x0#32, 0x0#32, 0x0#32, 0x0#32, 0x0#32, 0x0#32, 0x0#32⟩,  -- STATUS
  ⟨0x48, 4, 3, 0xFFFFFFFF#32, 0x0#32, 0x0#32, 0x0#32, 0x0#32, 0x0#32, 0x0#32⟩,  -- RETIRE
  ⟨0x54, 0, 1, 0xFFF#32, 0x0#32, 0x0#32, 0x0#32, 0x0#32, 0x0#32, 0x0#32⟩,  -- AVOID
  ⟨0x60, 4, 12, 0xFFFF#32, 0x0#32, 0x0#32, 0x0#32, 0x0#32, 0x0#32, 0x0#32⟩,  -- POOL
  ⟨0x100, 4, 96, 0x0#32, 0x0#32, 0x0#32, 0x0#32, 0x0#32, 0x0#32, 0x0#32⟩  -- ENGLOAD
]

def rowsARM2 : List RegRow := [
  ⟨0x40, 4, 512, 0xFFF01FFF#32, 0x0#32, 0x0#32, 0x0#32, 0x0#32, 0x0#32, 0x0#32⟩  -- TQUOTA
]

def rowsARM3 : List RegRow := [
  ⟨0x40, 0, 1, 0x0#32, 0x0#32, 0x0#32, 0x0#32, 0x0#32, 0x0#32, 0x0#32⟩,  -- REP0
  ⟨0x44, 0, 1, 0x0#32, 0x0#32, 0x0#32, 0x0#32, 0x0#32, 0x0#32, 0x0#32⟩,  -- REP1
  ⟨0x48, 0, 1, 0x0#32, 0x0#32, 0x0#32, 0x0#32, 0x0#32, 0x0#32, 0x0#32⟩,  -- REP2
  ⟨0x4C, 0, 1, 0x0#32, 0x0#32, 0x0#32, 0x0#32, 0x0#32, 0x0#32, 0x0#32⟩,  -- REP3
  ⟨0x50, 0, 1, 0x0#32, 0x0#32, 0x0#32, 0x0#32, 0x0#32, 0x0#32, 0x0#32⟩,  -- REPLVL
  ⟨0x54, 0, 1, 0xFFFFFFFF#32, 0x0#32, 0x0#32, 0x0#32, 0x0#32, 0xFFFFFFFF#32, 0x0#32⟩,  -- REPDROP
  ⟨0x800, 4, 512, 0xFFFFFFFF#32, 0x0#32, 0x0#32, 0x0#32, 0x0#32, 0x0#32, 0x0#32⟩  -- TMEM
]

def rowsRASP : List RegRow := [
  ⟨0x40, 0, 1, 0x7#32, 0x0#32, 0x0#32, 0x0#32, 0x0#32, 0x0#32, 0x7#32⟩,  -- CTL
  ⟨0x44, 0, 1, 0xFFFFFFFF#32, 0x0#32, 0x0#32, 0x0#32, 0x0#32, 0x0#32, 0x2710#32⟩,  -- SPERIOD
  ⟨0x48, 0, 1, 0xFFFFFFFF#32, 0x0#32, 0x0#32, 0x0#32, 0x0#32, 0x0#32, 0x15180#32⟩,  -- DPERIOD
  ⟨0x4C, 0, 1, 0x0#32, 0x0#32, 0x0#32, 0x0#32, 0x0#32, 0x0#32, 0xFE50#32⟩,  -- SINTV
  ⟨0x50, 0, 1, 0x0#32, 0x0#32, 0x0#32, 0x0#32, 0x0#32, 0x0#32, 0x0#32⟩,  -- DINTV
  ⟨0x54, 0, 1, 0xFFFFFFFF#32, 0x0#32, 0x0#32, 0x0#32, 0x0#32, 0xFFFFFFFF#32, 0x0#32⟩,  -- SPASS
  ⟨0x58, 0, 1, 0xFFFFFFFF#32, 0x0#32, 0x0#32, 0x0#32, 0x0#32, 0xFFFFFFFF#32, 0x0#32⟩,  -- DPASS
  ⟨0x5C, 0, 1, 0x0#32, 0x0#32, 0x0#32, 0x0#32, 0x0#32, 0x0#32, 0x0#32⟩,  -- FILLSTAT
  ⟨0x60, 0, 1, 0x0#32, 0x0#32, 0x0#32, 0x0#32, 0x0#32, 0x0#32, 0x0#32⟩,  -- DFILL
  ⟨0x64, 0, 1, 0x3FFFFFFF#32, 0x0#32, 0x0#32, 0x0#32, 0x0#32, 0x0#32, 0x0#32⟩,  -- CLRBASE
  ⟨0x68, 0, 1, 0xFFFFFF#32, 0x0#32, 0x0#32, 0x0#32, 0x0#32, 0x0#32, 0x0#32⟩,  -- CLRLEN
  ⟨0x6C, 0, 1, 0x0#32, 0x0#32, 0x0#32, 0x0#32, 0x0#32, 0x0#32, 0x0#32⟩  -- CLRCTL
]

def rowsDRAM : List RegRow := [
  ⟨0x40, 0, 1, 0x3F#32, 0x0#32, 0x0#32, 0x0#32, 0x0#32, 0x0#32, 0x0#32⟩,  -- CFG
  ⟨0x44, 0, 1, 0x0#32, 0x0#32, 0x0#32, 0x0#32, 0x0#32, 0x0#32, 0x0#32⟩,  -- STATUS
  ⟨0x48, 0, 1, 0x0#32, 0x0#32, 0x0#32, 0x0#32, 0x0#32, 0x0#32, 0x0#32⟩  -- USABLE
]

def rowsECC : List RegRow := [
  ⟨0x40, 0, 1, 0x0#32, 0x0#32, 0x0#32, 0x0#32, 0x0#32, 0x0#32, 0x0#32⟩,  -- LOG0
  ⟨0x44, 0, 1, 0x0#32, 0x0#32, 0x0#32, 0x0#32, 0x0#32, 0x0#32, 0x0#32⟩,  -- LOG1
  ⟨0x48, 0, 1, 0x0#32, 0x0#32, 0x0#32, 0x0#32, 0x0#32, 0x0#32, 0x0#32⟩,  -- LOG2
  ⟨0x4C, 0, 1, 0x0#32, 0x0#32, 0x0#32, 0x0#32, 0x0#32, 0x0#32, 0x0#32⟩,  -- LOGLVL
  ⟨0x50, 0, 1, 0xFFFFFFFF#32, 0x0#32, 0x0#32, 0x0#32, 0x0#32, 0xFFFFFFFF#32, 0x0#32⟩,  -- CECNT
  ⟨0x54, 0, 1, 0xFFFFFFFF#32, 0x0#32, 0x0#32, 0x0#32, 0x0#32, 0xFFFFFFFF#32, 0x0#32⟩,  -- UECNT
  ⟨0x58, 0, 1, 0xFFFFFFFF#32, 0x0#32, 0x0#32, 0x0#32, 0x0#32, 0xFFFFFFFF#32, 0x0#32⟩,  -- ADRCNT
  ⟨0x5C, 0, 1, 0xFFFFFFFF#32, 0x0#32, 0x0#32, 0x0#32, 0x0#32, 0xFFFFFFFF#32, 0x0#32⟩,  -- LOGDROP
  ⟨0x60, 0, 1, 0xFFFFFFFC#32, 0x0#32, 0x0#32, 0x0#32, 0x0#32, 0x0#32, 0x0#32⟩,  -- FLIPADDR_LO
  ⟨0x64, 0, 1, 0xFF#32, 0x0#32, 0x0#32, 0x0#32, 0x0#32, 0x0#32, 0x0#32⟩,  -- FLIPADDR_HI
  ⟨0x68, 0, 1, 0xFFFFFFFF#32, 0x0#32, 0x0#32, 0x0#32, 0x0#32, 0x0#32, 0x0#32⟩,  -- FLIPD_LO
  ⟨0x6C, 0, 1, 0xFFFFFFFF#32, 0x0#32, 0x0#32, 0x0#32, 0x0#32, 0x0#32, 0x0#32⟩,  -- FLIPD_HI
  ⟨0x70, 0, 1, 0xFF0000FF#32, 0x0#32, 0x0#32, 0x0#32, 0x0#32, 0x0#32, 0x0#32⟩  -- FLIPCTL
]

def rowsMMU : List RegRow := [
  ⟨0x40, 0, 1, 0x30001FF#32, 0x0#32, 0x0#32, 0x0#32, 0x0#32, 0x0#32, 0x0#32⟩,  -- INVCMD
  ⟨0x44, 0, 1, 0xFFFFFC00#32, 0x0#32, 0x0#32, 0x0#32, 0x0#32, 0x0#32, 0x0#32⟩,  -- INVVA
  ⟨0x48, 0, 1, 0xFFFF#32, 0x0#32, 0x0#32, 0x0#32, 0x0#32, 0xFFFF#32, 0x0#32⟩,  -- INVSTAT
  ⟨0x400, 4, 512, 0x81FFFFFF#32, 0x0#32, 0x0#32, 0x0#32, 0x0#32, 0x0#32, 0x0#32⟩  -- ROOT
]

def rowsTENANT : List RegRow := [
  ⟨0x40, 0, 1, 0x1FF#32, 0x0#32, 0x0#32, 0x0#32, 0x0#32, 0x0#32, 0x0#32⟩,  -- CHECK
  ⟨0x44, 0, 1, 0x0#32, 0x0#32, 0x0#32, 0x0#32, 0x0#32, 0x0#32, 0x0#32⟩,  -- CHECKRES
  ⟨0x400, 4, 512, 0xC0000001#32, 0x0#32, 0x0#32, 0x0#32, 0x0#32, 0x0#32, 0x0#32⟩  -- TCFG
]

def rowsFABRIC : List RegRow := [
  ⟨0x40, 0, 1, 0x0#32, 0x0#32, 0x0#32, 0x0#32, 0x0#32, 0x0#32, 0x20#32⟩,  -- SHARESUM
  ⟨0x400, 4, 512, 0x1FF#32, 0x0#32, 0x0#32, 0x0#32, 0x0#32, 0x0#32, 0x20#32⟩  -- SHARE
]

def rowsMBOX : List RegRow := [
  ⟨0x40, 32, 32, 0xFFFFFFFF#32, 0x0#32, 0x0#32, 0x0#32, 0x0#32, 0x0#32, 0x0#32⟩,  -- DATA_LO
  ⟨0x44, 32, 32, 0xFFFFFFFF#32, 0x0#32, 0x0#32, 0x0#32, 0x0#32, 0x0#32, 0x0#32⟩,  -- DATA_HI
  ⟨0x48, 32, 32, 0xFFFFFFFF#32, 0x0#32, 0x0#32, 0x0#32, 0x0#32, 0x0#32, 0x800#32⟩,  -- CFG
  ⟨0x4C, 32, 32, 0x1FF#32, 0x0#32, 0x0#32, 0x0#32, 0x0#32, 0x0#32, 0x0#32⟩,  -- PCFG
  ⟨0x50, 32, 32, 0x0#32, 0xC0000000#32, 0x0#32, 0x0#32, 0x0#32, 0x0#32, 0x40#32⟩,  -- STAT
  ⟨0x54, 32, 32, 0xFFFFFFFF#32, 0x0#32, 0x0#32, 0x0#32, 0x0#32, 0xFFFFFFFF#32, 0x0#32⟩  -- DROP
]

def rowsDBELL : List RegRow := [
  ⟨0x40, 4, 256, 0xFFFF0000#32, 0x0#32, 0x0#32, 0x0#32, 0x0#32, 0xFFFF0000#32, 0x0#32⟩,  -- RING
  ⟨0x440, 4, 256, 0x800001FF#32, 0x0#32, 0x0#32, 0x0#32, 0x0#32, 0x0#32, 0x0#32⟩  -- DBCFG
]

def rowsLOCK : List RegRow := [
  ⟨0x40, 4, 64, 0x7F#32, 0x0#32, 0x0#32, 0x0#32, 0x0#32, 0x0#32, 0x0#32⟩,  -- LOCK
  ⟨0x140, 4, 64, 0x800001FF#32, 0x0#32, 0x0#32, 0x0#32, 0x0#32, 0x0#32, 0x0#32⟩,  -- LOCKCFG
  ⟨0x240, 0, 1, 0x0#32, 0x0#32, 0x0#32, 0x0#32, 0x0#32, 0x0#32, 0x0#32⟩,  -- HELD_LO
  ⟨0x244, 0, 1, 0x0#32, 0x0#32, 0x0#32, 0x0#32, 0x0#32, 0x0#32, 0x0#32⟩,  -- HELD_HI
  ⟨0x248, 0, 1, 0x3F#32, 0x0#32, 0x0#32, 0x0#32, 0x0#32, 0x0#32, 0x0#32⟩  -- FORCE
]

def rowsLINE : List RegRow := [
  ⟨0x40, 0, 1, 0xFFFF3F0D#32, 0x0#32, 0x0#32, 0x0#32, 0x0#32, 0x0#32, 0xFA0000#32⟩,  -- CFG
  ⟨0x44, 0, 1, 0xFFFF0003#32, 0x0#32, 0x0#32, 0x0#32, 0x0#32, 0x0#32, 0x0#32⟩,  -- ROLE
  ⟨0x48, 0, 1, 0x7FF00FF#32, 0x0#32, 0x0#32, 0x0#32, 0x0#32, 0x0#32, 0x640050#32⟩,  -- TIMING
  ⟨0x4C, 0, 1, 0xFF0FFF#32, 0x0#32, 0x0#32, 0x0#32, 0x0#32, 0x0#32, 0x400783#32⟩,  -- CONT
  ⟨0x50, 0, 1, 0xFFF0FFF#32, 0x0#32, 0x0#32, 0x0#32, 0x0#32, 0x0#32, 0x0#32⟩,  -- LAT
  ⟨0x54, 0, 1, 0x0#32, 0x0#32, 0x0#32, 0x0#32, 0x0#32, 0x0#32, 0x0#32⟩,  -- DELAY
  ⟨0x58, 0, 1, 0x0#32, 0x40000000#32, 0x0#32, 0x0#32, 0x0#32, 0x0#32, 0x0#32⟩,  -- STATUS
  ⟨0x5C, 0, 1, 0xFFFFFFFF#32, 0x0#32, 0x0#32, 0x0#32, 0x0#32, 0xFFFFFFFF#32, 0x0#32⟩,  -- CRCERR
  ⟨0x60, 0, 1, 0xFFFFFFFF#32, 0x0#32, 0x0#32, 0x0#32, 0x0#32, 0xFFFFFFFF#32, 0x0#32⟩,  -- FMTERR
  ⟨0x64, 0, 1, 0xFFFFFFFF#32, 0x0#32, 0x0#32, 0x0#32, 0x0#32, 0xFFFFFFFF#32, 0x0#32⟩,  -- STRANGER
  ⟨0x68, 0, 1, 0xFFFFFFFF#32, 0x0#32, 0x0#32, 0x0#32, 0x0#32, 0xFFFFFFFF#32, 0x0#32⟩,  -- REPLAY
  ⟨0x6C, 0, 1, 0xFFFFFFFF#32, 0x0#32, 0x0#32, 0x0#32, 0x0#32, 0xFFFFFFFF#32, 0x0#32⟩,  -- RXDROP
  ⟨0x70, 0, 1, 0xFFFFFFFF#32, 0x0#32, 0x0#32, 0x0#32, 0x0#32, 0xFFFFFFFF#32, 0x0#32⟩,  -- CYCMISS
  ⟨0x74, 0, 1, 0xFFFFFFFF#32, 0x0#32, 0x0#32, 0x0#32, 0x0#32, 0xFFFFFFFF#32, 0x0#32⟩,  -- SLOTMISS
  ⟨0x78, 0, 1, 0xFFFFFFFF#32, 0x0#32, 0x0#32, 0x0#32, 0x0#32, 0xFFFFFFFF#32, 0x0#32⟩,  -- COLL
  ⟨0x7C, 0, 1, 0xFFFFFFFF#32, 0x0#32, 0x0#32, 0x0#32, 0x0#32, 0xFFFFFFFF#32, 0x0#32⟩,  -- FWDDROP
  ⟨0x80, 0, 1, 0x0#32, 0x0#32, 0x0#32, 0x0#32, 0x0#32, 0x0#32, 0x0#32⟩,  -- STRLAST
  ⟨0x100, 16, 8, 0xE1FFFFFF#32, 0x0#32, 0x0#32, 0x0#32, 0x0#32, 0x0#32, 0x0#32⟩,  -- TSCTL
  ⟨0x104, 16, 8, 0x1FFFF#32, 0x0#32, 0x0#32, 0x0#32, 0x0#32, 0x0#32, 0x0#32⟩,  -- TSTIME
  ⟨0x108, 16, 8, 0x1FF01FF#32, 0x0#32, 0x0#32, 0x0#32, 0x0#32, 0x0#32, 0x0#32⟩,  -- TSDEST
  ⟨0x10C, 16, 8, 0x3FFFFFFF#32, 0x0#32, 0x0#32, 0x0#32, 0x0#32, 0x0#32, 0x0#32⟩,  -- TSBUF
  ⟨0x200, 16, 32, 0x801FFFFF#32, 0x0#32, 0x0#32, 0x0#32, 0x0#32, 0x0#32, 0x0#32⟩,  -- RSCTL
  ⟨0x204, 16, 32, 0x801FFFFF#32, 0x0#32, 0x0#32, 0x0#32, 0x0#32, 0x0#32, 0x800#32⟩,  -- RSNOTE
  ⟨0x208, 16, 32, 0x3FFFFFFF#32, 0x0#32, 0x0#32, 0x0#32, 0x0#32, 0x0#32, 0x0#32⟩,  -- RSBUF
  ⟨0x20C, 16, 32, 0x0#32, 0x0#32, 0x0#32, 0x0#32, 0x0#32, 0x0#32, 0x0#32⟩,  -- RSSTAT
  ⟨0x400, 16, 8, 0xBFFF0000#32, 0x0#32, 0x0#32, 0x0#32, 0x0#32, 0x0#32, 0x10000#32⟩,  -- MTCFG
  ⟨0x404, 16, 8, 0x3FFFFFFF#32, 0x0#32, 0x0#32, 0x0#32, 0x0#32, 0x0#32, 0x0#32⟩,  -- MTBASE
  ⟨0x480, 16, 8, 0x9FFF0FFF#32, 0x0#32, 0x0#32, 0x0#32, 0x0#32, 0x0#32, 0x10800#32⟩,  -- MRCFG
  ⟨0x484, 16, 8, 0x3FFFFFFF#32, 0x0#32, 0x0#32, 0x0#32, 0x0#32, 0x0#32, 0x0#32⟩,  -- MRBASE
  ⟨0x600, 4, 128, 0xFFFFFFFF#32, 0x0#32, 0x0#32, 0x0#32, 0x0#32, 0x0#32, 0x0#32⟩  -- LEAFMAP
]

def rowsLINEKEY : List RegRow := [
  ⟨0x40, 0, 1, 0x80000FFF#32, 0x0#32, 0x0#32, 0x0#32, 0x0#32, 0x0#32, 0x0#32⟩,  -- DEVID
  ⟨0x44, 0, 1, 0x6000003F#32, 0x0#32, 0x0#32, 0x0#32, 0x0#32, 0x0#32, 0x0#32⟩,  -- KCMD
  ⟨0x48, 4, 4, 0xFFFFFFFF#32, 0x0#32, 0x0#32, 0x0#32, 0x0#32, 0x0#32, 0x0#32⟩,  -- KEYIN
  ⟨0x58, 0, 1, 0x80000FFF#32, 0x0#32, 0x0#32, 0x0#32, 0x0#32, 0x0#32, 0x0#32⟩,  -- WATCH
  ⟨0x80, 4, 64, 0x700001FF#32, 0x0#32, 0x0#32, 0x0#32, 0x0#32, 0x0#32, 0x0#32⟩,  -- KCTL
  ⟨0x180, 4, 16, 0x80030FFF#32, 0x0#32, 0x0#32, 0x0#32, 0x0#32, 0x0#32, 0x0#32⟩,  -- ANGRX
  ⟨0x200, 4, 128, 0xFFFFFFFF#32, 0x0#32, 0x0#32, 0x0#32, 0x0#32, 0x0#32, 0x0#32⟩,  -- ENROL
  ⟨0x400, 0, 1, 0xC0000000#32, 0x0#32, 0x0#32, 0x0#32, 0x0#32, 0x0#32, 0x0#32⟩,  -- SYSCFG
  ⟨0x404, 0, 1, 0x0#32, 0x0#32, 0x0#32, 0x0#32, 0x0#32, 0x0#32, 0x0#32⟩,  -- SYSCTL
  ⟨0x408, 0, 1, 0x0#32, 0x0#32, 0x0#32, 0x0#32, 0x0#32, 0x0#32, 0x0#32⟩,  -- SYSSTAT
  ⟨0x40C, 0, 1, 0x0#32, 0x0#32, 0x0#32, 0x0#32, 0x0#32, 0x0#32, 0x0#32⟩,  -- SYSROOT
  ⟨0x410, 0, 1, 0x0#32, 0x0#32, 0x0#32, 0x0#32, 0x0#32, 0x0#32, 0x0#32⟩,  -- KEYRES
  ⟨0x414, 0, 1, 0x0#32, 0x0#32, 0x0#32, 0x0#32, 0x0#32, 0x0#32, 0x0#32⟩,  -- UNKNOWN
  ⟨0x418, 0, 1, 0xFFF00FF#32, 0x20000000#32, 0x0#32, 0x0#32, 0x0#32, 0x0#32, 0x8000000#32⟩,  -- BARRIER
  ⟨0x41C, 0, 1, 0x0#32, 0x0#32, 0x0#32, 0x0#32, 0x0#32, 0x0#32, 0x0#32⟩,  -- SNAPLAST
  ⟨0x420, 0, 1, 0x0#32, 0x0#32, 0x0#32, 0x0#32, 0x0#32, 0x0#32, 0x0#32⟩,  -- SNAPNS
  ⟨0x424, 0, 1, 0x0#32, 0x0#32, 0x0#32, 0x0#32, 0x0#32, 0x0#32, 0x0#32⟩,  -- SNAPSEC
  ⟨0x428, 0, 1, 0xFFFFFFFF#32, 0x0#32, 0x0#32, 0x0#32, 0x0#32, 0xFFFFFFFF#32, 0x0#32⟩,  -- SYSLATE
  ⟨0x42C, 0, 1, 0x0#32, 0x0#32, 0x0#32, 0x0#32, 0x0#32, 0x0#32, 0x0#32⟩  -- FORMTIME
]

def rowsPEDESTAL : List RegRow := [
  ⟨0x40, 0, 1, 0x80070000#32, 0x0#32, 0x0#32, 0x0#32, 0x0#32, 0x0#32, 0x80000000#32⟩,  -- CTRL
  ⟨0x44, 0, 1, 0x0#32, 0x0#32, 0x0#32, 0x0#32, 0x0#32, 0x0#32, 0x80070000#32⟩,  -- STATUS
  ⟨0x48, 0, 1, 0xFFFFFFFF#32, 0x0#32, 0x0#32, 0x0#32, 0x0#32, 0x0#32, 0x0#32⟩,  -- PSREQ0
  ⟨0x4C, 0, 1, 0x8000FFFF#32, 0x0#32, 0x0#32, 0x0#32, 0x0#32, 0x0#32, 0x0#32⟩,  -- PSREQ1
  ⟨0x50, 0, 1, 0x0#32, 0x0#32, 0x0#32, 0x0#32, 0x0#32, 0x0#32, 0x0#32⟩,  -- PSOUT0
  ⟨0x54, 0, 1, 0x0#32, 0x0#32, 0x0#32, 0x0#32, 0x0#32, 0x0#32, 0x0#32⟩,  -- PSOUT1
  ⟨0x58, 0, 1, 0xFFFFFFFF#32, 0x0#32, 0x0#32, 0x0#32, 0x0#32, 0x0#32, 0x0#32⟩,  -- CKPT
  ⟨0x5C, 0, 1, 0xFFFFFFFF#32, 0x0#32, 0x0#32, 0x0#32, 0x0#32, 0x0#32, 0x10000#32⟩,  -- CKINT
  ⟨0x60, 0, 1, 0xFFFF#32, 0x0#32, 0x0#32, 0x0#32, 0x0#32, 0x0#32, 0x1000#32⟩,  -- CMPTO
  ⟨0x64, 0, 1, 0xFFFF#32, 0x0#32, 0x0#32, 0x0#32, 0x0#32, 0x0#32, 0x3E8#32⟩,  -- CKTO
  ⟨0x68, 0, 1, 0xFFFFFFFF#32, 0x0#32, 0x0#32, 0x0#32, 0x0#32, 0x0#32, 0x1000040#32⟩,  -- EXCFG
  ⟨0x6C, 0, 1, 0x3#32, 0x0#32, 0x0#32, 0x0#32, 0x0#32, 0x0#32, 0x0#32⟩,  -- RESYNC
  ⟨0x70, 0, 1, 0xFFFFFF#32, 0x0#32, 0x0#32, 0x0#32, 0x0#32, 0xFFFFFF#32, 0x0#32⟩,  -- OUTCNT
  ⟨0x74, 0, 1, 0x0#32, 0x0#32, 0x0#32, 0x0#32, 0x0#32, 0x0#32, 0x0#32⟩,  -- LASTOUT
  ⟨0x78, 0, 1, 0x0#32, 0x0#32, 0x0#32, 0x0#32, 0x0#32, 0x0#32, 0x0#32⟩,  -- LASTIC
  ⟨0x80, 8, 3, 0x0#32, 0x0#32, 0x0#32, 0x0#32, 0x0#32, 0x0#32, 0x0#32⟩,  -- ICLO
  ⟨0x84, 8, 3, 0x0#32, 0x0#32, 0x0#32, 0x0#32, 0x0#32, 0x0#32, 0x0#32⟩,  -- ICHI
  ⟨0x100, 16, 16, 0x8FFD0FFF#32, 0x60000000#32, 0x0#32, 0x0#32, 0x0#32, 0xF000000#32, 0x0#32⟩,  -- SCTL
  ⟨0x104, 16, 16, 0xFFFFFFFC#32, 0x0#32, 0x0#32, 0x0#32, 0x0#32, 0x0#32, 0x0#32⟩,  -- ENTRY
  ⟨0x108, 16, 16, 0xFFFFFFFF#32, 0x0#32, 0x0#32, 0x0#32, 0x0#32, 0x0#32, 0x0#32⟩,  -- ARG
  ⟨0x10C, 16, 16, 0xFFFFFFF0#32, 0x0#32, 0x0#32, 0x0#32, 0x0#32, 0x0#32, 0x0#32⟩  -- SP
]

def rowsETH : List RegRow := [
  ⟨0x40, 0, 1, 0x3F7#32, 0x0#32, 0x0#32, 0x0#32, 0x0#32, 0x0#32, 0x2#32⟩,  -- CFG
  ⟨0x44, 0, 1, 0xFFFFFFFF#32, 0x0#32, 0x0#32, 0x0#32, 0x0#32, 0x0#32, 0x0#32⟩,  -- MACLO
  ⟨0x48, 0, 1, 0xFFFF#32, 0x0#32, 0x0#32, 0x0#32, 0x0#32, 0x0#32, 0x0#32⟩,  -- MACHI
  ⟨0x4C, 0, 1, 0x3FFFFFFF#32, 0x0#32, 0x0#32, 0x0#32, 0x0#32, 0x0#32, 0x0#32⟩,  -- WINBASE
  ⟨0x50, 0, 1, 0xFFFFFF#32, 0x0#32, 0x0#32, 0x0#32, 0x0#32, 0x0#32, 0x0#32⟩,  -- WINSIZE
  ⟨0x54, 0, 1, 0xFFFFFC0F#32, 0x0#32, 0x0#32, 0x0#32, 0x0#32, 0x0#32, 0x2#32⟩,  -- TXRING
  ⟨0x58, 0, 1, 0xFFFFFC0F#32, 0x0#32, 0x0#32, 0x0#32, 0x0#32, 0x0#32, 0x2#32⟩,  -- RXRING
  ⟨0x5C, 0, 1, 0xFFF#32, 0x0#32, 0x0#32, 0x0#32, 0x0#32, 0x0#32, 0x800#32⟩,  -- RXBUF
  ⟨0x60, 0, 1, 0x0#32, 0x0#32, 0x0#32, 0x0#32, 0x0#32, 0x0#32, 0x0#32⟩,  -- TXKICK
  ⟨0x64, 0, 1, 0x0#32, 0x0#32, 0x0#32, 0x0#32, 0x0#32, 0x0#32, 0x0#32⟩,  -- TXHEAD
  ⟨0x68, 0, 1, 0x0#32, 0x0#32, 0x0#32, 0x0#32, 0x0#32, 0x0#32, 0x0#32⟩,  -- RXHEAD
  ⟨0x6C, 0, 1, 0x8FFF8FFF#32, 0x0#32, 0x0#32, 0x0#32, 0x0#32, 0x0#32, 0x8000800#32⟩,  -- NOTE
  ⟨0x70, 0, 1, 0xFFF0FFF#32, 0x0#32, 0x0#32, 0x0#32, 0x0#32, 0x0#32, 0x0#32⟩,  -- LAT
  ⟨0x74, 0, 1, 0x0#32, 0xC0000000#32, 0x0#32, 0x0#32, 0x0#32, 0x0#32, 0x0#32⟩,  -- STATUS
  ⟨0x78, 0, 1, 0xFFFFFFFF#32, 0x0#32, 0x0#32, 0x0#32, 0x0#32, 0xFFFFFFFF#32, 0x0#32⟩,  -- RXDROP
  ⟨0x7C, 0, 1, 0xFFFFFFFF#32, 0x0#32, 0x0#32, 0x0#32, 0x0#32, 0xFFFFFFFF#32, 0x0#32⟩,  -- CRCERR
  ⟨0x80, 0, 1, 0x23FFFFFF#32, 0x0#32, 0x0#32, 0x0#32, 0x0#32, 0x0#32, 0x0#32⟩  -- MDIO
]

def rowsHSPI : List RegRow := [
  ⟨0x40, 0, 1, 0x800301FF#32, 0x0#32, 0x0#32, 0x0#32, 0x0#32, 0x0#32, 0x30000#32⟩,  -- CFG
  ⟨0x44, 0, 1, 0x3FFFFFFF#32, 0x0#32, 0x0#32, 0x0#32, 0x0#32, 0x0#32, 0x0#32⟩,  -- WINBASE
  ⟨0x48, 0, 1, 0xFFFFFF#32, 0x0#32, 0x0#32, 0x0#32, 0x0#32, 0x0#32, 0x0#32⟩,  -- WINSIZE
  ⟨0x4C, 0, 1, 0x0#32, 0x0#32, 0xFFFFFFFF#32, 0x0#32, 0x0#32, 0x0#32, 0x0#32⟩,  -- HOSTIRQ
  ⟨0x50, 0, 1, 0x0#32, 0x0#32, 0x0#32, 0x0#32, 0x0#32, 0x0#32, 0x0#32⟩,  -- BOOTDATA
  ⟨0x54, 0, 1, 0x0#32, 0x0#32, 0x0#32, 0x0#32, 0x0#32, 0x0#32, 0x0#32⟩  -- BOOTLVL
]

def rowsQSPI : List RegRow := [
  ⟨0x40, 0, 1, 0xFF#32, 0x0#32, 0x0#32, 0x0#32, 0x0#32, 0x0#32, 0x8#32⟩,  -- CFG
  ⟨0x44, 0, 1, 0x3FFF00FF#32, 0x0#32, 0x0#32, 0x0#32, 0x0#32, 0x0#32, 0x0#32⟩,  -- XCTL
  ⟨0x48, 0, 1, 0xFFFFFFFF#32, 0x0#32, 0x0#32, 0x0#32, 0x0#32, 0x0#32, 0x0#32⟩,  -- XADDR
  ⟨0x4C, 0, 1, 0x1FFFF#32, 0x0#32, 0x0#32, 0x0#32, 0x0#32, 0x0#32, 0x0#32⟩,  -- XLEN
  ⟨0x50, 0, 1, 0xFFFFFFFF#32, 0x0#32, 0x0#32, 0x0#32, 0x0#32, 0x0#32, 0x0#32⟩,  -- XMEM
  ⟨0x60, 4, 16, 0xFFFFFFFF#32, 0x0#32, 0x0#32, 0x0#32, 0x0#32, 0x0#32, 0x0#32⟩  -- DATA
]

def rowsGPIO : List RegRow := [
  ⟨0x40, 0, 1, 0xFFFFFFFF#32, 0x0#32, 0x0#32, 0x0#32, 0x0#32, 0x0#32, 0x0#32⟩,  -- DIR
  ⟨0x44, 0, 1, 0xFFFFFFFF#32, 0x0#32, 0x0#32, 0x0#32, 0x0#32, 0x0#32, 0x0#32⟩,  -- OUT
  ⟨0x48, 0, 1, 0x0#32, 0x0#32, 0x0#32, 0x0#32, 0x0#32, 0x0#32, 0x0#32⟩,  -- SET
  ⟨0x4C, 0, 1, 0x0#32, 0x0#32, 0x0#32, 0x0#32, 0x0#32, 0x0#32, 0x0#32⟩,  -- CLR
  ⟨0x50, 0, 1, 0x0#32, 0x0#32, 0x0#32, 0x0#32, 0x0#32, 0x0#32, 0x0#32⟩,  -- IN
  ⟨0x54, 0, 1, 0x0#32, 0xFFFFFFFF#32, 0x0#32, 0x0#32, 0x0#32, 0x0#32, 0x0#32⟩,  -- EDGE
  ⟨0x80, 4, 32, 0xB0000FFF#32, 0x0#32, 0x0#32, 0x0#32, 0x0#32, 0x0#32, 0x800#32⟩,  -- INCFG
  ⟨0x100, 4, 8, 0xB01F0FFF#32, 0x0#32, 0x0#32, 0x0#32, 0x0#32, 0x0#32, 0x0#32⟩  -- ACT
]

def rowsDEBUG : List RegRow := [
  ⟨0x40, 0, 1, 0x1#32, 0x0#32, 0x0#32, 0x0#32, 0x0#32, 0x0#32, 0x0#32⟩,  -- CTRL
  ⟨0x44, 0, 1, 0x0#32, 0x20000000#32, 0x0#32, 0x0#32, 0x0#32, 0x0#32, 0x0#32⟩,  -- STATUS
  ⟨0x48, 0, 1, 0xF80301FF#32, 0x0#32, 0x0#32, 0x0#32, 0x0#32, 0x0#32, 0x0#32⟩,  -- SESSION
  ⟨0x50, 4, 4, 0x0#32, 0x0#32, 0x0#32, 0x0#32, 0x0#32, 0x0#32, 0x0#32⟩,  -- CHAL
  ⟨0x80, 4, 16, 0xFFFFFFFF#32, 0x0#32, 0x0#32, 0x0#32, 0x0#32, 0x0#32, 0x0#32⟩,  -- REQ
  ⟨0xC0, 0, 1, 0x3000007F#32, 0x0#32, 0x0#32, 0x0#32, 0x0#32, 0x0#32, 0x0#32⟩,  -- ECMD
  ⟨0xC4, 0, 1, 0x0#32, 0x0#32, 0x0#32, 0x0#32, 0x0#32, 0x0#32, 0x0#32⟩,  -- ESTAT
  ⟨0xC8, 0, 1, 0xFF#32, 0x0#32, 0x0#32, 0x0#32, 0x0#32, 0x0#32, 0x0#32⟩,  -- RSEL
  ⟨0xCC, 0, 1, 0xFFFFFFFF#32, 0x0#32, 0x0#32, 0x0#32, 0x0#32, 0x0#32, 0x0#32⟩,  -- RDATA
  ⟨0xD0, 4, 3, 0xFFFFFFFF#32, 0x0#32, 0x0#32, 0x0#32, 0x0#32, 0x0#32, 0x0#32⟩  -- BRKEN
]

def rowsFUSE : List RegRow := [
  ⟨0x40, 4, 8, 0x0#32, 0x0#32, 0x0#32, 0x0#32, 0x0#32, 0x0#32, 0x0#32⟩,  -- KEYHASH
  ⟨0x60, 0, 1, 0x0#32, 0x0#32, 0x0#32, 0x0#32, 0x0#32, 0x0#32, 0x0#32⟩,  -- SVN
  ⟨0x64, 0, 1, 0x0#32, 0x0#32, 0x0#32, 0x0#32, 0x0#32, 0x0#32, 0x0#32⟩,  -- CFG
  ⟨0x68, 0, 1, 0x1F1F#32, 0x0#32, 0x0#32, 0x0#32, 0x0#32, 0x0#32, 0x0#32⟩  -- PGM
]

def rowsEVT : List RegRow := [
  ⟨0x40, 4, 64, 0x0#32, 0x0#32, 0x0#32, 0x0#32, 0x0#32, 0x0#32, 0x0#32⟩,  -- RAISE
  ⟨0x200, 4, 64, 0x1FF#32, 0x0#32, 0x0#32, 0x0#32, 0x0#32, 0x0#32, 0x0#32⟩  -- SWOWN
]

/-- The register rows of the block with code `b` (the TYPE of R45 and R46; CALIPER[i] and ARM[i], whose four pages differ, carry 16 TYPE + i). -/
def blockRows (b : Nat) : List RegRow :=
  if b = 0x1 then rowsCHAN
  else if b = 0x2 then rowsADC
  else if b = 0x3 then rowsSEQ
  else if b = 0x4 then rowsADCFIFO
  else if b = 0x5 then rowsADCCAL
  else if b = 0x6 then rowsCMP
  else if b = 0x7 then rowsPOS
  else if b = 0x8 then rowsSSI
  else if b = 0x9 then rowsPWM
  else if b = 0xA then rowsTRIP
  else if b = 0xB then rowsCHISEL
  else if b = 0xC then rowsWEAR
  else if b = 0x20 then rowsDEVICE
  else if b = 0x21 then rowsPWR
  else if b = 0x22 then rowsCLK
  else if b = 0x23 then rowsRST
  else if b = 0x24 then rowsBOOT
  else if b = 0x25 then rowsTHERM
  else if b = 0x300 then rowsCALIPER0
  else if b = 0x301 then rowsCALIPER1
  else if b = 0x302 then rowsCALIPER2
  else if b = 0x303 then rowsCALIPER3
  else if b = 0x31 then rowsCALTAB
  else if b = 0x40 then rowsMAQ
  else if b = 0x41 then rowsPLINTH
  else if b = 0x42 then rowsENG
  else if b = 0x43 then rowsPERF
  else if b = 0x500 then rowsARM0
  else if b = 0x501 then rowsARM1
  else if b = 0x502 then rowsARM2
  else if b = 0x503 then rowsARM3
  else if b = 0x51 then rowsRASP
  else if b = 0x52 then rowsDRAM
  else if b = 0x53 then rowsECC
  else if b = 0x54 then rowsMMU
  else if b = 0x55 then rowsTENANT
  else if b = 0x60 then rowsFABRIC
  else if b = 0x61 then rowsMBOX
  else if b = 0x62 then rowsDBELL
  else if b = 0x63 then rowsLOCK
  else if b = 0x70 then rowsLINE
  else if b = 0x71 then rowsLINEKEY
  else if b = 0x72 then rowsPEDESTAL
  else if b = 0x80 then rowsETH
  else if b = 0x81 then rowsHSPI
  else if b = 0x82 then rowsQSPI
  else if b = 0x83 then rowsGPIO
  else if b = 0x84 then rowsDEBUG
  else if b = 0x85 then rowsFUSE
  else if b = 0x86 then rowsEVT
  else []

/-- The row of the register at offset `o`, if the block has one there. -/
def rowAt : List RegRow → Nat → Option RegRow
  | [], _ => none
  | r :: rs, o =>
    if r.off ≤ o then
      if r.count = 1 then (if o = r.off then some r else rowAt rs o)
      else if (o - r.off) % r.stride = 0 then (if (o - r.off) / r.stride < r.count then some r else rowAt rs o)
      else rowAt rs o
    else rowAt rs o

end Sys2Proof.Machine
end

