-- ==== Sys2Proof/Machine/StArm.lean ====
section
/-! DEFINITION. The Armature's store (chapter 14): commands, templates, admitted descriptors, routes, migrations, reports; the reference scan and the device-wide announcements (chapter 15). -/

namespace Sys2Proof.Machine

/-- One memory range a task holds: kind code 0 X, 1 Y, 2 instruction scratch, 3 pool; its unit (engine or plinth), offset and size in bytes. -/
structure ArmMem where
  kind : Nat
  unit : Nat
  off : Nat
  size : Nat
  /-- Virtual address, whether writable, executable. -/
  va : Nat
  w : Bool
  x : Bool
deriving DecidableEq, Repr

inductive TaskState where
  /-- Placed, its SUBMIT not yet complete. -/
  | placing
  | running
  | migrating
  | failed
  | withdrawing
deriving DecidableEq, Repr

/-- An admitted descriptor (R414-R441). -/
structure Task where
  tenant : Nat
  words : List Word
  /-- Engine or Maquette, activation or job slot, tenant context. -/
  unit : Nat
  slot : Nat
  ctx : Nat
  mems : List ArmMem
  state : TaskState
  fcause : Nat
  rbound : Nat
  migr : Nat
  miss : Nat
  lastrep : Nat
  /-- A miss since the latest QUERY has been reported (R431). -/
  missRep : Bool
  /-- A SLOWED report is open (R436). -/
  slowed : Bool
  /-- Events held during a migration, whether the count saturated, and the edge of step 1 (R437). -/
  held : Nat
  lost : Bool
  from_ : Nat
  since : Nat
  /-- The old slot was still active at the latest attempt of step 2 (R437). -/
  waited : Bool
deriving DecidableEq, Repr

/-- One requester's copy of ARM[0] (R415, R443). -/
structure ArmCopy where
  stage : List Word
  cmd : Word
  result : Word
  rinfo : List Word
deriving DecidableEq, Repr

def ArmCopy.idle : ArmCopy := ⟨List.replicate 16 0#32, 0#32, 0#32, [0#32, 0#32, 0#32, 0#32]⟩

/-- What a performed command publishes when it completes: edge, RESULT, RINFO, the task it enables and the task it frees (R432, R439, R440). -/
structure ArmDone where
  at_ : Nat
  result : Word
  rinfo : List Word
  start : Option Nat
  free : Option Nat
deriving DecidableEq, Repr

/-- A command waiting or performed: agent, ring, tenant, the CMD word, its staging words (R415). -/
structure ArmCmd where
  agent : Nat
  ring : Nat
  /-- The requester's own tenant (R35). -/
  own : Nat
  cmd : Word
  stage : List Word
  done : Option ArmDone
deriving DecidableEq, Repr

/-- A report record (R441). -/
structure RepRec where
  r0 : Word
  r1 : Word
  r2 : Word
  r3 : Word
deriving DecidableEq, Repr

structure ArmSt where
  copies : List (Nat × ArmCopy)
  queue : List ArmCmd
  templates : List (Nat × List Word)
  tasks : List (Nat × Task)
  reports : List RepRec
  repPush : Option Nat
  repSeq : Nat
  /-- What throttles or sweeps, each from an edge (R435): e for a sweep of a memory of engine e, 96 + p for a bank of plinth p, 256 + e for a throttled engine. -/
  slowFrom : List (Nat × Nat)
  /-- The ones found slow by SLOW_DETECT (R435). -/
  slow : List Nat
deriving DecidableEq, Repr

def ArmSt.idle : ArmSt := ⟨[], [], [], [], [], none, 0, [], []⟩

/-- A reference scan (R449, R451): tenant, end edge, and the TCFG value that waits for it. -/
structure Scan where
  tenant : Nat
  due : Nat
  remove : Option Word
deriving DecidableEq, Repr

/-- A device-wide announcement whose edge 1 is to come (R457): edge 0, lowest cause and its detail, and the level causes begun at that edge. -/
structure DwPend where
  at_ : Nat
  cause : Nat
  detail : Nat
  levels : Nat
deriving DecidableEq, Repr

end Sys2Proof.Machine
end

