-- ==== Sys2Proof/Machine/StBus.lean ====
section
/-! DEFINITION. Requesters, answers, events in flight, held accesses and the same-edge record (chapter 01). -/

namespace Sys2Proof.Machine

/-- The answer to an access (R18, R19, R36). -/
inductive Answer where
  /-- Performed. -/
  | ok
  /-- Refused with BUSERR. -/
  | buserr
  /-- Unaligned access to a register page (R19). -/
  | misalign
  /-- Held by the page (R28, R37); the answer follows. -/
  | held
  /-- Uncorrectable memory error (R395). -/
  | uncorrectable
deriving DecidableEq, Repr

/-- Which consumers an event wave reaches (R62, R661). -/
inductive Scope where
  /-- Sequencers, serial trigger and PWM of the channel itself: same edge. -/
  | slice (c : Nat)
  /-- Task inputs of the home plinth: next edge. -/
  | home (p : Nat)
  /-- Everything else a channel event reaches: 5 CCLK. -/
  | rest (c : Nat)
  /-- Every consumer: device-wide blocks and software events. -/
  | all
deriving DecidableEq, Repr

/-- An event on its way: ID, edge of arrival, consumers reached, and the tenant whose consumers (beside T0's) receive it; `none` for every tenant (R63, R65, R457). -/
structure Flight where
  id : Nat
  due : Nat
  scope : Scope
  tag : Option Nat
deriving DecidableEq, Repr

/-- An amount hardware added to a CNT field at this edge; `sat` where it saturates. -/
structure IncRec where
  addr : Nat
  hi : Nat
  lo : Nat
  n : Nat
  sat : Bool
deriving DecidableEq, Repr

/-- What software and hardware did to registers at the current edge, for R23; void at any other edge. -/
structure EdgeLog where
  at_ : Nat
  /-- W1C bits hardware set. -/
  hw : List (Nat × Word)
  /-- The value a software write replaced (RW and SH fields). -/
  sw : List (Nat × Word)
  /-- Amounts hardware added to CNT fields. -/
  inc : List IncRec
  /-- The value hardware replaced in an RC field. -/
  rc : List (Nat × Word)
  /-- Page events raised (R29, R48: once in a cycle). -/
  ev : List (Nat × Option Nat)
deriving DecidableEq, Repr

/-- Hidden state of one page (R26-R28, R37, R588). -/
structure PageSt where
  /-- Edge at which BUSY returns to 0. -/
  busyUntil : Option Nat
  /-- Edge at which an ownership change completes. -/
  ownUntil : Option Nat
  /-- Edge of the pending ARM. -/
  armedAt : Option Nat
  /-- The block has left PWRPOL OFF and waits for its release. -/
  releasing : Bool
deriving DecidableEq, Repr

def PageSt.idle : PageSt := ⟨none, none, none, false⟩

/-- An access a page holds until BUSY returns to 0 (R28) or the new owner is in place (R37). -/
structure Held where
  rq : Rq
  addr : Nat
  size : Nat
  /-- The value of a write; `none` for a read. -/
  value : Option DWord
deriving DecidableEq, Repr

end Sys2Proof.Machine
end

