-- ==== Sys2Proof/Machine/StCaliper.lean ====
section
/-! DEFINITION. The internal state of the Caliper (chapter 08) beyond its registers. Device time is kept as a number of 2^-42 ns since second 0 (R243); time and line angles are kept as values at an anchor edge from which they advance by rule. -/

namespace Sys2Proof.Machine

/-- A staged time (R245, R248): armed by software, or an offset above STEPLIM. -/
structure Staged where
  theta : Option Int
  at_ : Nat
deriving DecidableEq, Repr

/-- Device time (R243-R248). -/
structure TimeSt where
  /-- Anchor edge and time there. -/
  at_ : Nat
  t : Int
  /-- Slew remainder at the anchor and the size of its share per ACLK edge, in 2^-42 ns (R247). -/
  rem : Int
  step : Nat
  /-- The second whose boundary comes next. -/
  nextSec : Nat
  staged : Option Staged
  /-- Latched seconds per agent number; 103 is the debug port (R244). -/
  copies : List (Nat × Nat)
  /-- The latest 8 offsets lay within 40 ns (R248). -/
  good : List Bool
  /-- Edge from which HOLDT runs (R248). -/
  ofsAt : Nat
  /-- Number of the 250,000 ns interval whose start was the latest boundary (R231). -/
  slot : Int
deriving DecidableEq, Repr

def TimeSt.idle : TimeSt := ⟨0, 0, 0, 0, 1, none, [], [], 0, 0⟩

/-- A line angle (R227-R230): its value in 2^-16 counts at ACLK edge `at_`, the value before that edge, a correction of `corr` spread over 2^cn edges of which `left` remain. -/
structure AngleSt where
  at_ : Nat
  a : Nat
  before : Nat
  corr : Int
  cn : Nat
  left : Nat
deriving DecidableEq, Repr

def AngleSt.idle : AngleSt := ⟨0, 0, 0, 0, 0, 0⟩

/-- A table entry (R238): the edge up to which its source has been judged, and whether it was seated at its target. -/
structure EntSt where
  from_ : Nat
  eq : Bool
deriving DecidableEq, Repr

def EntSt.idle : EntSt := ⟨0, false⟩

/-- The Caliper. -/
structure CalSt where
  time : TimeSt
  angles : List (Nat × AngleSt)
  ents : List (Nat × EntSt)
  /-- Per channel: edge and entry of the latest reference delivery (R241). -/
  refs : List (Nat × Nat × Nat)
deriving DecidableEq, Repr

def CalSt.idle : CalSt := ⟨TimeSt.idle, [], [], []⟩

end Sys2Proof.Machine
end

