-- ==== Sys2Proof/Machine/StChannel.lean ====
section
/-! DEFINITION. The internal state of one channel slice (chapters 02-07) beyond its registers. Times are CCLK edge numbers. -/

namespace Sys2Proof.Machine

/-- One conversion from its sampling instant to the write of its result (R75, R80, R89, R95). Users 0-3 are SEQ0-SEQ3, 4 and 5 the calibration command on CVA and CVB (an interleaved one is user 4), 6 and 7 the drift tracking of CVA and CVB (R87). -/
structure Conv where
  user : Nat
  step : Nat
  /-- The STEP word latched for it (R80). -/
  word : Nat
  cv : Nat
  input : Nat
  openAt : Nat
  stamp : Nat
  early : Bool
  dly : Bool
  /-- Interleaved burst: sample number (R91). -/
  j : Nat
  /-- Started from a pended trigger (R85). -/
  pend : Bool
deriving DecidableEq, Repr

/-- A formatted CVA result of an interleaved burst: value, sampling instant, and whether a calibration must leave it out (R98 step 4, R110). -/
structure IlA where
  y : Int
  at_ : Nat
  out : Bool
deriving DecidableEq, Repr

/-- A converted CVB sample of a burst that waits for the CVA sample after it (R92): the value after step 3 of R98, its conversion, and the neighbour before it. -/
structure IlB where
  y : Int
  conv : Conv
  prev : Option IlA
deriving DecidableEq, Repr

/-- One sequencer (R79-R93). -/
structure SeqSt where
  /-- A run is in progress (SEQCTL.BUSY). -/
  run : Bool
  fromPend : Bool
  /-- A trigger is pended (SEQCTL.PEND). -/
  pend : Bool
  /-- A step waits to open acquisition. -/
  waiting : Bool
  /-- The step (and burst sample) that opens next. -/
  step : Nat
  j : Nat
  /-- Its nominal sampling instant (R89). -/
  nominal : Nat
  /-- The STEP word latched at the first opening in this run (R80). -/
  latched : Option Nat
  /-- An interleaved step holds both converters before this edge (R91). -/
  hold : Nat
  /-- Burst: the last CVA result and the waiting CVB sample (R92). -/
  prevA : Option IlA
  pendB : Option IlB
  /-- Edge of the last write of the latest complete run (R84, R85). -/
  endAt : Option Nat
  /-- Edge of the latest trigger counted (R82). -/
  trigAt : Option Nat
  /-- Triggers count only from edges after this one (R79). -/
  enabledAt : Nat
deriving DecidableEq, Repr

/-- A sequencer at reset: idle. -/
def SeqSt.idle : SeqSt := ⟨false, false, false, false, 0, 0, 0, none, 0, none, none, none, none, 0⟩

/-- The calibration commands of R107. -/
inductive CalKind where
  | zero
  | span
  | skew
deriving DecidableEq, Repr

/-- A running calibration command (R107-R110). ZERO and SPAN: conversions counted per converter and, per phase (INPUT, VREF x 1/4, VREF x 3/4), the sums of CVA and CVB. SKEW: the burst as in SeqSt and the sums of R110. -/
structure CalRun where
  kind : CalKind
  cva : Bool
  cvb : Bool
  input : Nat
  nA : Nat
  nB : Nat
  sumA : List Int
  sumB : List Int
  j : Nat
  nominal : Nat
  hold : Nat
  prevA : Option IlA
  pendB : Option IlB
  /-- Twice the sum of (B - m) s, the sum of s squared, the number of samples (R110). -/
  sumBS : Int
  sumSS : Int
  nS : Nat
  /-- Every conversion is counted. -/
  done : Bool
deriving DecidableEq, Repr

/-- The zero point kept for SPAN (R107): its converters, input, and the sums of 256 scaled codes. -/
structure CalZero where
  cva : Bool
  cvb : Bool
  input : Nat
  sumA : Int
  sumB : Int
deriving DecidableEq, Repr

/-- Drift tracking of one converter (R112): L and H with 8 fraction bits, which level is next, edge of the latest completed conversion. -/
structure DriftSt where
  l : Int
  h : Int
  nextHi : Bool
  updAt : Option Nat
deriving DecidableEq, Repr

/-- Drift tracking at reset: L and H at LO0 and HI0 of the reset value of REFA and REFB (DESIGN CHOICE, log 13). -/
def DriftSt.idle : DriftSt := ⟨4096 * 256, 12288 * 256, false, none⟩

/-- A result FIFO (R101): oldest entry first; edges of the latest push, pop and flush (R32, R103). -/
structure Fifo where
  q : List DWord
  pushAt : Option Nat
  popAt : Option Nat
  flushAt : Option Nat
deriving DecidableEq, Repr

def Fifo.empty : Fifo := ⟨[], none, none, none⟩

/-- The converters of a channel (chapter 03). -/
structure ConvSt where
  seq : List SeqSt
  convs : List Conv
  fifoA : Fifo
  fifoB : Fifo
  /-- Edge of the write that set REF.EN (R94). -/
  refAt : Option Nat
  cal : Option CalRun
  zero : Option CalZero
  driftA : DriftSt
  driftB : DriftSt
deriving DecidableEq, Repr

/-- The converters at reset. -/
def ConvSt.idle : ConvSt :=
  ⟨[SeqSt.idle, SeqSt.idle, SeqSt.idle, SeqSt.idle], [], Fifo.empty, Fifo.empty, none, none, none, DriftSt.idle, DriftSt.idle⟩

/-- The falling ramp of CMP0-CMP2 (R129, R130): the latched START and SLOPE and the edge of the latest period start, while it runs. -/
structure RampSt where
  start : Nat
  slope : Nat
  from_ : Nat
deriving DecidableEq, Repr

/-- The comparators of a channel (chapter 04). -/
structure CmpSt where
  /-- End edges of the settle times running (R120). -/
  settle : List (Option Nat)
  /-- Levels the DACs have taken or take at the next ACLK edge: (LO, HI, edge) per comparator (R128). -/
  dac : List (Nat × Nat × Nat)
  /-- Ramps of CMP0-CMP2; `none` while HI follows THR. -/
  ramp : List (Option RampSt)
  /-- Edges of the latest changes of RAW and WATCHOK with RAW and WATCHOK before them, oldest first: reads return the state 2 CCLK ago (R122, R135). -/
  hist : List (Nat × Nat × Bool)
deriving DecidableEq, Repr

/-- Comparators at reset: disabled, thresholds at their reset values (R133). -/
def CmpSt.idle : CmpSt :=
  ⟨[none, none, none, none, none], [(0, 0x3FF, 0), (0, 0x3FF, 0), (0, 0x3FF, 0), (0, 0x3FF, 0), (0, 0x3FF, 0)], [none, none, none], []⟩

/-- A turn-on waiting for its dead time (R183): which side, its edge, its delay-line steps. -/
structure DeadTime where
  high : Bool
  due : Nat
  frac : Nat
deriving DecidableEq, Repr

/-- One PWM leg (R177-R189). -/
structure LegSt where
  /-- The high-side target. -/
  target : Bool
  onH : Bool
  onL : Bool
  /-- Delay-line steps of the latest launched edge (R178). -/
  frac : Nat
  dt : Option DeadTime
  /-- The blanking window is open before this edge (R189). -/
  blankUntil : Nat
  /-- FIXED: the change of the running half has taken place (R177). -/
  changed : Bool
  /-- VON and VOFF: next period start, edge at which the on-time ends, latched VA and VB (R180, R181). -/
  nextStart : Option Nat
  offAt : Option Nat
  va : Nat
  vb : Nat
deriving DecidableEq, Repr

def LegSt.idle : LegSt := ⟨false, false, false, 0, none, 0, false, none, none, 0, 0⟩

/-- The PWM generator of a channel (chapter 06). -/
structure PwmSt where
  run : Bool
  /-- EN is 1 and the counter waits for SYNCID (R171). -/
  wait : Bool
  startAt : Option Nat
  /-- Edge of the latest valley. -/
  valley : Nat
  /-- The peak of this period has passed (centre-aligned). -/
  falling : Bool
  /-- The conditions of R54 hold, and since which edge (R185). -/
  cond : Bool
  condAt : Nat
  /-- The outputs have resumed at a valley (R185). -/
  driving : Bool
  /-- Edge of the latest transfer made by NOW (R179). -/
  xferAt : Nat
  /-- First edge at which each trigger point may be raised again (R175). -/
  trgFrom : List Nat
  legs : List LegSt
deriving DecidableEq, Repr

def PwmSt.idle : PwmSt := ⟨false, false, none, 0, false, false, 0, false, 0, [0, 0], [LegSt.idle, LegSt.idle, LegSt.idle]⟩

/-- The trip logic of a channel (R190-R196). -/
structure TripSt where
  tripped : Bool
  /-- LATCH is 0 and the trip waits for a valley (R194). -/
  waitValley : Bool
  /-- Synchronised pin levels at the polarity of CFG: TRIPA, TRIPB. -/
  lvlA : Bool
  lvlB : Bool
  /-- First active edge of a pin that has not qualified (R192). -/
  firstA : Option Nat
  firstB : Option Nat
  qualA : Bool
  qualB : Bool
  /-- Edge since which each of the 13 sources has been active without interruption (R190). -/
  since : List (Option Nat)
deriving DecidableEq, Repr

def TripSt.idle : TripSt := ⟨false, false, false, false, none, none, false, false, List.replicate 13 none⟩

/-- One position sample after its update (R139, R144-R146, R166). -/
structure PosRec where
  hold : Nat
  count : Int
  usable : Bool
  motang : Nat
deriving DecidableEq, Repr

/-- The codes held at a hold edge (R138). -/
structure PosHold where
  hold : Nat
  sin : Int
  cos : Int
  q : Int
deriving DecidableEq, Repr

/-- An OK word in COMBINED mode until the update that uses it (R166, R167): C, its multi-turn field, the edge of its result write, its latch edge, the position sample nearest that edge so far. -/
structure AbsWord where
  c : Nat
  mt : Nat
  at_ : Nat
  latch : Nat
  ref : Option PosRec
deriving DecidableEq, Repr

/-- One position update as the Caliper receives it 5 CCLK later (R158, R225): its edge, POSITION before it, the change after DIR, the reseat mark, the edge of the moving update before it. -/
structure PosOut where
  at_ : Nat
  prev : Nat
  new : Nat
  dp : Int
  reseat : Bool
  lastMove : Nat
deriving DecidableEq, Repr

/-- The position unit (chapter 05). -/
structure PosSt where
  /-- Edge at which EN went to 1. -/
  enAt : Option Nat
  held : Option PosHold
  lastHold : Option Nat
  /-- Quadrant counter and last quadrant (R143). -/
  q : Int
  quad : Nat
  /-- Incremental counts of the latest samples, newest first (R146, R149). -/
  hist : List Int
  /-- Length of the run of out-of-window samples (R145). -/
  ampRun : Nat
  /-- Edges of the writes of LOAD and MLOAD that wait (R150). -/
  load : Option Nat
  mload : Option Nat
  /-- Zero mark that homes at the next update: ZLATCH and MOTANG at it (R152). -/
  homing : Option (Nat × Nat)
  /-- Latest sample. -/
  last : Option PosRec
  /-- COMBINED: the OK word that waits for its load or check (R166, R167). -/
  absWord : Option AbsWord
  /-- Motor angle passed to the Chisel and the hold edge it describes (R147, R202). -/
  angle : Nat
  angleHold : Nat
  /-- Latest two updates that moved or reseated the position, newest first. -/
  outs : List PosOut
deriving DecidableEq, Repr

def PosSt.idle : PosSt := ⟨none, none, none, 0, 0, [], 0, none, none, none, none, none, 0, 0, []⟩

/-- The serial absolute interface (R159-R167). -/
structure SsiSt where
  /-- Latch edge of the running transaction. -/
  latch : Option Nat
  recovUntil : Option Nat
  pend : Bool
  /-- Position sample nearest the latch edge so far (R166). -/
  ref : Option PosRec
  /-- Previous valid position and its latch edge (R149). -/
  prev : Option (Nat × Nat)
  /-- Edge of the latest trigger (R163: triggers of one cycle count as one). -/
  trigAt : Option Nat
deriving DecidableEq, Repr

def SsiSt.idle : SsiSt := ⟨none, none, false, none, none, none⟩

/-- A Chisel computation in flight: everything latched at edge 0 (R209). `words` are the block registers from CFG to INTQ. -/
structure ChRun where
  t0 : Nat
  a : Nat
  b : Nat
  ia : Int
  ib : Int
  mot : Nat
  age : Nat
  speed : Int
  udc : Int
  perlive : Nat
  edgeAligned : Bool
  own : Bool
  driving : Bool
  words : List Nat
  idref : Int
  iqref : Int
  vdff : Int
  vqff : Int
deriving DecidableEq, Repr

/-- The Chisel (chapter 07). -/
structure ChSt where
  run : Option ChRun
  /-- Latest usable UDC result since the soft reset (R207). -/
  udc : Option Int
  /-- Shadow write issued: the three compares and the issue edge (R209). -/
  write : Option (Nat × Nat × Nat × Nat)
  /-- Edge 40 of the latest computation with INTD and INTQ before and after it: an abort up to that edge takes them back (R213). -/
  undo : Option (Nat × Word × Word × Word × Word)
deriving DecidableEq, Repr

def ChSt.idle : ChSt := ⟨none, none, none, none⟩

/-- One leg of the wear ledger (R216-R218): sums since the tick, proxy p and T with 32 fraction bits, rising, extreme E, turning point X. -/
structure WearLeg where
  a1 : Nat
  a2 : Nat
  k : Nat
  p : Int
  t : Int
  rising : Bool
  e : Int
  x : Int
deriving DecidableEq, Repr

def WearLeg.idle : WearLeg := ⟨0, 0, 0, 0, 0, true, 0, 0⟩

/-- Everything inside one channel slice beyond its registers. -/
structure ChanSt where
  /-- Levels last seen at TRIPA, TRIPB, ENCDT, ZMK (R58). -/
  pins : Nat
  /-- Start edge of the latency measurement (R59). -/
  latAt : Option Nat
  conv : ConvSt
  cmp : CmpSt
  pos : PosSt
  ssi : SsiSt
  pwm : PwmSt
  trip : TripSt
  chisel : ChSt
  wear : List WearLeg
deriving DecidableEq, Repr

def ChanSt.idle : ChanSt :=
  ⟨0, none, ConvSt.idle, CmpSt.idle, PosSt.idle, SsiSt.idle, PwmSt.idle, TripSt.idle, ChSt.idle, [WearLeg.idle, WearLeg.idle, WearLeg.idle]⟩

end Sys2Proof.Machine
end

