-- ==== Sys2Proof/Machine/StFabric.lean ====
section
/-! DEFINITION. Mailbox channels (chapter 16) beyond their registers. -/

namespace Sys2Proof.Machine

/-- A mailbox channel (R470, R471): messages, oldest first, the edges of the latest push and of the latest emptying by CFG (R32, R476), and the staging copies by agent. -/
structure MboxSt where
  q : List DWord
  pushAt : Option Nat
  cfgAt : Option Nat
  stage : List (Nat × Word)
deriving DecidableEq, Repr

def MboxSt.idle : MboxSt := ⟨[], none, none, []⟩

end Sys2Proof.Machine
end

