-- ==== Sys2Proof/Machine/StHost.lean ====
section
/-! DEFINITION. The state of the host ports (chapter 21), the debug port and the taggers (chapter 22) beyond their registers. -/

namespace Sys2Proof.Machine

/-- The frame an Ethernet port transmits (R606): descriptor index, TS, the bytes with padding, STATUS. -/
structure EthTx where
  idx : Nat
  ts : Bool
  frame : List Nat
  status : Nat
deriving DecidableEq, Repr

/-- One Ethernet port: its transmit side waits on OWN 0, a remembered TXKICK, the frame under way, the latest frame sent whole. -/
structure EthSt where
  wait : Bool
  kick : Bool
  tx : Option EthTx
  sent : List Nat
deriving DecidableEq, Repr

def EthSt.idle : EthSt := ⟨false, false, none, []⟩

/-- The host SPI target (R611-R613): write queue, WERR, WOVF, boot queue with the edge of the latest push (R32), the bytes last sent on MISO. -/
structure HspiSt where
  wq : List (Nat × Word)
  werr : Bool
  wovf : Bool
  boot : List Word
  pushAt : Option Nat
  miso : List Nat
deriving DecidableEq, Repr

def HspiSt.idle : HspiSt := ⟨[], false, false, [], none, []⟩

/-- GPIO: the levels at the pins, and the actions that change OUT at a coming edge (R617, R618). -/
structure GpioSt where
  pins : Nat
  acts : List (Nat × Nat)
deriving DecidableEq, Repr

def GpioSt.idle : GpioSt := ⟨0, []⟩

/-- A debug access under way (R629). -/
structure DbgAcc where
  addr : Nat
  value : Option Word
deriving DecidableEq, Repr

/-- The test access port: instruction register, boundary chain, bypass bit, the access under way, the latest read. -/
structure TapSt where
  ir : Nat
  chain : List Bool
  driving : Bool
  bypass : Bool
  acc : Option DbgAcc
  data : Word
deriving DecidableEq, Repr

def TapSt.idle : TapSt := ⟨1, [], false, false, none, 0#32⟩

structure HostSt where
  eth0 : EthSt
  eth1 : EthSt
  /-- An MDIO transfer runs. -/
  mdio : Bool
  hspi : HspiSt
  /-- End edge of the flash transfer, and the data bytes last sent to the flash. -/
  qspi : Option Nat
  qtx : List Nat
  gpio : GpioSt
  tap : TapSt
  /-- Per engine: address of the tagged bundle (R624). -/
  tags : List (Nat × Nat)
  /-- Per engine: start of the bandwidth window (R625). -/
  bw : List (Nat × Nat)
deriving DecidableEq, Repr

def HostSt.idle : HostSt := ⟨EthSt.idle, EthSt.idle, false, HspiSt.idle, none, [], GpioSt.idle, TapSt.idle, [], []⟩

end Sys2Proof.Machine
end

