-- ==== Sys2Proof/Machine/StLine.lean ====
section
/-! DEFINITION. The state of the line ports, LINEKEY and the system of devices (chapters 18, 19) beyond their registers. Times in `Int` are device time: stamps in 2^-42 ns, cycle starts and action times in ns. -/

namespace Sys2Proof.Machine

/-- A frame (R517): header words, payload bytes, TAG bytes. -/
structure Frm where
  h0 : Nat
  h1 : Nat
  h2 : Nat
  pay : List Nat
  tag : List Nat
deriving DecidableEq, Repr

/-- The latest frame a port launched: its body, the edge of its first baud, the stamp of its reference edge (R516, R540). -/
structure TxRec where
  body : List Nat
  at_ : Nat
  ref : Int
deriving DecidableEq, Repr

/-- An accepted frame that waits for its consumer: receive stamp, and the edge of the last baud of ED. -/
structure RxRec where
  frm : Frm
  stamp : Int
  endAt : Nat
deriving DecidableEq, Repr

/-- Where a contention frame comes from (R534). -/
inductive MsgSrc where
  /-- DLYREQ, DISC and SYS frames of the port itself. -/
  | own
  | fwd
  | mtx (j : Nat)
deriving DecidableEq, Repr

/-- The contention frame in progress (R534): be, tries, and the edge up to which its acknowledgement counts. -/
structure Cont where
  src : MsgSrc
  frm : Frm
  be : Nat
  tries : Nat
  wait : Option Nat
deriving DecidableEq, Repr

/-- A transmit slot's read (R531): slot, cycle of the launch, the data if all of it arrived. -/
structure SlotRd where
  slot : Nat
  tc : Int
  data : Option (List Nat)
deriving DecidableEq, Repr

/-- A scheduled answer (R535, R542, R548). -/
inductive AnsKind where
  | ack
  | dlyrsp
  | present
deriving DecidableEq, Repr

structure Ans where
  kind : AnsKind
  due : Nat
  /-- The frame answered and its receive stamp. -/
  dest : Frm
  t2 : Int
deriving DecidableEq, Repr

/-- A port's part in formation (R557). -/
inductive PortRole where
  | none
  | cand
  | claimed
  | member
  | head
deriving DecidableEq, Repr

/-- A KEYRES answer a head holds (R563): device, devices covered, devices failing, the lowest of them. -/
structure KeyAns where
  dev : Nat
  covered : Nat
  nfail : Nat
  first : Nat
deriving DecidableEq, Repr

/-- A TURN heard (R558): phase, group, A, edge of its last baud. -/
structure Turn where
  phase : Nat
  group : Nat
  a : Nat
  endAt : Nat
deriving DecidableEq, Repr

structure LinePort where
  /-- T_c of the current cycle; none after a time step and before the first cycle (R526, R530). -/
  tc : Option Int
  /-- ROLE.HEAD as it acts (R551). -/
  headNow : Bool
  /-- Receive stamp of the latest accepted CYCLE frame. -/
  cycAt : Option Int
  /-- CYCLE_MISS has been judged in this cycle; consecutive misses (R529). -/
  judged : Bool
  misses : Nat
  /-- A stranger has raised its event in this cycle (R523). -/
  strange : Bool
  /-- Receive slots that stored, and angles received, in this cycle (R533, R545). -/
  stored : List Nat
  angs : List Nat
  reads : List SlotRd
  /-- The line is idle from this edge as far as frames and acknowledgement times go; end of the own frame (R534). -/
  idleAt : Nat
  txEnd : Nat
  tx : Option TxRec
  own : List Frm
  fwd : List Frm
  cont : Option Cont
  /-- The message channel served next. -/
  rr : Nat
  ans : List Ans
  inbox : List RxRec
  /-- The DLYREQ in flight: t1 and the edge up to which its DLYRSP counts; cycles until the next (R542). -/
  dly : Option (Int × Nat)
  dlyCnt : Nat
  role : PortRole
  /-- Edge from which the idle-counted wait of R557 runs; consecutive collided claims. -/
  waitAt : Nat
  collided : Nat
  /-- TURN: next group, whether sent in this cycle; passes without an addition; whether this pass added (R558, R559). -/
  group : Nat
  turned : Bool
  quiet : Nat
  added : Bool
  roster : List Nat
  /-- Roster members that are bridges (R560). -/
  bridges : List Nat
  complete : Bool
  /-- Registered bridges with their devices; polls of the others (R560). -/
  regs : List (Nat × List Nat)
  polls : List (Nat × Nat)
  turn : Option Turn
  joined : Bool
  /-- A late starter, which joins and answers keys by contention; its KEYRES is on its way (R565). -/
  late : Bool
  keySent : Bool
  /-- The source of the latest accepted CYCLE frame. -/
  headDev : Nat
  keyAns : List KeyAns
deriving DecidableEq, Repr

def LinePort.idle : LinePort :=
  { tc := none, headNow := false, cycAt := none, judged := false, misses := 0, strange := false, stored := [], angs := [], reads := [],
    idleAt := 0, txEnd := 0, tx := none, own := [], fwd := [], cont := none, rr := 0, ans := [], inbox := [], dly := none, dlyCnt := 0,
    role := .none, waitAt := 0, collided := 0, group := 0, turned := false, quiet := 0, added := false, roster := [], bridges := [],
    complete := false, regs := [], polls := [], turn := none, joined := false, late := false, keySent := false, headDev := 0, keyAns := [] }

/-- What the link keeper copied (R547). -/
structure Keeper where
  num : Nat
  pidx : Nat
  wken : Bool
  wksrc : Nat
  key : Option (List Nat)
  gen : Nat
  last : Nat
deriving DecidableEq, Repr

structure LineSt where
  ports : List (Nat × LinePort)
  /-- The transmit sequence counter (R520). -/
  txSeq : Nat
  /-- LAST[d] (R524). -/
  last : List (Nat × Nat)
  /-- Key values by entry (R521). -/
  keys : List (Nat × List Nat)
  keeper : Option Keeper
  /-- Edge of FORM (FORMTIME), and the outcome of the comparison of KEYCHK (R563). -/
  formAt : Nat
  keyOk : Option Bool
  /-- Barrier arrivals: ID, device, devices covered; whether this device's ARRIVE is on its way (R570). -/
  arrivals : List (Nat × Nat × Nat)
  arriveSent : Bool
  /-- Armed captures: T, ID, event (R571); the armed release (R570); the armed reset (R572); the edge of the latest time step (R573). -/
  snaps : List (Int × Nat × Nat)
  release : Option Int
  reset : Option Int
  stepAt : Option Nat
  /-- Cycles since the root repeated ROOT and KEYCHK (R565). -/
  rep : Nat
deriving DecidableEq, Repr

def LineSt.idle : LineSt :=
  { ports := [], txSeq := 1, last := [], keys := [], keeper := none, formAt := 0, keyOk := none, arrivals := [], arriveSent := false,
    snaps := [], release := none, reset := none, stepAt := none, rep := 0 }

end Sys2Proof.Machine
end

