-- ==== Sys2Proof/Machine/StMaq.lean ====
section
/-! DEFINITION. The internal state of a Maquette (chapter 09). binary32 values are bit patterns; coordinates have 16 fraction bits. -/

namespace Sys2Proof.Machine

/-- A result word in the intake queue or an input ring, with what its write edge fixes: channel, edge and device time in ns of acceptance, SPEED of its channel, the derived hold offset of R261 and the line rates. -/
structure MaqWord where
  word : DWord
  ch : Nat
  at_ : Nat
  ns : Int
  speed : Int
  age : Nat
  rates : List Int
deriving DecidableEq, Repr

/-- A kept sample: corrected coordinate, value, time of acceptance (R261). -/
structure Samp where
  phi : Int
  x : Nat
  ns : Int
deriving DecidableEq, Repr

/-- A half-band stage (R266, R271): latest inputs, newest first, and their number. -/
structure Stage where
  hist : List Nat
  cnt : Nat
deriving DecidableEq, Repr

/-- A record in progress (R268, R269, R278): first grid point, flags, times of its first and last grid point, number of points and power sums in units of 2^-149, extremes. -/
structure RecSt where
  start : Nat
  sat : Bool
  drop : Bool
  disc : Bool
  trig : Bool
  t0 : Int
  t1 : Int
  n : Nat
  s1 : Int
  s2 : Int
  s3 : Int
  s4 : Int
  mx : Int
  mn : Int
deriving DecidableEq, Repr

/-- A complete record that waits for block work: its number and its blocks (R269, R282). -/
structure DoneRec where
  slot : Nat
  no : Nat
  r : RecSt
  raw : List Nat
  env : List Nat
deriving DecidableEq, Repr

/-- Level state of one limit (R276). -/
structure LimSt where
  level : Nat
  run : Nat
  rising : Bool
deriving DecidableEq, Repr

/-- A job (R255-R276): descriptor and tables as latched, input ring, resampler, branches, records. -/
structure JobSt where
  desc : List Nat
  taps : List (Nat × Nat)
  feats : List (List Nat)
  limits : List (List Nat)
  ring : List MaqWord
  /-- Words ever written to the ring, for their places. -/
  ringNo : Nat
  /-- Stamp and unwrapped coordinate of the latest sample (R262). -/
  lastU : Option (Nat × Int)
  /-- Latest kept samples, newest first. -/
  samps : List Samp
  /-- Multiple of GRID that comes next. -/
  nextG : Option Int
  /-- Grid points formed since seeding. -/
  n : Nat
  rawSt : List Stage
  raw : List Nat
  rawNo : Nat
  tapHist : List Nat
  envSt : List Stage
  env : List Nat
  envNo : Nat
  recs : List RecSt
  armed : Bool
  recNo : Nat
  lims : List LimSt
deriving DecidableEq, Repr

def JobSt.idle : JobSt := ⟨[], [], [], [], [], 0, none, [], none, 0, [], [], 0, [], [], [], 0, [], false, 0, []⟩

/-- A frame that waits to be written (R277-R280). -/
structure FrameJob where
  slot : Nat
  exc : Bool
  bytes : List Nat
deriving DecidableEq, Repr

/-- A Maquette: intake queue with the next slot to deliver to and the edge of the latest copy (R253), jobs, frames, the datapath's next free edge, busy CCLK and number of the running millisecond (R283). -/
structure MaqSt where
  inq : List MaqWord
  slot : Nat
  lastCopy : Nat
  jobs : List (Nat × JobSt)
  /-- Complete records in order of completion (R282). -/
  done : List DoneRec
  frames : List FrameJob
  freeAt : Nat
  busy : Nat
  ms : Int
deriving DecidableEq, Repr

def MaqSt.idle : MaqSt := ⟨[], 0, 0, [], [], [], 0, 0, 0⟩

end Sys2Proof.Machine
end

