-- ==== Sys2Proof/Machine/StMem.lean ====
section
/-! DEFINITION. The state of the memories, the ECC log and the Rasp (chapter 13). The bytes themselves and the syndromes stand in State. -/

namespace Sys2Proof.Machine

/-- The memories of R389 (and the boot ROM). -/
inductive MemKind where
  | rom
  | engX
  | engY
  | engI
  | plinth
  | maq
  | ped
  | dram
deriving DecidableEq, Repr

/-- A bank of R389. -/
structure Bank where
  kind : MemKind
  inst : Nat
  bank : Nat
deriving DecidableEq, Repr

/-- One ECC log record (R411). -/
structure EccRec where
  w0 : Word
  w1 : Word
  w2 : Word
deriving DecidableEq, Repr

/-- A clear in progress or waiting: first byte, bytes, and the edge at which it ends once started (R407, R408). -/
structure ClearJob where
  base : Nat
  len : Nat
  endAt : Option Nat
deriving DecidableEq, Repr

/-- The Rasp, the ECC log and the LPDDR4 controller. -/
structure RaspSt where
  log : List EccRec
  /-- Edge of the latest push of the log, for R32. -/
  pushAt : Option Nat
  /-- Code-word address of the latest CE record pushed (R397). -/
  lastCE : Option Nat
  /-- Sweeps, the running one first, and the edge at which it ends (R402). -/
  sweeps : List Bank
  sweepEnd : Option Nat
  /-- Number of the next burst of the SRAM pass, its edge, and the edge of the latest one (R400). -/
  burst : Nat
  burstAt : Nat
  burstFrom : Option Nat
  /-- Next line of the DRAM pass and its edge (R403). -/
  line : Nat
  lineAt : Nat
  /-- Hardware clears, then the software clear (R407, R408). -/
  clears : List ClearJob
  soft : Option ClearJob
  /-- Edge 0 of the SRAM fill, the Rasp's release (R404), and whether the fill has been performed. -/
  fillAt : Option Nat
  filled : Bool
  /-- LPDDR4 regions filled out of order and the next in order; the region being filled and its end; the one suspended and the CCLK left of it; waited-for regions in order (R406). -/
  filledOut : List Nat
  nextRegion : Nat
  cur : Option (Nat × Nat)
  susp : Option (Nat × Nat)
  waited : List Nat
deriving DecidableEq, Repr

def RaspSt.idle : RaspSt := ⟨[], none, none, [], none, 0, 0, none, 0, 0, [], none, none, false, [], 0, none, none, []⟩

end Sys2Proof.Machine
end

