-- ==== Sys2Proof/Machine/StCore.lean ====
section
/-! DEFINITION. The state of one engine or Pedestal copy beyond its registers pages: activations, context store, TLB, reservation, long-operation unit, write buffer, instruction lines, a bundle that waits (chapters 10-12). Cores 0-95 are the engines, 96-98 the copies. -/

namespace Sys2Proof.Machine

/-- One activation: its slot and everything the context store keeps of it (R289, R346, R360, R363). -/
structure Act where
  slot : Nat
  level : Nat
  ctx : Nat
  tenant : Nat
  /-- The slot's ring, and the current ring. -/
  sring : Nat
  ring : Nat
  pc : Word
  d : List Word
  /-- P0-P15; P15 is the pointer of the current ring. -/
  p : List Word
  a : List Acc
  fl : Word
  crcp : Word
  b : List Word
  l : List Word
  /-- SP0-SP3 of the rings other than the current one, and all four at entry (R356, R360). -/
  sp : List Word
  sp0 : List Word
  tvec : Word
  gtab : Word
  glen : Word
  faddr : Word
  finfo : Word
  tdepth : Nat
  df : Bool
  dfret : Word
  dffl : Word
  dfinfo : Word
  /-- Held by WAIT (R351). -/
  wait : Bool
  /-- The handler's first bundle has not committed yet (R356). -/
  trapEntry : Bool
  /-- ACYC (R363): edge from which time counts, and time counted before the latest save; a copy counts bundles (R490). -/
  since : Nat
  acyc : Nat
  /-- Edge of the slot's release (R431). -/
  rel : Nat
deriving DecidableEq, Repr

/-- A TLB entry (R374, R382): tenant, page, the entry as walked, the replica's address, the copy of D. -/
structure TlbEnt where
  tenant : Nat
  /-- Virtual address of the page divided by its size, and SIZE. -/
  page : Nat
  size : Nat
  entry : Nat
  at_ : Nat
  level1 : Bool
  d : Bool
deriving DecidableEq, Repr

/-- A buffered store (R336): physical address, bytes, value, whether through a DEV leaf, and who stores. -/
structure WbEnt where
  pa : Nat
  size : Nat
  value : Nat
  dev : Bool
  tenant : Nat
  ring : Nat
deriving DecidableEq, Repr

/-- The long operation in flight (R317, R319): end edge, D registers and S it writes, the level of the activation that issued it (none when that activation ended). -/
structure LongRun where
  due : Nat
  dst : List (Nat × Word)
  sat : Bool
  level : Option Nat
deriving DecidableEq, Repr

/-- An access beyond the core's own memory (R333, R491). -/
inductive ExtKind where
  | read
  | write
  | atomic (k : AtomOp)
  | walk
  /-- The conditional OR of R381 and R382: bit 8 (A) or bit 9 (D). -/
  | mark (bit : Nat)
  /-- The store of an STCX, performed if the reservation still holds (R310). -/
  | stcx
  /-- A checkpoint of a copy (R493). -/
  | ckpt
  /-- A third fault of a copy (R493). -/
  | third
deriving DecidableEq, Repr

structure ExtAcc where
  kind : ExtKind
  pa : Nat
  size : Nat
  ring : Nat
  tenant : Nat
  data : Nat
  dev : Bool
deriving DecidableEq, Repr

/-- What such an access brought back: data, or an uncorrectable error (none), and whether it was refused. -/
structure Got where
  val : Option Nat
  bus : Bool
deriving DecidableEq, Repr

/-- What a bundle waits for. -/
inductive Need where
  /-- A table walk (R372). -/
  | walk (tenant va : Nat)
  /-- The data of an access beyond local memory (R333). -/
  | data (x : ExtAcc)
  /-- An instruction line (R338). -/
  | fill (line : Nat)
deriving DecidableEq, Repr

/-- A fault with the fields of FINFO and FADDR (R354, R355). -/
structure Flt where
  cause : Nat
  slot : Nat
  kind : Nat
  ecc : Bool
  split : Bool
  micro : Bool
  detail : Nat
  addr : Nat
deriving DecidableEq, Repr

/-- What waits: a bundle (with the elements a micro-routine may still perform) or the entry to a fault handler. -/
inductive Work where
  | bundle (b : List Syl) (limit : Nat)
  | fault (f : Flt) (ret : Word)
deriving DecidableEq, Repr

/-- A waiting bundle or fault entry: what it waits for, what earlier accesses of it brought, and the walk fault it will take (R372). -/
structure Stall where
  work : Work
  need : Need
  got : List Got
  walkFault : Option (Nat × Nat × Bool)
deriving DecidableEq, Repr

/-- Why a core is halted (R636, R640). -/
inductive HaltReason where
  | command
  | brk
  | step
deriving DecidableEq, Repr

structure Core where
  cur : Option Act
  /-- The context store, highest level first. -/
  saved : List Act
  /-- Most recently used first. -/
  tlb : List TlbEnt
  /-- Address of the reserved granule of 64 bytes (R310). -/
  resv : Option Nat
  long : Option LongRun
  /-- Oldest first. -/
  wbuf : List WbEnt
  /-- Instruction lines, most recently used first: line address, tenant context, uncorrectable (R338, R340). -/
  lines : List (Nat × Nat × Bool)
  stall : Option Stall
  halted : Option HaltReason
  /-- STEP lets one bundle through (R634). -/
  stepReq : Bool
  /-- End of a third-fault reset (R357). -/
  rst : Option Nat
  /-- Edges at which slots' counters became nonzero (R344, R431), and the edge of the latest change of the current level. -/
  arrived : List (Nat × Nat)
  changed : Nat
  /-- Power: gated since an edge, wakes at an edge (R475, R586). -/
  gated : Bool
  wakeAt : Option Nat
  idleAt : Nat
deriving DecidableEq, Repr

def Core.idle : Core := ⟨none, [], [], none, none, [], [], none, none, false, none, [], 0, false, none, 0⟩

/-- A TLB invalidation (R385): operation, tenant, address, edge at which it started, and the cores that held covered entries once they are removed. -/
structure InvCmd where
  op : Nat
  tenant : Nat
  va : Nat
  started : Option Nat
  cores : List Nat
deriving DecidableEq, Repr

end Sys2Proof.Machine
end

