-- ==== Sys2Proof/Machine/StPed.lean ====
section
/-! DEFINITION. The Pedestal's comparator, exchange, voter and rebuild (chapter 17) beyond its registers. -/

namespace Sys2Proof.Machine

/-- One compared access (R491, R493): the accesses the copies issued, and what its performance brought and when. -/
structure CmpEnt where
  issued : List (Nat × ExtAcc)
  /-- The agreed access, its result and the edge of its performance. -/
  done : Option (ExtAcc × Got × Nat)
deriving DecidableEq, Repr

/-- One batch of the agreement exchange (R497): event IDs with their tenants' tags dropped, edge of arrival, target, copies that have applied it. -/
structure Batch where
  ids : List Nat
  at_ : Nat
  target : Option Nat
  applied : List Nat
deriving DecidableEq, Repr

/-- A rebuild (R505): copy, source, step 1-4, end edge of the step, the freeze target. -/
structure Rebuild where
  copy : Nat
  src : Nat
  step : Nat
  due : Nat
  target : Option Nat
deriving DecidableEq, Repr

/-- Per copy: request latches, IC, SIG, slot registers (key 4 s + k), and how many accesses it has issued. -/
structure CopySt where
  req0 : Word
  req1 : Word
  ic : Nat
  sig : Nat
  slots : List (Nat × Word)
  issued : Nat
deriving DecidableEq, Repr

def CopySt.idle : CopySt := ⟨0#32, 0#32, 0, 0, [], 0⟩

structure PedSt where
  copies : List CopySt
  /-- Number of the first compared access kept, and the ones kept. -/
  base : Nat
  queue : List CmpEnt
  batches : List Batch
  lastTarget : Nat
  rebuild : Option Rebuild
  /-- Copies that wait for a rebuild. -/
  waiting : List Nat
  /-- Edge of the latest performed checkpoint (R496), and whether its timeout holds the voter. -/
  ckptAt : Nat
  stalled : Bool
  /-- Copy whose lock-step the debug port broke (R508). -/
  broken : Option Nat
  /-- The SAFE pair: level of SAFEA and edge of its next toggle while voted SAFE is 1 (R503). -/
  safeA : Bool
  safeAt : Option Nat
  /-- No request has been voted since reset or restart (R511). -/
  fresh : Bool
  /-- Start of the clear after a restart (R598); the copies run the boot ROM (R595). -/
  clearAt : Option Nat
  rom : Bool
deriving DecidableEq, Repr

def PedSt.idle : PedSt :=
  ⟨[CopySt.idle, CopySt.idle, CopySt.idle], 0, [], [], 0, none, [], 0, false, none, false, none, true, none, true⟩

end Sys2Proof.Machine
end

