-- ==== Sys2Proof/Machine/StPlatform.lean ====
section
/-! DEFINITION. The state of power, clocks, reset and boot (chapter 20) beyond their registers. Edges are counted in units of 1.25 ns also while CCLK does not run. -/

namespace Sys2Proof.Machine

/-- The power states of R581; `start` while a reset and the start-up of R594 are in progress. -/
inductive Power where
  | off
  | start
  | run
  | doze
  | watch
  | shelf
deriving DecidableEq, Repr

/-- What start-up waits for (R592, R594). -/
inductive StartStep where
  /-- The 33 island ticks before CORE_EN. -/
  | aon
  /-- VCORE good, then 100 µs. -/
  | core
  /-- The other rails. -/
  | rails
  | osc
  | pll
  | fuses
  /-- RESET_N rising. -/
  | pin
  /-- The wait with rails dropped after BROWNOUT and OVERTEMP. -/
  | wait
  | none
deriving DecidableEq, Repr

/-- A WATCH or SHELF entry (R584): its target, the edge of GO, how many of its timed steps are done. -/
structure DownSt where
  target : Power
  at_ : Nat
  step : Nat
deriving DecidableEq, Repr

/-- Boot (R595-R597): the sources left, the one in use, the image bytes it brought, BOOTWAIT, the edge its timeout runs from, and whether a word has come. -/
structure BootSt where
  sources : List Nat
  cur : Option Nat
  img : Option (List Nat)
  wait : Bool
  from_ : Nat
  got : Bool
  bytes : List Nat
deriving DecidableEq, Repr

def BootSt.idle : BootSt := ⟨[], none, none, false, 0, false, []⟩

structure PlatSt where
  power : Power
  step : StartStep
  /-- Edge from which the step's time runs. -/
  from_ : Nat
  /-- Release of the always-on island (AONTICK). -/
  porAt : Nat
  coreEn : Bool
  ioEn : Bool
  down : Option DownSt
  /-- A DOZE entry is in progress. -/
  dozing : Bool
  /-- The CMP4 arms the island copied: channel, LO, HI (R134). -/
  arms : List (Nat × Nat × Nat)
  /-- The part's fuses: 10 words (R601), and the end of a programming. -/
  fuses : List Word
  pgm : Option Nat
  /-- XMODE as sampled. -/
  xmode : Bool
  /-- The crystal of the island is valid; VAON is at or above 1.62 V (R579, R135). -/
  x32 : Bool
  watchOk : Bool
  /-- Edge at which the latest reset began (R593). -/
  resetAt : Option Nat
  boot : BootSt
deriving DecidableEq, Repr

def PlatSt.idle : PlatSt :=
  { power := .off, step := .none, from_ := 0, porAt := 0, coreEn := false, ioEn := false, down := none, dozing := false, arms := [],
    fuses := List.replicate 10 0#32, pgm := none, xmode := false, x32 := false, watchOk := false, resetAt := none, boot := BootSt.idle }

end Sys2Proof.Machine
end

