-- ==== Sys2Proof/Machine/State.lean ====
section
/-! DEFINITION. State, Fault, Refusal and State.reset. -/

namespace Sys2Proof.Machine

/-- The device has no fault that stops it: what it calls faults (R354) are entered by its engines, and what it refuses is captured in a register, so no command ends in one. -/
inductive Fault where
deriving DecidableEq, Repr

/-- Why a command has no effect at all. -/
inductive Refusal where
  /-- Raised by no meaning: the name of a command that would have none. Safe. -/
  | notModelled (mnemonic : String)
  /-- Raised by every meaning with operands (Instr.wf): the command names an instance the device does not have, or a value wider than what it is written to, so that nothing can send it. Safe. -/
  | noSuchInstance
deriving DecidableEq, Repr

/-- The machine. Registers, memory, channels, Maquettes and cores are kept as sparse tables in canonical form (twf): an unlisted key has its reset value. -/
structure State where
  /-- Number of the CCLK edge, since the model began. -/
  now : Nat
  /-- Edge of the latest reset release; a multiple of 8. -/
  rel : Nat
  /-- What happened at the latest edge (R23). -/
  edge : EdgeLog
  /-- The model's own: how many free values have been taken (log 5). -/
  fresh : Nat
  /-- Answer and data of the latest access. -/
  answer : Answer
  data : DWord
  regs : List (Nat × Word)
  live : List (Nat × Word)
  pages : List (Nat × PageSt)
  held : List Held
  flight : List Flight
  chans : List (Nat × ChanSt)
  cal : CalSt
  maqs : List (Nat × MaqSt)
  mem : List (Nat × Byte)
  synds : List (Nat × Nat)
  rasp : RaspSt
  cores : List (Nat × Core)
  invs : List InvCmd
  ped : PedSt
  arm : ArmSt
  scans : List Scan
  dwPend : Option DwPend
  mbox : List (Nat × MboxSt)
  line : LineSt
  plat : PlatSt
  host : HostSt
  /-- The commands that wait, the first in front. -/
  pending : List Instr
deriving DecidableEq, Repr

/-- The device before power: PORST_N low (R581). -/
def State.reset : State :=
  { now := 0, rel := 0, edge := ⟨0, [], [], [], [], []⟩, fresh := 0, answer := .ok, data := 0#64, regs := [], live := [], pages := [],
    held := [], flight := [], chans := [], cal := CalSt.idle, maqs := [], mem := [], synds := [], rasp := RaspSt.idle, cores := [],
    invs := [], ped := PedSt.idle, arm := ArmSt.idle, scans := [], dwPend := none, mbox := [], line := LineSt.idle, plat := PlatSt.idle,
    host := HostSt.idle, pending := [] }

end Sys2Proof.Machine
end

