-- ==== Sys2Proof/Machine/Ops.lean ====
section
/-! DEFINITION. The operations every family shares: pages and their identity (R42-R48), register fields with the access classes (R22) and the same-cycle rule (R23), the page header (R25-R30), ownership (R35-R38), events (R29, R48, R60-R65, R661), the clock, free values. -/

namespace Sys2Proof.Machine

/-- A register page (R45, R46): base address, block code of RegMap, KIND, INSTANCE, TYPE. -/
structure Page where
  base : Nat
  blk : Nat
  kind : Nat
  inst : Nat
  type : Nat
deriving DecidableEq, Repr

/-- R46: block code, first page and number of pages, KIND of every device-wide block. -/
def devBlocks : List (Nat × Nat × Nat × Nat) := [
  (0x20, 0x000, 1, 2), (0x21, 0x001, 1, 1), (0x22, 0x002, 1, 1), (0x23, 0x003, 1, 1), (0x24, 0x004, 1, 1), (0x25, 0x005, 1, 1),
  (0x300, 0x008, 1, 2), (0x301, 0x009, 1, 2), (0x302, 0x00A, 1, 2), (0x303, 0x00B, 1, 2), (0x31, 0x010, 16, 2),
  (0x40, 0x020, 12, 0), (0x41, 0x030, 12, 1), (0x42, 0x040, 96, 1), (0x43, 0x0A0, 96, 2),
  (0x500, 0x100, 1, 2), (0x501, 0x101, 1, 2), (0x502, 0x102, 1, 2), (0x503, 0x103, 1, 2),
  (0x51, 0x110, 1, 1), (0x52, 0x111, 1, 1), (0x53, 0x112, 1, 1), (0x54, 0x118, 1, 1), (0x55, 0x119, 1, 1), (0x60, 0x120, 1, 1),
  (0x61, 0x140, 8, 2), (0x62, 0x148, 4, 2), (0x63, 0x14C, 1, 2), (0x70, 0x150, 4, 1), (0x71, 0x154, 1, 1), (0x72, 0x158, 1, 1),
  (0x80, 0x160, 2, 0), (0x81, 0x162, 1, 1), (0x82, 0x163, 1, 1), (0x83, 0x164, 1, 0), (0x84, 0x168, 1, 1), (0x85, 0x169, 1, 1), (0x86, 0x170, 1, 2)]

/-- The device-wide page `n` of R46, from a list of blocks. -/
def devPageAt (n : Nat) : List (Nat × Nat × Nat × Nat) → Option Page
  | [] => none
  | (b, f, k, kd) :: r =>
    if f ≤ n ∧ n < f + k then
      some { base := Reg.devPage n, blk := b,
             kind := if b = 0x61 ∧ n = 0x140 then 1 else kd,
             inst := if 0x100 ≤ b then b % 16 else n - f,
             type := if 0x100 ≤ b then b / 16 else b }
    else devPageAt n r

/-- The page at a 4 KiB base, if R45 or R46 lists one. -/
def pageAt (base : Nat) : Option Page :=
  if base % 4096 ≠ 0 then none
  else if 0x40000000 ≤ base ∧ base < 0x40300000 then
    let c := (base - 0x40000000) / 0x10000
    let p := (base / 4096) % 16
    if p < 12 then some { base := base, blk := p + 1, kind := 0, inst := c, type := p + 1 } else none
  else if 0x41000000 ≤ base ∧ base < 0x41200000 then devPageAt ((base - 0x41000000) / 4096) devBlocks
  else none

/-- The reset value of the word at an address of register space (R22, the register tables, R186 and R210 for AUTO, R388, R468 for the two registers whose element 0 differs). -/
def regReset (a : Nat) : Word :=
  match pageAt (a - a % 4096) with
  | none => 0#32
  | some p =>
    if a % 4096 = 0x1C then (if p.blk = 9 ∨ p.blk = 11 then 0x10#32 else 0#32)
    else if a % 4096 < 0x40 then 0#32
    else if p.blk = 0x55 ∧ a % 4096 = 0x400 then 0x80000000#32
    else if p.blk = 0x60 ∧ a % 4096 = 0x400 then 32#32
    else match rowAt (blockRows p.blk) (a % 4096) with
      | some r => r.reset
      | none => 0#32

/-- The register at an address (the shadow copy of an SH field). -/
def State.reg (s : State) (a : Nat) : Word := tget regReset s.regs a

/-- Store a register. -/
def State.setReg (s : State) (a : Nat) (v : Word) : State := { s with regs := tput regReset s.regs a v }

/-- The live copy of an SH register (R22, R25). -/
def State.lreg (s : State) (a : Nat) : Word := tget regReset s.live a

/-- Store a live copy. -/
def State.setLive (s : State) (a : Nat) (v : Word) : State := { s with live := tput regReset s.live a v }

/-- Field `hi:lo` of a register. -/
def State.f (s : State) (a hi lo : Nat) : Nat := bitsOf (s.reg a).toNat hi lo

/-- Bit `i` of a register. -/
def State.b (s : State) (a i : Nat) : Bool := bitOf (s.reg a).toNat i

/-- Field `hi:lo` of a live copy. -/
def State.lf (s : State) (a hi lo : Nat) : Nat := bitsOf (s.lreg a).toNat hi lo

/-- Set field `hi:lo` of a register. -/
def State.setF (s : State) (a hi lo v : Nat) : State := s.setReg a (BitVec.ofNat 32 (putBits (s.reg a).toNat hi lo v))

/-- Hidden state of a page. -/
def State.page (s : State) (b : Nat) : PageSt := tget (fun _ => PageSt.idle) s.pages b

def State.setPage (s : State) (b : Nat) (p : PageSt) : State := { s with pages := tput (fun _ => PageSt.idle) s.pages b p }

/-- Hidden state of a channel. -/
def State.ch (s : State) (c : Nat) : ChanSt := tget (fun _ => ChanSt.idle) s.chans c

def State.setCh (s : State) (c : Nat) (x : ChanSt) : State := { s with chans := tput (fun _ => ChanSt.idle) s.chans c x }

/-- The level at pin `k` of CHAN[c].PINS, which shows the pins whatever uses them (R58). -/
def State.setPin (s : State) (c k : Nat) (lvl : Bool) : State := s.setCh c { s.ch c with pins := putBits (s.ch c).pins k k (b2n lvl) }

/-- Advance the clock to edge `t`; time never runs back. -/
def State.moveTo (s : State) (t : Nat) : State := { s with now := if s.now < t then t else s.now }

/-- The first edge at or after `t` that is a multiple of `m` CCLK (ACLK edges: m = 8). -/
def alignUp (m t : Nat) : Nat := (t + (m - 1)) / m * m

/-- The first such edge after `t`. -/
def nextEdge (m t : Nat) : Nat := (t / m + 1) * m

/-- Take a free value (log 5). -/
def State.takeFree (s : State) (site : Nat) : Nat × State := (Config.free site s.fresh, { s with fresh := s.fresh + 1 })

/-- Quotient whose rounding the manual leaves open (log 6): floor, or floor plus 1 when inexact. -/
def openDiv (site : Nat) (a b : Int) : Int :=
  if a % b = 0 then a / b else if Config.roundUp site a b then a / b + 1 else a / b

/-- Nearest quotient where the manual says "rounded" and states no rule for ties (log 6); the divisor is positive. -/
def nearOpen (site : Nat) (a b : Int) : Int :=
  if 2 * (a % b) < b then a / b else if b < 2 * (a % b) then a / b + 1
  else if Config.roundUp site a b then a / b + 1 else a / b

/-- What happened at this edge so far; empty at a new edge (R23). -/
def State.log (s : State) : EdgeLog := if s.edge.at_ = s.now then s.edge else ⟨s.now, [], [], [], [], []⟩

/-- Hardware sets W1C bits (R22); a software clear at the same edge will lose against it (R23). -/
def State.hwSet (s : State) (a : Nat) (bits : Word) : State :=
  let l := s.log
  { s.setReg a (s.reg a ||| bits) with edge := { l with hw := (a, bits ||| (l.hw.lookup a).getD 0#32) :: l.hw } }

/-- Hardware updates an RW field; a software write of the same edge stands (R23). -/
def State.hwUpd (s : State) (a hi lo v : Nat) : State :=
  if (s.log.sw.lookup a).isSome then s else s.setF a hi lo v

/-- A store to RW or SH fields: the value before the edge is remembered for R23. -/
def State.swStore (s : State) (a : Nat) (v : Word) : State :=
  let l := s.log
  { s.setReg a v with edge := { l with sw := if (l.sw.lookup a).isSome then l.sw else (a, s.reg a) :: l.sw } }

/-- Field `hi:lo` of a word with `n` added, wrapping or saturating (R22). -/
def addField (w : Word) (hi lo n : Nat) (sat : Bool) : Word :=
  let v := bitsOf w.toNat hi lo + n
  let top := 2 ^ (hi + 1 - lo)
  BitVec.ofNat 32 (putBits w.toNat hi lo (if sat then satN (top - 1) v else v % top))

/-- Hardware adds `n` to a CNT field, wrapping or saturating (R22); remembered so that a software load of the same edge receives it (R23). -/
def State.cntAdd (s : State) (a hi lo n : Nat) (sat : Bool) : State :=
  let l := s.log
  { s.setReg a (addField (s.reg a) hi lo n sat) with edge := { l with inc := ⟨a, hi, lo, n, sat⟩ :: l.inc } }

/-- A value software loads into a CNT register, with the increments of the same edge applied (R23). -/
def State.loaded (s : State) (a : Nat) (v : Word) : Word :=
  (s.log.inc.filter (fun i => i.addr == a)).foldl (fun w i => addField w i.hi i.lo i.n i.sat) v

/-- Hardware loads an RC field; a software read of the same edge returns the value before (R23). -/
def State.hwLoadRC (s : State) (a hi lo v : Nat) : State :=
  let l := s.log
  { s.setF a hi lo v with edge := { l with rc := if (l.rc.lookup a).isSome then l.rc else (a, s.reg a) :: l.rc } }

/-- Put an event wave in flight. -/
def State.fly (s : State) (id due : Nat) (sc : Scope) (tag : Option Nat) : State :=
  { s with flight := s.flight ++ [⟨id, due, sc, tag⟩] }

/-- Raise an event of a device-wide block: every consumer 5 CCLK later (R661). -/
def State.raiseDev (s : State) (id : Nat) (tag : Option Nat) : State := s.fly id (s.now + 5) .all tag

/-- The tenant that owns channel `c` (R38). -/
def State.chOwner (s : State) (c : Nat) : Nat := s.f (Reg.CHAN.page c + 4) 8 0

/-- Raise event `id` of channel `c` in its three waves (R62). -/
def State.raiseChan (s : State) (c id : Nat) : State :=
  let tag := some (s.chOwner c)
  ((s.fly id s.now (.slice c) tag).fly id (s.now + 1) (.home (c / 4)) tag).fly id (s.now + 5) (.rest c) tag

/-- Raise channel event `off` (12-31) while its EVTEN bit is 1 (R60, R61). -/
def State.chanEvent (s : State) (c off : Nat) : State :=
  if s.b (Reg.CHAN.EVTEN c) off then s.raiseChan c (c * 32 + off) else s

/-- The tenant that owns a software event (R64, R65). -/
def State.swOwner (s : State) (id : Nat) : Nat := s.f (Reg.EVT.SWOWN ((id - 0x800) / 32)) 8 0

/-- Raise a software event (R65), once in a cycle (R480); an ID below 0x800 is not one and raises nothing. -/
def State.raiseSw (s : State) (id : Nat) : State :=
  if 0x800 ≤ id ∧ !s.flight.any (fun f => f.id == id && f.due == s.now + 5 && f.scope == .all) then s.raiseDev id (some (s.swOwner id)) else s

/-- The page event of a page and the tenant it is delivered to beside T0 (R48, R60). -/
def State.pageEvent (s : State) (p : Page) : Nat × Option Nat :=
  let own := some (s.f (p.base + 4) 8 0)
  let t0 := some 0
  if p.blk ≤ 12 then (p.inst * 32 + (p.blk - 1), own)
  else if p.blk = 0x20 then (0x7FD, t0) else if p.blk = 0x21 then (0x7F0, t0) else if p.blk = 0x22 then (0x7F1, t0)
  else if p.blk = 0x23 then (0x7F2, t0) else if p.blk = 0x24 then (0x7F3, t0) else if p.blk = 0x25 then (0x7F4, t0)
  else if p.blk = 0x85 then (0x7F5, t0) else if p.type = 0x30 then (0x6EC + p.inst, t0) else if p.blk = 0x31 then (0x6F0 + p.inst, t0)
  else if p.blk = 0x40 then (0x760 + p.inst, own) else if p.blk = 0x41 then (0x7E4 + p.inst, t0) else if p.blk = 0x42 then (0x7D0 + p.inst / 8, t0)
  else if p.blk = 0x43 then (0x7FB, t0) else if p.type = 0x50 then (0x7DC + p.inst, t0) else if p.blk = 0x53 then (0x7E0, t0)
  else if p.blk = 0x51 then (0x7E1, t0) else if p.blk = 0x52 then (0x7E2, t0) else if p.blk = 0x86 then (0x7E3, t0)
  else if p.blk = 0x54 then (0x7CF, t0) else if p.blk = 0x55 then (0x7C2, t0) else if p.blk = 0x60 then (0x7C3, t0)
  else if p.blk = 0x61 then (0x7C4 + p.inst, t0) else if p.blk = 0x62 then (0x7CC, t0) else if p.blk = 0x63 then (0x7CD, t0)
  else if p.blk = 0x72 then (0x7CE, t0) else if p.blk = 0x70 then (0x780 + 16 * p.inst + 12, t0) else if p.blk = 0x71 then (0x7BF, t0)
  else if p.blk = 0x80 then (0x7F6 + p.inst, own) else if p.blk = 0x81 then (0x7F8, t0) else if p.blk = 0x82 then (0x7F9, t0)
  else if p.blk = 0x83 then (0x7FA, own) else (0x7FC, t0)

/-- Raise a page's event, once in a cycle (R29, R48). -/
def State.raisePage (s : State) (base : Nat) : State :=
  match pageAt base with
  | none => s
  | some p =>
    let ev := s.pageEvent p
    let l := s.log
    if l.ev.contains ev then s
    else
      let s := { s with edge := { l with ev := ev :: l.ev } }
      if p.blk ≤ 12 then s.raiseChan p.inst ev.1 else s.raiseDev ev.1 ev.2

/-- Hardware sets PAGE_STAT bits; the page event follows R29. -/
def State.setStat (s : State) (base : Nat) (bits : Word) : State :=
  let newBits := bits &&& ~~~(s.reg (base + 0xC))
  let s' := s.hwSet (base + 0xC) bits
  if newBits &&& s.reg (base + 0x10) = 0#32 then s' else s'.raisePage base

/-- One PAGE_STAT bit by number. -/
def State.setStatBit (s : State) (base i : Nat) : State := s.setStat base (BitVec.ofNat 32 (2 ^ i))

/-- First-error capture (R30). PAGE_ERR.CODE has 7 bits; a code of 0x80 or more keeps its low 7 bits (log 8). -/
def State.capture (s : State) (base code info : Nat) : State :=
  let e := base + 0x18
  if s.b e 31 then (s.cntAdd e 23 20 1 true).setStatBit base 31
  else
    (s.setReg e (BitVec.ofNat 32 (0x80000000 + (code % 128) * 0x1000000 + s.f e 23 20 * 0x100000 + info % 0x100000))).setStatBit base 31

/-- PAGE_CTRL.EN of a page. -/
def State.en (s : State) (base : Nat) : Bool := s.b (base + 8) 0

/-- The block has no power: PWRPOL OFF, or not yet released after it (R27, R588). -/
def State.off (s : State) (base : Nat) : Bool := s.f (base + 8) 5 4 == 3 || (s.page base).releasing

/-- The block performs its function: EN is 1 and it has power (R27). -/
def State.runs (s : State) (base : Nat) : Bool := s.en base && !s.off base

/-- Offsets of the SH registers of a block. -/
def shOffsets (blk : Nat) : List (Nat × Word) :=
  (blockRows blk).flatMap (fun r => if r.sh = 0#32 then [] else (List.range r.count).map (fun k => (r.off + r.stride * k, r.sh)))

/-- One transfer of every SH field of a page from shadow to live (R25). A shadow written at this edge gives its value from before the write (R23). -/
def State.transfer (s : State) (base : Nat) : State :=
  match pageAt base with
  | none => s
  | some p =>
    let l := s.log
    (shOffsets p.blk).foldl (fun t om =>
      t.setLive (base + om.1) (((l.sw.lookup (base + om.1)).getD (s.reg (base + om.1))) &&& om.2)) s

/-- A boundary of the page: transfer under AUTO or a pending ARM written at an earlier edge (R25, R26). -/
def State.boundary (s : State) (base : Nat) : State :=
  let armed := match (s.page base).armedAt with
    | some t => decide (t < s.now)
    | none => false
  let s1 := if s.b (base + 0x1C) 4 || armed then s.transfer base else s
  if armed then (s1.setPage base { s1.page base with armedAt := none }).setF (base + 0x1C) 8 8 0 else s1

/-- Every register and live copy of a page from 0x040 upward returns to its reset value (R28). -/
def State.clearBlock (s : State) (base : Nat) : State :=
  { s with regs := tclear (base + 0x40) (base + 0x1000) s.regs, live := tclear (base + 0x40) (base + 0x1000) s.live }

/-- Tenant `t` exists (R446). -/
def State.tenantExists (s : State) (t : Nat) : Bool := t == 0 || s.b (Reg.TENANT.TCFG t) 31

/-- The page check of R36 (R446 for tenants that do not exist). -/
def State.accessOk (s : State) (rq : Rq) (p : Page) : Bool :=
  if rq.ring = 0 then true
  else if !s.tenantExists rq.tenant then false
  else if p.kind = 0 then s.f (p.base + 4) 8 0 == rq.tenant
  else p.kind == 2

/-- The address is a register of space R45-R46. -/
def isRegAddr (a : Nat) : Bool := (0x40000000 ≤ a && a < 0x40300000) || (0x41000000 ≤ a && a < 0x41200000)

end Sys2Proof.Machine
end

