-- ==== Sys2Proof/Machine/Mem.lean ====
section
/-! DEFINITION. The memories: regions (R44, R389), the codes (R391, R392), reads and writes with correction and reports (R393-R397), the flip test (R409). -/

namespace Sys2Proof.Machine

/-- Usable bytes of the LPDDR4 (R399, R412): 7/8 of SIZE. -/
def State.dramUsable (s : State) : Nat :=
  let z := s.f Reg.DRAM.CFG 2 0
  if z = 0 ∨ 4 < z then 0 else 2 ^ (z - 1) * 939524096

/-- The LPDDR4 answers: trained, and not failed (R398, R412). -/
def State.dramOn (s : State) : Bool := s.b Reg.DRAM.STATUS 31 && !s.b Reg.DRAM.STATUS 29

/-- The memory at a physical address: kind, instance, first byte (R44). -/
def State.memAt (s : State) (pa : Nat) : Option (MemKind × Nat × Nat) :=
  if pa < 0x10000 then some (.rom, 0, 0)
  else if 0x60000000 ≤ pa ∧ pa < 0x61800000 then
    let e := (pa - 0x60000000) / 0x40000
    let b := 0x60000000 + e * 0x40000
    let o := pa - b
    if o < 0x10000 then some (.engX, e, b) else if o < 0x20000 then some (.engY, e, b + 0x10000)
    else if o < 0x28000 then some (.engI, e, b + 0x20000) else none
  else if 0x80000000 ≤ pa ∧ pa < 0x81800000 then some (.plinth, (pa - 0x80000000) / 0x200000, pa - (pa - 0x80000000) % 0x200000)
  else if 0xC0000000 ≤ pa ∧ pa < 0xC0600000 then some (.maq, (pa - 0xC0000000) / 0x80000, pa - (pa - 0xC0000000) % 0x80000)
  else if 0xD0000000 ≤ pa ∧ pa < 0xD0180000 then some (.ped, (pa - 0xD0000000) / 0x80000, pa - (pa - 0xD0000000) % 0x80000)
  else if 0x1000000000 ≤ pa ∧ pa < 0x1000000000 + s.dramUsable ∧ s.dramOn then some (.dram, 0, 0x1000000000)
  else none

/-- Size of one instance of a memory. -/
def State.memSize (s : State) : MemKind → Nat
  | .rom => 0x10000
  | .engX => 0x10000
  | .engY => 0x10000
  | .engI => 0x8000
  | .plinth => 0x200000
  | .maq => 0x80000
  | .ped => 0x80000
  | .dram => s.dramUsable

/-- Bytes of a code word (R389). -/
def wordBytes : MemKind → Nat
  | .engX => 4
  | .engY => 4
  | .ped => 4
  | _ => 8

/-- The bank of an address (R389). -/
def bankOf (k : MemKind) (i pa : Nat) : Bank :=
  match k with
  | .engX => ⟨k, i, bitsOf pa 2 2⟩
  | .engY => ⟨k, i, bitsOf pa 2 2⟩
  | .engI => ⟨k, i, bitsOf pa 3 3⟩
  | .plinth => ⟨k, i, bitsOf pa 7 5⟩
  | .maq => ⟨k, i, bitsOf pa 6 5⟩
  | .ped => ⟨k, i, bitsOf pa 2 2⟩
  | _ => ⟨k, i, 0⟩

/-- The 8-bit values of weight `n`, ascending (R391). -/
def weightVals (n : Nat) : List Nat := (List.range 256).filter (fun v => popcount 8 v == n)
def V3 : List Nat := weightVals 3
def V5 : List Nat := weightVals 5

/-- Column of data bit `i` (R391). -/
def dataCol (i : Nat) : Nat := if i < 56 then lget 0 V3 i else lget 0 V5 (i - 56)
/-- Column of address bit `n` for a word of `w` bytes, if the code covers it (R391). -/
def addrCol (w n : Nat) : Option Nat :=
  if w = 8 then (if 3 ≤ n ∧ n ≤ 39 then some (lget 0 V5 (n + 5)) else none)
  else if 2 ≤ n ∧ n ≤ 25 then some (lget 0 V3 (n + 30))
  else if 26 ≤ n ∧ n ≤ 39 then some (lget 0 V5 (n - 26))
  else none
/-- Exclusive or of the columns of the data bits at 1 in `d`. -/
def dataCols (n d : Nat) : Nat := (List.range n).foldl (fun x i => if bitOf d i then Nat.xor x (dataCol i) else x) 0
/-- Exclusive or of the columns of the address bits at 1. -/
def addrCols (w pa : Nat) : Nat := (List.range 40).foldl (fun x i => if bitOf pa i then Nat.xor x ((addrCol w i).getD 0) else x) 0
/-- The check byte of a word (R391). -/
def checkByte (w pa d : Nat) : Nat := Nat.xor (dataCols (8 * w) d) (addrCols w pa)

/-- The classes of R392. -/
inductive EccClass where
  | clean
  | ce
  | address
  | double
  | multi
deriving DecidableEq, Repr

def EccClass.code : EccClass → Nat
  | .clean => 0
  | .ce => 1
  | .address => 2
  | .double => 3
  | .multi => 4

/-- The data bit whose column is the syndrome. -/
def dataBitOf (w synd : Nat) : Option Nat := (List.range (8 * w)).find? (fun i => dataCol i == synd)

/-- Class of a syndrome for a word of `w` bytes (R392). -/
def eccClass (w synd : Nat) : EccClass :=
  if synd = 0 then .clean
  else if popcount 8 synd = 1 ∨ (dataBitOf w synd).isSome then .ce
  else if (List.range 40).any (fun n => addrCol w n == some synd) then .address
  else if popcount 8 synd % 2 = 0 then .double
  else .multi

/-- One byte as stored; what no write has touched reads 0 (R404, log 3). -/
def State.byte (s : State) (a : Nat) : Byte := tget (fun _ => 0#8) s.mem a
def State.setByte (s : State) (a : Nat) (v : Byte) : State := { s with mem := tput (fun _ => 0#8) s.mem a v }

/-- `n` bytes as stored, little-endian (R13). -/
def State.raw (s : State) (a : Nat) : Nat → Nat
  | 0 => 0
  | n + 1 => (s.byte a).toNat + 256 * s.raw (a + 1) n
/-- Store `n` bytes, little-endian. -/
def State.setRaw (s : State) (a v : Nat) : Nat → State
  | 0 => s
  | n + 1 => (s.setByte a (BitVec.ofNat 8 v)).setRaw (a + 1) (v / 256) n

/-- The syndrome a read of the code word at `a` forms (R391). -/
def State.synd (s : State) (a : Nat) : Nat := tget (fun _ => 0) s.synds a
def State.setSynd (s : State) (a v : Nat) : State := { s with synds := tput (fun _ => 0) s.synds a v }

/-- Who reads or writes, for the log of R411. -/
structure MemRq where
  tenant : Nat
  agent : Nat
  kind : Nat
deriving DecidableEq, Repr

/-- The BANKSTAT bit of a bank: plinth page instance and bit (R413). -/
def bankStat (b : Bank) : Option (Nat × Nat) :=
  match b.kind with
  | .plinth => some (b.inst, 8 + b.bank)
  | .maq => some (b.inst, 20 + b.bank)
  | .engX => some (b.inst / 8, 24 + b.inst % 8)
  | .engY => some (b.inst / 8, 24 + b.inst % 8)
  | .engI => some (b.inst / 8, 24 + b.inst % 8)
  | _ => none

/-- Show the sweeping banks in BANKSTAT (R402, R413). -/
def showSweep (b : Bank) (s : State) : State :=
  match bankStat b with
  | none => s
  | some (p, i) =>
    let on := s.rasp.sweepEnd.isSome && s.rasp.sweeps.head?.any (fun x => bankStat x == some (p, i))
    s.setF (Reg.PLINTH.BANKSTAT p) i i (b2n on)

/-- Words of a bank (R402). -/
def bankWords : MemKind → Nat
  | .engX => 8192
  | .engY => 8192
  | .engI => 2048
  | .plinth => 32768
  | .maq => 16384
  | _ => 65536

/-- An error met by a requester queues a sweep of its bank (R402). -/
def sweepCause (b : Bank) (s : State) : State :=
  let r := s.rasp
  if s.b Reg.RASP.CTL 2 ∧ b.kind ≠ .dram ∧ b.kind ≠ .rom ∧ ¬r.sweeps.contains b then { s with rasp := { r with sweeps := r.sweeps ++ [b] } } else s

/-- The per-memory counters of R413. -/
def eccCount (b : Bank) (ce : Bool) (s : State) : State :=
  match b.kind with
  | .plinth => if ce then s.cntAdd (Reg.PLINTH.CECNT b.inst b.bank) 31 0 1 true else s.cntAdd (Reg.PLINTH.UECNT b.inst) 31 0 1 true
  | .maq => if ce then s.cntAdd (Reg.PLINTH.MAQERR b.inst) 15 0 1 true else s.cntAdd (Reg.PLINTH.MAQERR b.inst) 31 16 1 true
  | .engX => if ce then s.cntAdd (Reg.PLINTH.ENGERR (b.inst / 8) (b.inst % 8)) 15 0 1 true else s.cntAdd (Reg.PLINTH.ENGERR (b.inst / 8) (b.inst % 8)) 31 16 1 true
  | .engY => if ce then s.cntAdd (Reg.PLINTH.ENGERR (b.inst / 8) (b.inst % 8)) 15 0 1 true else s.cntAdd (Reg.PLINTH.ENGERR (b.inst / 8) (b.inst % 8)) 31 16 1 true
  | .engI => if ce then s.cntAdd (Reg.PLINTH.ENGERR (b.inst / 8) (b.inst % 8)) 15 0 1 true else s.cntAdd (Reg.PLINTH.ENGERR (b.inst / 8) (b.inst % 8)) 31 16 1 true
  | _ => s

/-- Push an ECC record (R397). -/
def eccPush (rq : MemRq) (pa : Nat) (cl : EccClass) (synd : Nat) (s : State) : State :=
  let r := s.rasp
  let pg := Reg.ECC.page
  if cl = .ce ∧ r.lastCE = some pa then s.cntAdd Reg.ECC.CECNT 31 0 1 true
  else
    let rec_ : EccRec := ⟨BitVec.ofNat 32 pa, BitVec.ofNat 32 (cl.code * 2 ^ 29 + synd * 2 ^ 16 + pa / 2 ^ 32), BitVec.ofNat 32 (rq.tenant * 2 ^ 23 + rq.kind * 2 ^ 16 + rq.agent)⟩
    let s :=
      if r.log.length < 32 then { s with rasp := { r with log := r.log ++ [rec_], pushAt := some s.now, lastCE := if cl = .ce then some pa else r.lastCE } }
      else ((s.cntAdd Reg.ECC.LOGDROP 31 0 1 true).setStatBit pg 3).capture pg 0x03 0x48
    let s := s.setF Reg.ECC.LOGLVL 5 0 s.rasp.log.length
    if cl = .ce then (s.cntAdd Reg.ECC.CECNT 31 0 1 true).setStatBit pg 0
    else
      let s := (s.cntAdd Reg.ECC.UECNT 31 0 1 true).setStatBit pg 1
      if cl = .address then (s.cntAdd Reg.ECC.ADRCNT 31 0 1 true).setStatBit pg 2 else s

/-- Report a code word that is not CLEAN: log, counters, sweep (R397, R402, R413). -/
def eccReport (rq : MemRq) (b : Bank) (pa : Nat) (cl : EccClass) (synd : Nat) (s : State) : State :=
  let s := eccCount b (decide (cl = .ce)) (eccPush rq pa cl synd s)
  if rq.agent = 0 then s else sweepCause b s

/-- Read the code word at `a` (aligned): its data corrected, or none where it is uncorrectable (R392, R393). -/
def wordRead (rq : MemRq) (k : MemKind) (i a : Nat) (s : State) : Option Nat × State :=
  let w := wordBytes k
  let y := s.synd a
  let d := s.raw a w
  match eccClass w y with
  | .clean => (some d, s)
  | .ce =>
    let s := eccReport rq (bankOf k i a) a .ce y s
    match dataBitOf w y with
    | some j => (some (Nat.xor d (2 ^ j)), s)
    | none => (some d, s)
  | c => (none, eccReport rq (bankOf k i a) a c y s)

/-- The flip test applies to the code word at `a` (R409). -/
def State.flipHere (s : State) (w a : Nat) : Bool :=
  s.b Reg.ECC.FLIPCTL 31 &&
    ((s.reg Reg.ECC.FLIPADDR_LO).toNat + s.f Reg.ECC.FLIPADDR_HI 7 0 * 2 ^ 32) / w * w == a

/-- Store a whole code word; a requester's write meets the flip test (R391, R409). -/
def wordStore (flip : Bool) (w a d : Nat) (s : State) : State :=
  if flip && s.flipHere w a then
    let m := ((s.reg Reg.ECC.FLIPD_LO).toNat + (if w = 8 then (s.reg Reg.ECC.FLIPD_HI).toNat * 2 ^ 32 else 0))
    let ac := if s.b Reg.ECC.FLIPCTL 30 then (addrCol w (s.f Reg.ECC.FLIPCTL 29 24)).getD 0 else 0
    let y := Nat.xor (Nat.xor (s.f Reg.ECC.FLIPCTL 7 0) ac) (dataCols (8 * w) m)
    ((s.setRaw a (Nat.xor d m) w).setSynd a y).hwUpd Reg.ECC.FLIPCTL 31 31 0
  else (s.setRaw a d w).setSynd a 0

/-- Replace `n` bytes at offset `o` of a word. -/
def mergeBytes (d o n v : Nat) : Nat := putBits d (8 * (o + n) - 1) (8 * o) v

/-- Write `n` bytes at `o` of the code word at `a`; false where the word cannot be corrected (R394). -/
def wordWrite (rq : MemRq) (k : MemKind) (i a o n v : Nat) (s : State) : Bool × State :=
  let w := wordBytes k
  if n = w then (true, wordStore true w a v s)
  else
    match wordRead { rq with kind := 2 } k i a s with
    | (some d, s) => (true, wordStore true w a (mergeBytes d o n v) s)
    | (none, s) => (false, s)

/-- Read up to `f` bytes at `pa`, code word by code word: the value where every word could be corrected. -/
def memReadGo (rq : MemRq) (k : MemKind) (i : Nat) : Nat → Nat → Nat → State → Option Nat × State
  | 0, _, _, s => (some 0, s)
  | _ + 1, _, 0, s => (some 0, s)
  | f + 1, pa, n, s =>
    let w := wordBytes k
    let a := pa / w * w
    let o := pa - a
    let m := min n (w - o)
    let r := wordRead rq k i a s
    let t := memReadGo rq k i f (a + w) (n - m) r.2
    (match r.1, t.1 with
      | some d, some e => some (bitsOf d (8 * (o + m) - 1) (8 * o) + e * 2 ^ (8 * m))
      | _, _ => none, t.2)

/-- Read `n` bytes at `pa` of a memory. -/
def memRead (rq : MemRq) (k : MemKind) (i pa n : Nat) (s : State) : Option Nat × State := memReadGo rq k i (n + 1) pa n s

/-- Write `n` bytes, code word by code word; false where one of them could not be corrected. -/
def memWriteGo (rq : MemRq) (k : MemKind) (i : Nat) : Nat → Nat → Nat → Nat → State → Bool × State
  | 0, _, _, _, s => (true, s)
  | _ + 1, _, 0, _, s => (true, s)
  | f + 1, pa, n, v, s =>
    let w := wordBytes k
    let a := pa / w * w
    let o := pa - a
    let m := min n (w - o)
    let r := wordWrite rq k i a o m (v % 2 ^ (8 * m)) s
    let t := memWriteGo rq k i f (a + w) (n - m) (v / 2 ^ (8 * m)) r.2
    (r.1 && t.1, t.2)

/-- A write to `lo ≤ a < hi` clears every reservation on a granule it touches (R310). -/
def resvClear (lo hi : Nat) (s : State) : State :=
  { s with cores := (s.cores.filter (fun p => match p.2.resv with
      | some g => decide (g < hi) && decide (lo < g + 64)
      | none => false)).foldl (fun l p => tput (fun _ => Core.idle) l p.1 { p.2 with resv := none }) s.cores }

/-- Write `n` bytes at `pa` of a memory. -/
def memWrite (rq : MemRq) (k : MemKind) (i pa n v : Nat) (s : State) : Bool × State :=
  memWriteGo rq k i (n + 1) pa n v (resvClear pa (pa + n) s)

/-- Every byte and syndrome in `lo ≤ a < hi` becomes 0: a fill or a clear (R404, R407). -/
def memClear (lo hi : Nat) (s : State) : State :=
  let s := resvClear lo hi s
  { s with mem := tclear lo hi s.mem, synds := tclear lo hi s.synds }

/-- The region of 256 blocks an LPDDR4 address lies in (R399, R406). -/
def dramRegion (pa : Nat) : Nat := (pa - 0x1000000000) / 917504
/-- Number of regions (R406). -/
def State.dramRegions (s : State) : Nat := s.dramUsable / 917504
/-- The region is filled (R406). -/
def State.dramFilled (s : State) (r : Nat) : Bool := decide (r < s.rasp.nextRegion) || s.rasp.filledOut.contains r
/-- An access must wait for its region (R406): the block in flight ends, the region in progress is suspended, and the waited-for one comes first. -/
def dramWait (pa : Nat) (s : State) : State :=
  let r := dramRegion pa
  let x := s.rasp
  match x.cur with
  | none => s
  | some (k, e) =>
    if k = r ∨ x.waited.contains r then s
    else if x.susp.isSome then { s with rasp := { x with waited := x.waited ++ [r] } }
    else
      let left := (e - s.now) / 256 * 256
      { s with rasp := { x with cur := some (r, e - left + 65536), susp := some (k, left) } }

end Sys2Proof.Machine
end

