-- ==== Sys2Proof/Machine/Perf.lean ====
section
/-! DEFINITION. The performance counters of an engine (R620-R626). Counts of cycles and stalls need the pipeline's timing, which the model leaves out (log 20). -/

namespace Sys2Proof.Machine

/-- Unit `j` of PERF[e] belongs to tenant `t` (R620). -/
def State.perfOwned (s : State) (e j t : Nat) : Bool := s.b (Reg.PERF.OWN e j) 31 && s.f (Reg.PERF.OWN e j) 8 0 == t

/-- Counter `k` receives `n` events (R622): at the wrap OVF is set and OVFID raised. -/
def perfBump (e k n : Nat) (s : State) : State :=
  let a := Reg.PERF.CNT e k
  let wraps := 2 ^ 32 ≤ (s.reg a).toNat + n
  let s := s.cntAdd a 31 0 n false
  if wraps then
    let s := s.hwSet (Reg.PERF.CFG e k) (BitVec.ofNat 32 (2 ^ 25))
    if s.b (Reg.PERF.CFG e k) 30 then s.raiseSw (s.f (Reg.PERF.CFG e k) 11 0) else s
  else s

/-- Event `ev` happened `n` times on engine `e` for an activation of tenant `t` in ring `r` (R621, R622). -/
def perfCount (e ev n t r : Nat) (s : State) : State :=
  if 96 ≤ e ∨ n = 0 then s
  else (List.range 8).foldl (fun u k =>
    let c := Reg.PERF.CFG e k
    if u.b c 31 ∧ u.f c 19 12 = ev ∧ u.perfOwned e k t ∧ u.b c (26 + r) then perfBump e k n u else u) s

/-- The top-down unit takes the syllables of a committed bundle (R623). -/
def perfRetire (e n t : Nat) (s : State) : State :=
  if e < 96 ∧ s.b (Reg.PERF.TDCTL e) 31 ∧ s.perfOwned e 8 t then s.cntAdd (Reg.PERF.TDRET e) 31 0 n false else s

/-- The bandwidth monitor counts `n` bytes of tenant `t` through port `port`, write or read (R625). -/
def perfBytes (e port : Nat) (write : Bool) (n t : Nat) (s : State) : State :=
  let c := Reg.PERF.BWCFG e
  if e < 96 ∧ s.b c 31 ∧ s.f c 14 12 = port ∧ s.b c (if write then 9 else 8) ∧ s.perfOwned e 10 t then
    s.setReg (Reg.PERF.BWCNT e) (s.reg (Reg.PERF.BWCNT e) + BitVec.ofNat 32 n)
  else s

/-- BW_WINDOW_END (R625). -/
def bwWindowEnd (e : Nat) (s : State) : State :=
  if s.b (Reg.PERF.BWCFG e) 31 then
    let s := s.moveTo (tget (fun _ => 0) s.host.bw e + s.f (Reg.PERF.BWCFG e) 7 0 * 1024)
    let s := { s with host := { s.host with bw := tput (fun _ => 0) s.host.bw e s.now } }
    let n := s.reg (Reg.PERF.BWCNT e)
    let s := s.setReg (Reg.PERF.BWLAST e) n
    let s := if (s.reg (Reg.PERF.BWPEAK e)).toNat < n.toNat then s.hwLoadRC (Reg.PERF.BWPEAK e) 31 0 n.toNat else s
    (s.cntAdd (Reg.PERF.BWWINS e) 31 0 1 false).setReg (Reg.PERF.BWCNT e) 0#32
  else s

/-- The registers of unit `j` (R620, R626). -/
def perfUnitRegs (e j : Nat) : List Nat :=
  if j < 8 then [Reg.PERF.CFG e j, Reg.PERF.CNT e j]
  else if j = 8 then [Reg.PERF.TDCTL e, Reg.PERF.TDRET e, Reg.PERF.TDWASTE e, Reg.PERF.TDFRONT e, Reg.PERF.TDBACK e]
  else if j = 9 then [Reg.PERF.TAGCFG e, Reg.PERF.TAGPC e, Reg.PERF.TAGT1 e, Reg.PERF.TAGT2 e, Reg.PERF.TAGINFO e, Reg.PERF.TAGLOST e]
  else [Reg.PERF.BWCFG e, Reg.PERF.BWCNT e, Reg.PERF.BWLAST e, Reg.PERF.BWPEAK e, Reg.PERF.BWWINS e]

/-- The unit a block offset belongs to; 16 for an OWN register or a reserved offset. -/
def perfUnitOf (o : Nat) : Nat :=
  if 0x70 ≤ o ∧ o < 0x90 then (o - 0x70) / 4
  else if 0x90 ≤ o ∧ o < 0xB0 then (o - 0x90) / 4
  else if 0xC0 ≤ o ∧ o < 0xD4 then 8
  else if 0xE0 ≤ o ∧ o < 0xF8 then 9
  else if 0x100 ≤ o ∧ o < 0x114 then 10
  else 16

end Sys2Proof.Machine
end

