-- ==== Sys2Proof/Machine/Cores.lean ====
section
/-! DEFINITION. Cores as the rest of the device sees them: slots and tenant contexts (R343, R365, R499), events reaching a slot (R2, R344), entry, chaining and restore (R345-R350), third-fault resets (R357), invalidations (R385-R387). Cores 0-95 are engines, 96-98 the Pedestal copies. -/

namespace Sys2Proof.Machine

def State.core (s : State) (e : Nat) : Core := tget (fun _ => Core.idle) s.cores e
def State.setCore (s : State) (e : Nat) (k : Core) : State := { s with cores := tput (fun _ => Core.idle) s.cores e k }
def State.copy (s : State) (k : Nat) : CopySt := lget CopySt.idle s.ped.copies k
def State.setCopy (s : State) (k : Nat) (c : CopySt) : State := { s with ped := { s.ped with copies := lput s.ped.copies k c } }

/-- CCLK per clock of a core (R15, R359). -/
def coreClk (e : Nat) : Nat := if e < 96 then 1 else 2
/-- Slots of a core (R343, R499). -/
def coreSlots (e : Nat) : Nat := if e < 96 then 64 else 16

/-- Register `k` (SCTL, ENTRY, ARG, SP) of slot `n`. -/
def State.slotW (s : State) (e n k : Nat) : Word :=
  if e < 96 then s.reg (Reg.ENG.SCTL e n + 4 * k) else tget (fun _ => 0#32) (s.copy (e - 96)).slots (4 * n + k)
def State.setSlotW (s : State) (e n k : Nat) (v : Word) : State :=
  if e < 96 then s.setReg (Reg.ENG.SCTL e n + 4 * k) v
  else s.setCopy (e - 96) { s.copy (e - 96) with slots := tput (fun _ => 0#32) (s.copy (e - 96)).slots (4 * n + k) v }
/-- Field of a slot's SCTL. -/
def State.slotF (s : State) (e n hi lo : Nat) : Nat := bitsOf (s.slotW e n 0).toNat hi lo
def State.setSlotF (s : State) (e n hi lo v : Nat) : State := s.setSlotW e n 0 (BitVec.ofNat 32 (putBits (s.slotW e n 0).toNat hi lo v))

/-- Register `k` of tenant context `x`: CTXCFG, TVEC, GTAB, GLEN, SP1, SP2, STRIDE, DFVEC. A copy's one context is T0's; the manual gives its values no register (free values, log 21). -/
def State.ctxW (s : State) (e x k : Nat) : Word :=
  if e < 96 then s.reg (Reg.ENG.CTXCFG e x + 4 * k)
  else if k = 0 then 0x80000000#32
  else
    let v := Config.free 0x1700 k
    let m := if k = 1 then 0xFFFFFFE0 else if k = 2 then 0xFFFFFFF8 else if k = 3 then 0x1FF else if k = 6 then 0xFFFC0 else if k = 7 then 0xFFFFFFFC else 0xFFFFFFF0
    BitVec.ofNat 32 (Nat.land v m)

/-- Context named by a slot. -/
def State.slotCtx (s : State) (e n : Nat) : Nat := if e < 96 then s.slotF e n 16 14 else 0
/-- Tenant of a slot. -/
def State.slotTenant (s : State) (e n : Nat) : Nat := if e < 96 then bitsOf (s.ctxW e (s.slotCtx e n) 0).toNat 8 0 else 0

/-- Every activation of a core, the current one first. -/
def Core.acts (k : Core) : List Act := k.cur.toList ++ k.saved
/-- SCTL.ACTIVE (R365). -/
def State.slotActive (s : State) (e n : Nat) : Bool := (s.core e).acts.any (fun a => a.slot == n)

/-- The core's activation is held by WAIT: its own slot's counter is 0 (R351). -/
def State.waitHeld (s : State) (e : Nat) : Bool := (s.core e).cur.any (fun a => a.wait && s.slotF e a.slot 27 24 == 0)

/-- The core may enter slots: EN, power, no halt, no reset (R357, R365, R475, R634). -/
def State.coreReady (s : State) (e : Nat) : Bool :=
  let k := s.core e
  (if e < 96 then s.runs (Reg.ENG.page e) else true) && k.halted.isNone && k.rst.isNone && !k.gated

/-- The slot could be entered by an idle core: EN, a nonzero counter, not active, its tenant exists and is not suspended (R344, R446, R450). -/
def State.slotReady (s : State) (e n : Nat) : Bool :=
  s.slotF e n 31 31 == 1 && s.slotF e n 27 24 != 0 && !s.slotActive e n &&
    s.tenantExists (s.slotTenant e n) && !s.b (Reg.TENANT.TCFG (s.slotTenant e n)) 30

/-- Edge at which the slot's counter became nonzero. -/
def State.arrivedAt (s : State) (e n : Nat) : Nat := ((s.core e).arrived.lookup n).getD 0

/-- Of two slots the one R344 prefers: higher level, then lower number. -/
def betterSlot (a b : Nat × Nat) : Bool := decide (b.1 < a.1) || (a.1 == b.1 && decide (a.2 < b.2))

/-- The preferred ready slot above level `lv` (`none`: idle), among those whose counter was nonzero by edge `by_` (R344): level and number. -/
def State.pickSlot (s : State) (e : Nat) (lv : Option Nat) (by_ : Nat) : Option (Nat × Nat) :=
  (List.range (coreSlots e)).foldl (fun best n =>
    let l := s.slotF e n 23 20
    let above : Bool := match lv with
      | none => true
      | some x => decide (x < l)
    if above ∧ s.slotReady e n ∧ s.arrivedAt e n ≤ by_ then
      match best with
      | none => some (l, n)
      | some b => if betterSlot (l, n) b then some (l, n) else some b
    else best) none

/-- R346, R360: the activation a slot starts, once its counter has been decremented. -/
def State.freshAct (s : State) (e n at_ : Nat) : Act :=
  let w := (s.slotW e n 0).toNat
  let x := s.slotCtx e n
  let lv := bitsOf w 23 20
  let ring := bitsOf w 19 18
  let stride := (s.ctxW e x 6).toNat
  let spk := fun (k : Nat) =>
    if k = ring then s.slotW e n 3
    else if 1 ≤ k ∧ k < ring then s.ctxW e x (3 + k) - BitVec.ofNat 32 (lv * stride)
    else 0#32
  let sps := [spk 0, spk 1, spk 2, spk 3]
  { slot := n, level := lv, ctx := x, tenant := s.slotTenant e n, sring := ring, ring := ring, pc := s.slotW e n 1,
    d := [s.slotW e n 2, BitVec.ofNat 32 (bitsOf w 27 24 + 16 * bitsOf w 29 29)] ++ List.replicate 30 0#32,
    p := List.replicate 15 0#32 ++ [spk ring], a := List.replicate 4 0#72, fl := 0#32, crcp := 0xEDB88320#32,
    b := List.replicate 8 0#32, l := List.replicate 8 0#32, sp := sps, sp0 := sps,
    tvec := s.ctxW e x 1, gtab := s.ctxW e x 2, glen := s.ctxW e x 3, faddr := 0#32, finfo := 0#32, tdepth := 0, df := false,
    dfret := 0#32, dffl := 0#32, dfinfo := 0#32, wait := false, trapEntry := false, since := at_, acyc := 0, rel := s.arrivedAt e n }

/-- The context store keeps activations by level, highest first. -/
def saveAct (a : Act) (l : List Act) : List Act :=
  l.filter (fun b => decide (a.level < b.level)) ++ [a] ++ l.filter (fun b => decide (b.level < a.level))

/-- ACYC of an activation at edge `t` in clocks of its core (R363, R490). -/
def Act.acycAt (a : Act) (e t : Nat) : Nat := if e < 96 then (a.acyc + (t - a.since)) % 2 ^ 32 else a.acyc % 2 ^ 32

/-- LATMAX takes a larger time from eligibility to the first bundle in D (R365). -/
def latMax (e d : Nat) (s : State) : State :=
  if e < 96 ∧ s.f (Reg.ENG.LATMAX e) 15 0 < d then s.hwLoadRC (Reg.ENG.LATMAX e) 15 0 (satN 65535 d) else s

/-- Slot `n` is entered, its first bundle in D at edge `at_`; the current activation, if any, goes to the store (R345, R346). -/
def enterSlot (e n at_ from_ : Nat) (s : State) : State :=
  let k := s.core e
  let saved := match k.cur with
    | some a => saveAct { a with acyc := a.acycAt e s.now, wait := false } k.saved
    | none => k.saved
  let s := s.setSlotF e n 27 24 (s.slotF e n 27 24 - 1)
  let a := s.freshAct e n at_
  let s := s.setCore e { k with
    cur := some a, saved := saved, resv := none, stall := none, changed := at_,
    arrived := (n, at_) :: k.arrived.filter (fun p => p.1 != n) }
  let s := if e < 96 then s.cntAdd (Reg.ENG.ENTRYCNT e) 31 0 1 false else s
  perfCount e 0x0C 1 a.tenant a.ring (latMax e (at_ - from_) s)

/-- R348: later arrivals of a higher level take over an entry whose edge 0 is `e0`; the slot and the edge at which its first bundle enters D. -/
def State.takeover (s : State) (e : Nat) (lv : Option Nat) (e0 : Nat) : Option (Nat × Nat) :=
  let c := coreClk e
  match s.pickSlot e lv (e0 + 6 * c) with
  | none => none
  | some (l, n) =>
    some (((List.range 5).foldl (fun (best : Nat × Nat × Nat) i =>
      let k := e0 + (7 + i) * c
      match s.pickSlot e (some best.1) k with
      | some (l', n') => if s.arrivedAt e n' = k then (l', n', k + 6 * c) else best
      | none => best) (l, n, e0 + 12 * c)).2)

/-- What core `e` waits for has been issued under R335 and is never abandoned, or is the entry to a fault handler. -/
def Core.pinned (k : Core) : Bool :=
  match k.stall with
  | none => false
  | some x => (match x.work with
    | .fault _ _ => true
    | .bundle _ _ => false) || (match x.need with
    | .data a => a.dev || (match a.kind with
      | .atomic _ => true
      | _ => false)
    | _ => false)
/-- EVENT_ENTRY: an eligible slot is entered (R345-R349). A bundle that waits for a load is abandoned with its return address; an access of R335 that has been issued, or the entry to a fault handler, is waited for, so nothing is entered before it completes (R347); on a copy no waiting bundle is given up (R490, log 22). -/
def eventEntry (e : Nat) (s : State) : State :=
  let k := s.core e
  if s.coreReady e ∧ ¬(k.pinned || (decide (96 ≤ e) && k.stall.isSome)) then
    let lv := k.cur.map (·.level)
    match s.pickSlot e lv s.now with
    | none => s
    | some _ =>
      let first := (List.range (coreSlots e)).foldl (fun m n =>
        let above : Bool := match lv with
          | none => true
          | some x => decide (x < s.slotF e n 23 20)
        if above ∧ s.slotReady e n then min m (s.arrivedAt e n) else m) s.now
      let e0 := max first k.changed
      match s.takeover e lv e0 with
      | none => s
      | some (n, at_) => enterSlot e n at_ (max k.changed (s.arrivedAt e n)) (s.moveTo at_)
  else s

/-- After the current activation has ended: chain to an eligible slot above the highest saved level, else restore it, else idle (R350). -/
def coreNext (e : Nat) (s : State) : State :=
  let k := s.core e
  let c := coreClk e
  let s := s.setCore e { k with cur := none, stall := none, changed := s.now, idleAt := s.now, long := k.long.map (fun l => if l.level = k.cur.map (·.level) then { l with level := none } else l) }
  let k := s.core e
  if !s.coreReady e then s
  else match s.pickSlot e (k.saved.head?.map (·.level)) s.now with
    | some (_, n) => enterSlot e n (s.now + 6 * c) s.now s
    | none =>
      match k.saved with
      | [] => s
      | a :: r => s.setCore e { k with cur := some { a with since := s.now + 7 * c }, saved := r }

/-- An event (or a write of COUNT) adds `n` to a slot's input counter (R2, R344). -/
def slotEvent (e n m : Nat) (s : State) : State :=
  let was := s.slotF e n 27 24
  let s1 := s.setSlotF e n 27 24 (satN 15 (was + m))
  let a := Reg.ENG.SCTL e n
  let s1 := { s1 with edge := { s1.log with inc := ⟨a, 27, 24, m, true⟩ :: s1.log.inc } }
  let s1 :=
    if 15 < was + m then
      let s2 := s1.setSlotF e n 29 29 1
      if e < 96 then s2.setStatBit (Reg.ENG.page e) 1 else s2
    else s1
  let k : Core := s1.core e
  let k : Core := if was = 0 ∧ m ≠ 0 then { k with arrived := (n, s1.now) :: k.arrived.filter (fun p => p.1 != n) } else k
  let k : Core := if k.gated ∧ k.wakeAt.isNone then { k with wakeAt := some (s1.now + 1600) } else k
  s1.setCore e k

/-- The results of the long-operation unit reach the activation that issued it (R317, R347). -/
def Act.longWrite (a : Act) (l : LongRun) : Act :=
  { a with d := l.dst.foldl (fun d p => lput d p.1 p.2) a.d, fl := if l.sat then a.fl ||| 0x20#32 else a.fl }

/-- LONG_RESULT: the unit writes its results at the end of its latency (R317). -/
def longResult (e : Nat) (s : State) : State :=
  let k := s.core e
  match k.long with
  | none => s
  | some l =>
    let s := s.moveTo l.due
    let upd := fun (a : Act) => if l.level = some a.level then a.longWrite l else a
    s.setCore e { k with long := none, cur := k.cur.map upd, saved := k.saved.map upd }

/-- Third-fault reset (R357): the activation's engine state is cleared for 32 clocks; the slot fails. -/
def thirdFault (e cause : Nat) (s : State) : State :=
  let k := s.core e
  match k.cur with
  | none => s
  | some a =>
    let s := s.setCore e { k with
      cur := none, resv := none, long := none, stall := none, tlb := k.tlb.filter (fun t => t.tenant != a.tenant),
      rst := some (s.now + 32 * coreClk e), changed := s.now }
    let s := s.setSlotW e a.slot 0 (s.slotW e a.slot 0 ||| 0x40000000#32)
    let s := s.setSlotF e a.slot 31 31 0
    if e < 96 then
      let s := s.setSlotF e a.slot 3 0 cause
      (s.cntAdd (Reg.ENG.RESETCNT e) 31 0 1 false).setStatBit (Reg.ENG.page e) 0
    else s.setSlotF e a.slot 15 12 cause

/-- ENGINE_RESET_DONE: the engine continues as after RETE (R357). -/
def resetDone (e : Nat) (s : State) : State :=
  let k := s.core e
  match k.rst with
  | none => s
  | some t =>
    let s := s.moveTo t
    coreNext e (s.setCore e { s.core e with rst := none })

/-! ## Invalidation (R385-R387) -/

/-- A TLB entry is covered by a command. -/
def TlbEnt.covered (t : TlbEnt) (op tenant va : Nat) : Bool :=
  if op = 2 then true else t.tenant == tenant && (op == 1 || t.page == va / 2 ^ (t.size + 10))

/-- Remove the covered entries of every core; the cores that held one. -/
def tlbRemove (op tenant va : Nat) (s : State) : State × List Nat :=
  let hit := (s.cores.filter (fun p => p.2.tlb.any (fun t => t.covered op tenant va))).map (·.1)
  (hit.foldl (fun u e => u.setCore e { u.core e with tlb := (u.core e).tlb.filter (fun t => !t.covered op tenant va) }) s, hit)

/-- Start the first waiting command (R385). -/
def invStart (s : State) : State :=
  match s.invs with
  | ⟨op, t, va, none, _⟩ :: rest =>
    let r := tlbRemove op t va s
    { r.1 with invs := ⟨op, t, va, some s.now, r.2⟩ :: rest }
  | _ => s

/-- Issue a command: INVSTAT.BUSY, and its start when none runs (R385). -/
def invIssue (op tenant va : Nat) (s : State) : State :=
  invStart { s.setF Reg.MMU.INVSTAT 31 31 1 with invs := s.invs ++ [⟨op, tenant, va, none, []⟩] }

/-- INVALIDATE_DONE: no covered entry remains and the accesses made through removed ones have been performed, at most 48 CCLK after the start without outstanding accesses (R385). -/
def invDone (s : State) : State :=
  match s.invs with
  | ⟨_, _, _, some t, cs⟩ :: rest =>
    if cs.any (fun e => !(s.core e).wbuf.isEmpty) then s
    else
      let s := s.moveTo (t + 48)
      let s := { s.cntAdd Reg.MMU.INVSTAT 15 0 1 false with invs := rest }
      invStart (if rest.isEmpty then s.setF Reg.MMU.INVSTAT 31 31 0 else s)
  | _ => s

/-- BASE of a ROOT register places the table in plinth SRAM or LPDDR4 (R367). -/
def State.tableAt (s : State) (pa : Nat) : Bool :=
  match s.memAt pa with
  | some (.plinth, _, _) => true
  | some (.dram, _, _) => true
  | _ => decide (0x1000000000 ≤ pa ∧ pa < 0x1000000000 + s.dramUsable)

/-- ROOT_WRITE: a write of ROOT[t] (R367, R387). -/
def rootWrite (t v : Nat) (s : State) : State :=
  let a := Reg.MMU.ROOT t
  let base := bitsOf v 24 0 * 2 ^ 15
  if !s.tableAt base ∨ !s.tableAt (base + 0x7FFF) then s.capture Reg.MMU.page 0x70 (0x400 + 4 * t)
  else
    let old := (s.reg a).toNat
    let new := Nat.land v 0x81FFFFFF
    let s := s.swStore a (BitVec.ofNat 32 new)
    if old = new then s else invIssue 1 t 0 s

/-- A write of INVCMD (R385, R388). -/
def invcmdWrite (v : Nat) (s : State) : State :=
  let op := bitsOf v 25 24
  if op = 3 then s.capture Reg.MMU.page 0x70 0x40
  else
    let s := s.swStore Reg.MMU.INVCMD (BitVec.ofNat 32 (Nat.land v 0x030001FF))
    if bitOf v 31 then invIssue op (bitsOf v 8 0) (s.reg Reg.MMU.INVVA).toNat s else s

/-- CONTEXT_WRITE: a write of CTXCFG[x] that changes TENANT or VALID discards the context's instruction lines (R461). -/
def ctxcfgWrite (e x v : Nat) (s : State) : State :=
  let a := Reg.ENG.CTXCFG e x
  let new := BitVec.ofNat 32 (Nat.land v 0x800001FF)
  let changed := s.reg a != new
  let s := s.swStore a new
  if changed then s.setCore e { s.core e with lines := (s.core e).lines.filter (fun l => l.2.1 != x) } else s

/-- Some enabled slot names context `x`, or an activation runs under it (R365, code 0x60). -/
def State.ctxUsed (s : State) (e x : Nat) : Bool :=
  (List.range 64).any (fun n => s.slotF e n 31 31 == 1 && s.slotF e n 16 14 == x)

/-- A write to an engine's slot or context register (R365): the refusals 0x02, 0x60 and 0x61, then the store. `ring0` tells whether ring 0 writes. -/
def engWrite (e o v : Nat) (ring0 : Bool) (s : State) : State :=
  let pg := Reg.ENG.page e
  if o = 0x40 then (if s.en pg then s.capture pg 0x02 0x40 else s.swStore (Reg.ENG.CFG e) (BitVec.ofNat 32 (v % 4)))
  else if 0x100 ≤ o ∧ o < 0x200 then
    let x := (o - 0x100) / 32
    let k := (o - 0x100) % 32 / 4
    if s.ctxUsed e x then s.capture pg 0x60 o
    else if k = 0 then ctxcfgWrite e x v s
    else
      let m := if k = 1 then 0xFFFFFFE0 else if k = 2 then 0xFFFFFFF8 else if k = 3 then 0x1FF else if k = 6 then 0xFFFC0 else if k = 7 then 0xFFFFFFFC else 0xFFFFFFF0
      s.swStore (pg + o) (BitVec.ofNat 32 (Nat.land v m))
  else if 0x400 ≤ o ∧ o < 0x800 then
    let n := (o - 0x400) / 16
    let k := o % 16 / 4
    let busy := s.slotF e n 31 31 == 1 || s.slotActive e n
    if k = 1 ∨ k = 3 then
      if busy then s.capture pg 0x60 o
      else s.swStore (pg + o) (BitVec.ofNat 32 (Nat.land v (if k = 1 then 0xFFFFFFFC else 0xFFFFFFF0)))
    else if k = 2 then s.swStore (pg + o) (BitVec.ofNat 32 v)
    else
      let old := (s.slotW e n 0).toNat
      let ring := bitsOf v 19 18
      let ring := if ring = 0 ∧ !ring0 then bitsOf old 19 18 else ring
      let moved := bitsOf v 23 20 ≠ bitsOf old 23 20 ∨ ring ≠ bitsOf old 19 18 ∨ bitsOf v 16 14 ≠ bitsOf old 16 14
      if busy ∧ moved then s.capture pg 0x60 o
      else if bitOf v 31 ∧ bitOf old 31 = false ∧ (s.ctxW e (bitsOf v 16 14) 0).toNat < 2 ^ 31 then s.capture pg 0x61 o
      else
        let kept := Nat.land old 0x6000000F
        let kept := kept - Nat.land kept (Nat.land v 0x60000000)
        let new := putBits (Nat.land v 0x8FFDC000) 19 18 ring
        let s := s.swStore (Reg.ENG.SCTL e n) (s.loaded (Reg.ENG.SCTL e n) (BitVec.ofNat 32 (kept + putBits new 27 24 (bitsOf v 27 24))))
        if bitsOf old 27 24 = 0 ∧ bitsOf v 27 24 ≠ 0 then
          s.setCore e { s.core e with arrived := (n, s.now) :: (s.core e).arrived.filter (fun p => p.1 != n) }
        else s
  else s

/-- ENG[e].STATUS as read (R365). -/
def State.engStatus (s : State) (e : Nat) : Word :=
  let k := s.core e
  let base := b2n k.halted.isSome * 2 ^ 30 + b2n k.rst.isSome * 2 ^ 28
  match k.cur with
  | none => BitVec.ofNat 32 (2 ^ 31 + base)
  | some a => BitVec.ofNat 32 (base + b2n a.df * 2 ^ 29 + a.level * 2 ^ 24 + a.slot * 2 ^ 18 + a.ctx * 2 ^ 15)

/-- ENG[e].STORE as read (R365). -/
def State.engStore (s : State) (e : Nat) : Word := BitVec.ofNat 32 ((s.core e).saved.foldl (fun m a => Nat.lor m (2 ^ a.level)) 0)

end Sys2Proof.Machine
end

