-- ==== Sys2Proof/Machine/Crypto.lean ====
section
/-! DEFINITION. AES-128-CMAC (R519), CRC-32 (R519), CRC-64 (R493), SHA-256 and ECDSA P-256 (R596), over bytes as natural numbers. -/

namespace Sys2Proof.Machine

/-! ## AES-128 and CMAC -/

/-- Product in GF(2^8) of AES: eight steps over the bits of `b`. -/
def gfGo : Nat → Nat → Nat → Nat → Nat
  | 0, _, _, r => r
  | n + 1, a, b, r =>
    let r := if b % 2 = 1 then Nat.xor r a else r
    let a2 := 2 * a
    gfGo n (if 256 ≤ a2 then Nat.xor a2 0x11B else a2) (b / 2) r
def gfMul (a b : Nat) : Nat := gfGo 8 a b 0

/-- The inverse in GF(2^8), 0 for 0: the 254th power. -/
def gfInv (a : Nat) : Nat :=
  let a2 := gfMul a a
  let a4 := gfMul a2 a2
  let a8 := gfMul a4 a4
  let a16 := gfMul a8 a8
  let a32 := gfMul a16 a16
  let a64 := gfMul a32 a32
  let a128 := gfMul a64 a64
  gfMul a2 (gfMul a4 (gfMul a8 (gfMul a16 (gfMul a32 (gfMul a64 a128)))))

/-- Rotate a byte left. -/
def rol8 (x n : Nat) : Nat := (x * 2 ^ n) % 256 + x / 2 ^ (8 - n)
/-- The substitution of AES. -/
def aesSub (x : Nat) : Nat :=
  let b := gfInv x
  Nat.xor (Nat.xor (Nat.xor b (rol8 b 1)) (Nat.xor (rol8 b 2) (rol8 b 3))) (Nat.xor (rol8 b 4) 0x63)
/-- The substitution as a table, computed once. -/
def aesBox : List Nat := (List.range 256).map aesSub

def xorBytes (a b : List Nat) : List Nat := List.zipWith Nat.xor a b

/-- Round constant `i` (1-10). -/
def aesRcon : Nat → Nat
  | 0 => 0x8D
  | n + 1 => gfMul 2 (aesRcon n)

/-- Round keys after the one whose words are given, for rounds `i`, `i + 1`, …. -/
def aesKeys (box : List Nat) : Nat → Nat → List Nat → List (List Nat)
  | 0, _, _ => []
  | n + 1, i, k =>
    let sub := fun (x : Nat) => lget 0 box x
    let t := [Nat.xor (sub (lget 0 k 13)) (aesRcon i), sub (lget 0 k 14), sub (lget 0 k 15), sub (lget 0 k 12)]
    let w0 := xorBytes (k.take 4) t
    let w1 := xorBytes ((k.drop 4).take 4) w0
    let w2 := xorBytes ((k.drop 8).take 4) w1
    let w3 := xorBytes (k.drop 12) w2
    let k' := w0 ++ w1 ++ w2 ++ w3
    k' :: aesKeys box n (i + 1) k'

/-- Rows shifted: byte `i` comes from row `i mod 4`. -/
def aesShift (s : List Nat) : List Nat := (List.range 16).map (fun i => lget 0 s ((i + 4 * (i % 4)) % 16))
/-- One column mixed. -/
def aesCol (c : List Nat) : List Nat :=
  (List.range 4).map (fun i =>
    Nat.xor (Nat.xor (gfMul 2 (lget 0 c i)) (gfMul 3 (lget 0 c ((i + 1) % 4)))) (Nat.xor (lget 0 c ((i + 2) % 4)) (lget 0 c ((i + 3) % 4))))
def aesMix (s : List Nat) : List Nat := aesCol (s.take 4) ++ aesCol ((s.drop 4).take 4) ++ aesCol ((s.drop 8).take 4) ++ aesCol (s.drop 12)

/-- The rounds; the last one mixes no columns. -/
def aesRounds (box : List Nat) : List (List Nat) → List Nat → List Nat
  | [], s => s
  | [k], s => xorBytes (aesShift (s.map (lget 0 box))) k
  | k :: ks, s => aesRounds box ks (xorBytes (aesMix (aesShift (s.map (lget 0 box)))) k)

/-- AES-128 of one block of 16 bytes. -/
def aesBlock (key m : List Nat) : List Nat := aesRounds aesBox (aesKeys aesBox 10 1 key) (xorBytes m key)

/-- Bytes, first byte most significant, as a number, and back. -/
def beNat (l : List Nat) : Nat := l.foldl (fun n b => n * 256 + b) 0
def beBytes (n k : Nat) : List Nat := (List.range k).map (fun i => n / 256 ^ (k - 1 - i) % 256)
/-- Bytes, first byte least significant, as a number, and back. -/
def leNat (l : List Nat) : Nat := l.foldr (fun b n => b + 256 * n) 0
def leBytes (n k : Nat) : List Nat := (List.range k).map (fun i => n / 256 ^ i % 256)

/-- Doubling of a block for the subkeys of CMAC. -/
def cmacDbl (n : Nat) : Nat := if 2 ^ 127 ≤ n then Nat.xor (2 * n % 2 ^ 128) 0x87 else 2 * n

/-- The chain of CMAC over whole blocks but the last. -/
def cmacGo (key : List Nat) : Nat → List Nat → List Nat → List Nat × List Nat
  | 0, x, m => (x, m)
  | n + 1, x, m => cmacGo key n (aesBlock key (xorBytes x (m.take 16))) (m.drop 16)

/-- AES-128-CMAC of NIST SP 800-38B. -/
def aesCmac (key m : List Nat) : List Nat :=
  let l := beNat (aesBlock key (List.replicate 16 0))
  let k1 := cmacDbl l
  let k2 := cmacDbl k1
  let n := if m.isEmpty then 0 else (m.length - 1) / 16
  let (x, last) := cmacGo key n (List.replicate 16 0) m
  let final := if last.length = 16 then xorBytes last (beBytes k1 16)
    else xorBytes (last ++ [0x80] ++ List.replicate (15 - last.length) 0) (beBytes k2 16)
  aesBlock key (xorBytes x final)

/-! ## CRC -/

/-- Eight steps of a reflected CRC. -/
def crcBits (poly : Nat) : Nat → Nat → Nat
  | 0, c => c
  | n + 1, c => crcBits poly n (if c % 2 = 1 then Nat.xor (c / 2) poly else c / 2)
/-- CRC-32 of IEEE 802.3. -/
def crc32 (m : List Nat) : Nat := Nat.xor (m.foldl (fun c b => crcBits 0xEDB88320 8 (Nat.xor c b)) 0xFFFFFFFF) 0xFFFFFFFF

/-- Eight steps of CRC-64 with the ECMA-182 polynomial, most significant bit first. -/
def crc64Bits : Nat → Nat → Nat
  | 0, c => c
  | n + 1, c => crc64Bits n (if 2 ^ 63 ≤ c then Nat.xor (2 * c % 2 ^ 64) 0x42F0E1EBA9EA3693 else 2 * c)
/-- Fold bytes into a CRC-64 (R493). -/
def crc64 (c : Nat) (m : List Nat) : Nat := m.foldl (fun c b => crc64Bits 8 (Nat.xor c (b * 2 ^ 56))) c

/-! ## SHA-256 -/

/-- The first `n` primes from `p` on, found by trial. -/
def primesGo : Nat → Nat → List Nat → List Nat
  | 0, _, l => l
  | f + 1, p, l => if l.any (fun q => p % q == 0) then primesGo f (p + 1) l else primesGo f (p + 1) (l ++ [p])
def shaPrimes : List Nat := primesGo 310 2 []

/-- Integer cube root by bisection. -/
def icbrtGo (n : Nat) : Nat → Nat → Nat
  | 0, r => r
  | k + 1, r => let t := r + 2 ^ k; icbrtGo n k (if t * t * t ≤ n then t else r)
/-- Round constants: fractions of cube roots of the first 64 primes. -/
def shaK : List Nat := shaPrimes.map (fun p => icbrtGo (p * 2 ^ 96) 36 0 % 2 ^ 32)
/-- Start values: fractions of square roots of the first 8 primes. -/
def shaH : List Nat := (shaPrimes.take 8).map (fun p => isqrt 36 (p * 2 ^ 64) % 2 ^ 32)

def ror32 (x n : Nat) : Nat := x / 2 ^ n + x * 2 ^ (32 - n) % 2 ^ 32

/-- The message schedule from its latest 16 words, newest first. -/
def shaSched : Nat → List Nat → List Nat
  | 0, w => w
  | n + 1, w =>
    let a := lget 0 w 14
    let b := lget 0 w 1
    let s0 := Nat.xor (Nat.xor (ror32 a 7) (ror32 a 18)) (a / 8)
    let s1 := Nat.xor (Nat.xor (ror32 b 17) (ror32 b 19)) (b / 1024)
    shaSched n ((lget 0 w 15 + s0 + lget 0 w 6 + s1) % 2 ^ 32 :: w)

/-- One round on the eight working values. -/
def shaRound (v : List Nat) (kw : Nat × Nat) : List Nat :=
  match v with
  | [a, b, c, d, e, f, g, h] =>
    let s1 := Nat.xor (Nat.xor (ror32 e 6) (ror32 e 11)) (ror32 e 25)
    let ch := Nat.xor (Nat.land e f) (Nat.land (2 ^ 32 - 1 - e) g)
    let t1 := h + s1 + ch + kw.1 + kw.2
    let s0 := Nat.xor (Nat.xor (ror32 a 2) (ror32 a 13)) (ror32 a 22)
    let mj := Nat.xor (Nat.xor (Nat.land a b) (Nat.land a c)) (Nat.land b c)
    [(t1 + s0 + mj) % 2 ^ 32, a, b, c, (d + t1) % 2 ^ 32, e, f, g]
  | _ => v

/-- One block of 64 bytes. -/
def shaBlock (h m : List Nat) : List Nat :=
  let w := ((List.range 16).map (fun i => beNat ((m.drop (4 * i)).take 4))).reverse
  let v := (shaK.zip (shaSched 48 w).reverse).foldl shaRound h
  List.zipWith (fun a b => (a + b) % 2 ^ 32) h v

def shaBlocks : Nat → List Nat → List Nat → List Nat
  | 0, h, _ => h
  | n + 1, h, m => shaBlocks n (shaBlock h (m.take 64)) (m.drop 64)

/-- SHA-256 of a byte string. -/
def sha256 (m : List Nat) : List Nat :=
  let z := (119 - m.length % 64) % 64
  let p := m ++ [0x80] ++ List.replicate z 0 ++ beBytes (8 * m.length) 8
  (shaBlocks (p.length / 64) shaH p).flatMap (fun w => beBytes w 4)

/-! ## ECDSA on P-256 -/

def p256P : Nat := 0xFFFFFFFF00000001000000000000000000000000FFFFFFFFFFFFFFFFFFFFFFFF
def p256N : Nat := 0xFFFFFFFF00000000FFFFFFFFFFFFFFFFBCE6FAADA7179E84F3B9CAC2FC632551
def p256B : Nat := 0x5AC635D8AA3A93E7B3EBBD55769886BC651D06B0CC53B0F63BCE3C3E27D2604B
def p256G : Nat × Nat :=
  (0x6B17D1F2E12C4247F8BCE6E563A440F277037D812DEB33A0F4A13945D898C296, 0x4FE342E2FE1A7F9B8EE7EB4A7C0F9E162BCE33576B315ECECBB6406837BF51F5)

/-- Modular power by the lowest `k` bits of the exponent. -/
def powMod (m : Nat) : Nat → Nat → Nat → Nat → Nat
  | 0, _, _, r => r
  | k + 1, b, e, r => powMod m k (b * b % m) (e / 2) (if e % 2 = 1 then r * b % m else r)
/-- Inverse modulo a prime. -/
def invMod (m a : Nat) : Nat := powMod m 256 (a % m) (m - 2) 1

/-- Sum of two points of the curve; `none` is the point at infinity. -/
def ecAdd (a b : Option (Nat × Nat)) : Option (Nat × Nat) :=
  match a, b with
  | none, q => q
  | p, none => p
  | some (x1, y1), some (x2, y2) =>
    let m := p256P
    if x1 = x2 ∧ (y1 + y2) % m = 0 then none
    else
      let l := if x1 = x2 then (3 * x1 * x1 + (m - 3)) * invMod m (2 * y1) % m else (y2 + m - y1) * invMod m (x2 + m - x1) % m
      let x := (l * l + 2 * m - x1 - x2) % m
      some (x, (l * (x1 + m - x) + m - y1) % m)

/-- Multiple of a point by the lowest `k` bits of `e`. -/
def ecMul : Nat → Nat → Option (Nat × Nat) → Option (Nat × Nat) → Option (Nat × Nat)
  | 0, _, _, r => r
  | k + 1, e, p, r => ecMul k (e / 2) (ecAdd p p) (if e % 2 = 1 then ecAdd r p else r)

/-- The signature (r, s) of hash `z` verifies with key (x, y). -/
def ecdsaOk (x y r s z : Nat) : Bool :=
  let m := p256P
  let on := decide (x < m) && decide (y < m) && y * y % m == (x * x * x + (m - 3) * x + p256B) % m
  if !on || r == 0 || s == 0 || decide (p256N ≤ r) || decide (p256N ≤ s) then false
  else
    let w := invMod p256N s
    match ecAdd (ecMul 256 (z * w % p256N) (some p256G) none) (ecMul 256 (r * w % p256N) (some (x, y)) none) with
    | some (x1, _) => x1 % p256N == r
    | none => false

end Sys2Proof.Machine
end

