-- ==== Sys2Proof/Machine/Float.lean ====
section
/-! DEFINITION. IEEE 754 binary32 and binary64 on bit patterns, rounding to nearest even (R271, R320). -/

namespace Sys2Proof.Machine

/-- A binary format: precision, exponent of the least subnormal, exponent field width. -/
structure Fmt where
  p : Nat
  lsb : Int
  ew : Nat
deriving DecidableEq, Repr

def b32 : Fmt := ⟨24, -149, 8⟩
def b64 : Fmt := ⟨53, -1074, 11⟩

/-- The value of a pattern: NaN, infinity, or (-1)^neg x m x 2^e. -/
inductive FVal where
  | nan
  | inf (neg : Bool)
  | num (neg : Bool) (m : Nat) (e : Int)
deriving DecidableEq, Repr

def Fmt.fracBits (f : Fmt) : Nat := f.p - 1
/-- Exponent field of all ones. -/
def Fmt.top (f : Fmt) : Nat := 2 ^ f.ew - 1

/-- The value of a bit pattern. -/
def Fmt.val (f : Fmt) (w : Nat) : FVal :=
  let fr := w % 2 ^ f.fracBits
  let ex := w / 2 ^ f.fracBits % 2 ^ f.ew
  let neg := bitOf w (f.fracBits + f.ew)
  if ex = f.top then (if fr = 0 then .inf neg else .nan)
  else if ex = 0 then .num neg fr f.lsb
  else .num neg (fr + 2 ^ f.fracBits) (f.lsb + (ex - 1 : Nat))

/-- The sign bit. -/
def Fmt.sgn (f : Fmt) (neg : Bool) : Nat := if neg then 2 ^ (f.fracBits + f.ew) else 0
/-- The NaN pattern with only the top fraction bit set. -/
def Fmt.qnan (f : Fmt) : Nat := f.top * 2 ^ f.fracBits + 2 ^ (f.fracBits - 1)
def Fmt.infinity (f : Fmt) (neg : Bool) : Nat := f.sgn neg + f.top * 2 ^ f.fracBits

/-- The pattern nearest (m, plus something less than its last place when `sticky`) x 2^e, ties to even. -/
def Fmt.round (f : Fmt) (neg : Bool) (m : Nat) (e : Int) (sticky : Bool) : Nat :=
  if m = 0 then f.sgn neg
  else
    let t0 : Int := e + (m.log2 + 1 : Nat) - f.p
    let t := if t0 < f.lsb then f.lsb else t0
    let q : Nat :=
      if t ≤ e then m * 2 ^ (e - t).toNat
      else
        let k := (t - e).toNat
        let q := m / 2 ^ k
        let r := m % 2 ^ k
        let half := 2 ^ (k - 1)
        if half < r ∨ (r = half ∧ (sticky ∨ q % 2 = 1)) then q + 1 else q
    let q' := if q = 2 ^ f.p then q / 2 else q
    let t' := if q = 2 ^ f.p then t + 1 else t
    if q' < 2 ^ f.fracBits then f.sgn neg + q'
    else
      let ex := (t' - f.lsb).toNat + 1
      if f.top ≤ ex then f.infinity neg else f.sgn neg + ex * 2 ^ f.fracBits + (q' - 2 ^ f.fracBits)

/-- The pattern of a value. -/
def Fmt.pack (f : Fmt) : FVal → Nat
  | .nan => f.qnan
  | .inf n => f.infinity n
  | .num n m e => f.round n m e false

/-- (-1)^neg x m as an integer. -/
def sgInt (neg : Bool) (m : Nat) : Int := if neg then -(m : Int) else m

/-- Exact sum; an exact zero of two opposite signs is +0. -/
def FVal.add : FVal → FVal → FVal
  | .nan, _ => .nan
  | _, .nan => .nan
  | .inf a, .inf b => if a = b then .inf a else .nan
  | .inf a, _ => .inf a
  | _, .inf b => .inf b
  | .num a m e, .num b n g =>
    let l := if e ≤ g then e else g
    let s := sgInt a (m * 2 ^ (e - l).toNat) + sgInt b (n * 2 ^ (g - l).toNat)
    if s = 0 then .num (a && b) 0 l else .num (decide (s < 0)) s.natAbs l

def FVal.neg : FVal → FVal
  | .nan => .nan
  | .inf a => .inf !a
  | .num a m e => .num (!a) m e

/-- Exact product. -/
def FVal.mul : FVal → FVal → FVal
  | .nan, _ => .nan
  | _, .nan => .nan
  | .inf a, .inf b => .inf (a != b)
  | .inf a, .num b n _ => if n = 0 then .nan else .inf (a != b)
  | .num a m _, .inf b => if m = 0 then .nan else .inf (a != b)
  | .num a m e, .num b n g => .num (a != b) (m * n) (e + g)

/-- Rounded quotient. -/
def Fmt.quot (f : Fmt) : FVal → FVal → Nat
  | .nan, _ => f.qnan
  | _, .nan => f.qnan
  | .inf _, .inf _ => f.qnan
  | .inf a, .num b _ _ => f.infinity (a != b)
  | .num a _ _, .inf b => f.sgn (a != b)
  | .num a m e, .num b n g =>
    if n = 0 then (if m = 0 then f.qnan else f.infinity (a != b))
    else
      let k := n.log2 + f.p + 3
      let q := m * 2 ^ k / n
      f.round (a != b) q (e - g - k) (decide (m * 2 ^ k % n ≠ 0))

/-- Rounded square root. -/
def Fmt.root (f : Fmt) : FVal → Nat
  | .nan => f.qnan
  | .inf a => if a then f.qnan else f.infinity false
  | .num a m e =>
    if m = 0 then f.sgn a
    else if a then f.qnan
    else
      let k := 2 * f.p + 4
      let j := if (e - k) % 2 = 0 then k else k + 1
      let v := m * 2 ^ j
      let r := isqrt (v.log2 / 2 + 1) v
      f.round false r ((e - j) / 2) (decide (r * r ≠ v))

/-- Rounded operations on patterns (R271). -/
def Fmt.fadd (f : Fmt) (a b : Nat) : Nat := f.pack ((f.val a).add (f.val b))
def Fmt.fsub (f : Fmt) (a b : Nat) : Nat := f.pack ((f.val a).add (f.val b).neg)
def Fmt.fmul (f : Fmt) (a b : Nat) : Nat := f.pack ((f.val a).mul (f.val b))
def Fmt.fdiv (f : Fmt) (a b : Nat) : Nat := f.quot (f.val a) (f.val b)
def Fmt.fsqrt (f : Fmt) (a : Nat) : Nat := f.root (f.val a)
def Fmt.fma (f : Fmt) (a b c : Nat) : Nat := f.pack (((f.val a).mul (f.val b)).add (f.val c))

/-- Conversion between formats. -/
def cvt (f g : Fmt) (a : Nat) : Nat := g.pack (f.val a)

/-- The pattern nearest the rational `n / d`. -/
def Fmt.ofRat (f : Fmt) (n : Int) (d : Nat) : Nat := f.quot (.num (decide (n < 0)) n.natAbs 0) (.num false d 0)

/-- The pattern nearest the square root of `n / d`. -/
def Fmt.ofRoot (f : Fmt) (n d : Nat) : Nat :=
  if n = 0 ∨ d = 0 then 0
  else
    let k := d.log2 + 4 * f.p + 8
    let j := if k % 2 = 0 then k else k + 1
    let v := n * 2 ^ j / d
    let r := isqrt (v.log2 / 2 + 1) v
    f.round false r (-(j / 2 : Nat)) (decide (r * r ≠ v ∨ n * 2 ^ j % d ≠ 0))

/-- Order of two patterns: a < b; false with a NaN. -/
def Fmt.lt (f : Fmt) (a b : Nat) : Bool :=
  match f.val a, f.val b with
  | .nan, _ => false
  | _, .nan => false
  | .inf x, .inf y => x && !y
  | .inf x, _ => x
  | _, .inf y => !y
  | .num x m e, .num y n g =>
    let l := if e ≤ g then e else g
    decide (sgInt x (m * 2 ^ (e - l).toNat) < sgInt y (n * 2 ^ (g - l).toNat))

def Fmt.isNaN (f : Fmt) (a : Nat) : Bool := f.val a == .nan
def Fmt.isFinite (f : Fmt) (a : Nat) : Bool := a / 2 ^ f.fracBits % 2 ^ f.ew != f.top
def Fmt.isZero (f : Fmt) (a : Nat) : Bool := a % 2 ^ (f.fracBits + f.ew) == 0

/-- Equality of values (+0 equals -0); false with a NaN. -/
def Fmt.eq (f : Fmt) (a b : Nat) : Bool := !f.isNaN a && !f.isNaN b && !f.lt a b && !f.lt b a

/-- A finite binary32 pattern or a neighbour of it, as the free deviation names; zero and the ends of the range stay (log 7). -/
def ulpDev (site a : Nat) : Nat :=
  let m := a % 2 ^ 31
  if m = 0 ∨ 0x7F7FFFFF ≤ m then a
  else (((a : Int) + clampI (-1) 1 (Config.dev site a 0)).toNat)

/-- A finite binary32 value as an integer number of 2^-149. -/
def f32Int (a : Nat) : Int :=
  match b32.val a with
  | .num neg m e => sgInt neg (m * 2 ^ (e + 149).toNat)
  | _ => 0

end Sys2Proof.Machine
end

