-- ==== Sys2Proof/Machine/Trig.lean ====
section
/-! DEFINITION. Sine, cosine and arc tangent in fixed point with 72 fraction bits, from their power series (errors below 2^-64); used where the manual asks for a value rounded from, or close to, the exact one. -/

namespace Sys2Proof.Machine

/-- Fraction bits of this file. -/
def trigP : Nat := 72
/-- pi in 72 fraction bits. -/
def pi72 : Int := 14835751850141947581203
/-- 1.0. -/
def one72 : Int := 2 ^ 72
/-- Product of two 72-bit fractions. -/
def mul72 (a b : Int) : Int := rnd (a * b) 72

/-- Sum of the alternating series whose term n+1 is term n times -x^2 / ((2n+i)(2n+i+1)). -/
def seriesGo (x2 : Int) (i : Int) : Nat → Int → Int → Int → Int
  | 0, _, _, acc => acc
  | k + 1, n, term, acc =>
    let t := divRound (-(mul72 term x2)) ((2 * n + i) * (2 * n + i + 1))
    seriesGo x2 i k (n + 1) t (acc + t)

/-- Sine of a small angle (radians, 72 fraction bits). -/
def sinSmall (x : Int) : Int := seriesGo (mul72 x x) 2 16 0 x x
/-- Cosine of a small angle. -/
def cosSmall (x : Int) : Int := seriesGo (mul72 x x) 1 16 0 one72 one72

/-- Sine and cosine of `a / 2^k` revolutions, 72 fraction bits. -/
def sincosTurn (k a : Nat) : Int × Int :=
  let m := 2 ^ (k + 3)
  let a8 := (a % 2 ^ k) * 8            -- in units of 1/8 octant steps of 2^(k+3)
  let quad := (a8 + m / 8) / (m / 4)   -- nearest multiple of a quarter turn
  let d : Int := (a8 : Int) - (quad * (m / 4) : Nat)
  let x := divRound (2 * pi72 * d) (m : Int)
  let s := sinSmall x
  let c := cosSmall x
  match quad % 4 with
  | 0 => (s, c)
  | 1 => (c, -s)
  | 2 => (-s, -c)
  | _ => (-c, s)

/-- arctan z for 0 <= z <= 1 (72 fraction bits), halving the angle three times first. -/
def atanHalf (z : Int) : Int :=
  let r : Int := isqrt 80 (((one72 * one72 + z * z)).toNat)
  divRound (z * one72) (one72 + r)

/-- Terms of the arc tangent series. -/
def atanGo (z2 : Int) : Nat → Int → Int → Int → Int
  | 0, _, _, acc => acc
  | k + 1, n, pw, acc =>
    let p := -(mul72 pw z2)
    atanGo z2 k (n + 2) p (acc + divRound p (n + 2))

/-- arctan z for 0 <= z <= 1. -/
def atan72 (z : Int) : Int :=
  let w := atanHalf (atanHalf (atanHalf z))
  8 * atanGo (mul72 w w) 20 1 w w

/-- The angle of (x, y) in revolutions, 0 <= result < 1, 72 fraction bits; 0 for the zero vector. -/
def atan2Turn (y x : Int) : Int :=
  if x = 0 ∧ y = 0 then 0
  else
    let ay : Int := y.natAbs
    let ax : Int := x.natAbs
    let base := if ay ≤ ax then divRound (atan72 (divRound (ay * one72) ax) * one72) (2 * pi72)
                else one72 / 4 - divRound (atan72 (divRound (ax * one72) ay) * one72) (2 * pi72)
    let q := if 0 ≤ x then base else one72 / 2 - base
    let r := if 0 ≤ y then q else one72 - q
    if r = one72 then 0 else r

end Sys2Proof.Machine
end

