-- ==== Sys2Proof/Machine/Flags.lean ====
section
/-! DEFINITION. What the operations of S0-S2 compute, with their flags (R290, R300, R301, R304, R312, R313, R317-R321). -/

namespace Sys2Proof.Machine

/-- The effect of one syllable on FL: which of Z, N, C and V (bits 0-3) it defines, their values, and whether it sets S and G (R290, R295). -/
structure FlagOut where
  mask : Nat
  val : Nat
  s : Bool
  g : Bool
deriving DecidableEq, Repr

def FlagOut.none : FlagOut := ⟨0, 0, false, false⟩

/-- Z and N of a 32-bit result. -/
def znOf (r : Nat) : Nat := b2n (r == 0) + 2 * b2n (bitOf r 31)

/-- Z and N. -/
def flagsZN (r : Nat) : FlagOut := ⟨3, znOf r, false, false⟩
/-- Z, N and C. -/
def flagsZNC (r : Nat) (c : Bool) : FlagOut := ⟨7, znOf r + 4 * b2n c, false, false⟩
/-- Z, N, C and V. -/
def flagsAll (r : Nat) (c v : Bool) : FlagOut := ⟨15, znOf r + 4 * b2n c + 8 * b2n v, false, false⟩

/-- Sum of two words and a carry with its flags (R300). -/
def addFlags (a b c : Nat) : Nat × FlagOut :=
  let u := a + b + c
  let r := u % 2 ^ 32
  (r, flagsAll r (decide (2 ^ 32 ≤ u)) (decide (sx 32 r ≠ sx 32 a + sx 32 b + c)))
/-- Difference of two words and a borrow; C is 1 when there is no borrow (R300). -/
def subFlags (a b w : Nat) : Nat × FlagOut :=
  let r := (a + 2 ^ 32 - b - w + 2 ^ 32) % 2 ^ 32
  (r, flagsAll r (decide (b + w ≤ a)) (decide (sx 32 r ≠ sx 32 a - sx 32 b - w)))

/-- A shift by `n` with the bit shifted out, if the shift defines C (R301). -/
def shiftOut (k : IntOp) (a n : Nat) : Nat × Option Bool :=
  match k with
  | .shl => (if 32 ≤ n then 0 else (a * 2 ^ n) % 2 ^ 32, if n = 0 then none else some (n ≤ 32 && bitOf a (32 - n)))
  | .shr => (if 32 ≤ n then 0 else a / 2 ^ n, if n = 0 then none else some (n ≤ 32 && bitOf a (n - 1)))
  | .sar => (ux 32 (asr (sx 32 a) n), if n = 0 then none else some (if n ≤ 32 then bitOf a (n - 1) else bitOf a 31))
  | _ =>
    let m := n % 32
    let r := a / 2 ^ m + a % 2 ^ m * 2 ^ (32 - m)
    if m = 0 then (a, none) else (r, some (bitOf r 31))

/-- The second operand of an integer operation from an immediate (R301). -/
def immOf (k : IntOp) (v : Nat) : Nat :=
  match k with
  | .add => ux 32 (sx 13 v)
  | .adc => ux 32 (sx 13 v)
  | .sub => ux 32 (sx 13 v)
  | .sbc => ux 32 (sx 13 v)
  | .min => ux 32 (sx 13 v)
  | .max => ux 32 (sx 13 v)
  | .cmp => ux 32 (sx 13 v)
  | _ => v

/-- An integer operation on words `a` and `b` with the carry before the bundle: the result and the flags (R300, R301). The amount of a shift is in bits 5:0 of `b`. -/
def intOp (k : IntOp) (a b : Nat) (c : Bool) : Nat × FlagOut :=
  let shift : Nat × FlagOut :=
    let r := shiftOut k a (b % 64)
    (r.1, match r.2 with
      | none => flagsZN r.1
      | some x => flagsZNC r.1 x)
  match k with
  | .add => addFlags a b 0
  | .adc => addFlags a b (b2n c)
  | .sub => subFlags a b 0
  | .sbc => subFlags a b (1 - b2n c)
  | .and => let r := Nat.land a b; (r, flagsZN r)
  | .or => let r := Nat.lor a b; (r, flagsZN r)
  | .xor => let r := Nat.xor a b; (r, flagsZN r)
  | .andn => let r := a - Nat.land a b; (r, flagsZN r)
  | .shl => shift
  | .shr => shift
  | .sar => shift
  | .ror => shift
  | .min => let r := if sx 32 a ≤ sx 32 b then a else b; (r, flagsZN r)
  | .max => let r := if sx 32 a ≤ sx 32 b then b else a; (r, flagsZN r)
  | .cmp => subFlags a b 0
  | .tst => let r := Nat.land a b; (r, flagsZN r)

/-- A result saturated to 32 bits: V and S when it saturates (R301). -/
def satFlags (x : Int) : Nat × FlagOut :=
  let r := ux 32 (satS 32 x)
  let o := decide (satS 32 x ≠ x)
  (r, ⟨11, znOf r + 8 * b2n o, o, false⟩)

/-- Leading zeros of a word. -/
def clz32 (a : Nat) : Nat := if a = 0 then 32 else 31 - a.log2

/-- The register operations of R300. -/
def regOp (k : RegOp) (a b : Nat) : Nat × FlagOut :=
  match k with
  | .adds => satFlags (sx 32 a + sx 32 b)
  | .subs => satFlags (sx 32 a - sx 32 b)
  | .abs => satFlags ((sx 32 a).natAbs : Int)
  | .neg => satFlags (-(sx 32 a))
  | .clz => (clz32 a, ⟨1, b2n (clz32 a == 0), false, false⟩)
  | .mull => let r := a * b % 2 ^ 32; (r, flagsZN r)
  | .mov => (a, .none)

/-- EXTS by FUNC (R300). -/
def extsOp (func a : Nat) : Nat :=
  match func with
  | 0 => ux 32 (sx 8 a)
  | 1 => ux 32 (sx 16 a)
  | 2 => a % 256
  | _ => a % 65536

/-- COND holds on a flag word (R304). -/
def condHolds (c fl : Nat) : Bool :=
  let z := bitOf fl 0
  let n := bitOf fl 1
  let k := bitOf fl 2
  let v := bitOf fl 3
  match c with
  | 0 => z
  | 1 => !z
  | 2 => k
  | 3 => !k
  | 4 => n
  | 5 => !n
  | 6 => v
  | 7 => !v
  | 8 => k && !z
  | 9 => !k || z
  | 10 => n == v
  | 11 => n != v
  | 12 => !z && n == v
  | 13 => z || n != v
  | 14 => true
  | _ => bitOf fl 4 || bitOf fl 5

/-! ## Accumulators -/

/-- The product of two operands (R312): SZ takes the low 16 bits, F shifts a fraction into Q9.63. -/
def product (f sz : Bool) (x y : Nat) : Int :=
  let p := if sz then sx 16 x * sx 16 y else sx 32 x * sx 32 y
  if f then p * (if sz then 2 ^ 33 else 2) else p

/-- An accumulator's new value from the exact one, by its bit of AMODE: value, overflow, saturation (R313). -/
def accOut (sat : Bool) (x : Int) : Acc × Bool × Bool :=
  let o := decide (satS 72 x ≠ x)
  (BitVec.ofNat 72 (ux 72 (if sat then satS 72 x else x)), o, o && sat)

def accVal (a : Acc) : Int := sx 72 a.toNat

/-- EXT (R312): the value and whether it saturated. -/
def extOp (a : Acc) (sh : Nat) (rd : Bool) : Nat × FlagOut :=
  let r := if rd ∧ 0 < sh then asr (accVal a + 2 ^ (sh - 1)) sh else asr (accVal a) sh
  let d := ux 32 (satS 32 r)
  (d, ⟨3, znOf d, decide (satS 32 r ≠ r), false⟩)

/-- The image of an accumulator in memory, and back (R312). -/
def accImage (a : Acc) : Nat := ux 128 (accVal a)
def accOfImage (v : Nat) : Acc := BitVec.ofNat 72 v

/-! ## fp32 (R320, R321) -/

/-- A subnormal is zero of its sign. -/
def flush32 (a : Nat) : Nat := if a / 2 ^ 23 % 256 = 0 then a / 2 ^ 31 * 2 ^ 31 else a

/-- Z for zero, N for a negative result other than a NaN, V for a NaN. A zero is not negative (DEDUCED, log 9). -/
def fpFlags (r : Nat) : FlagOut :=
  let nan := b32.isNaN r
  ⟨11, b2n (b32.isZero r) + 2 * b2n (bitOf r 31 && !nan && !b32.isZero r) + 8 * b2n nan, false, false⟩

/-- An arithmetic operation: `d` is Dd before the bundle. -/
def fpOp (k : FpOp) (d a b : Nat) : Nat × FlagOut :=
  let a := flush32 a
  let b := flush32 b
  let r := flush32 (match k with
    | .fadd => b32.fadd a b
    | .fsub => b32.fsub a b
    | .fmul => b32.fmul a b
    | .fma => b32.fma a b (flush32 d))
  (r, fpFlags r)

def fcmpFlags (a b : Nat) : FlagOut :=
  let a := flush32 a
  let b := flush32 b
  if b32.isNaN a || b32.isNaN b then ⟨15, 8, false, false⟩
  else ⟨15, b2n (b32.eq a b) + 2 * b2n (b32.lt a b) + 4 * b2n (!b32.lt a b), false, false⟩

/-- An fp32 value times 2^k as the nearest integer, ties to even, saturated to `n` bits; whether it saturated or was a NaN. -/
def fpToInt (k n a : Nat) : Int × Bool :=
  match b32.val (flush32 a) with
  | .nan => (0, true)
  | .inf neg => (if neg then -(2 ^ (n - 1) : Int) else 2 ^ (n - 1) - 1, true)
  | .num neg m e =>
    let e' := e + k
    let q : Int :=
      if 0 ≤ e' then sgInt neg (m * 2 ^ e'.toNat)
      else
        let j := (-e').toNat
        let r := m % 2 ^ j
        let h := 2 ^ (j - 1)
        sgInt neg (m / 2 ^ j + (if h < r ∨ (r = h ∧ m / 2 ^ j % 2 = 1) then 1 else 0))
    (satS n q, decide (satS n q ≠ q))

/-- FCVT by FUNC. -/
def fcvtOp (func a : Nat) : Nat × FlagOut :=
  let toFp := fun (n : Int) (k : Nat) =>
    let r := flush32 (b32.pack (.num (decide (n < 0)) n.natAbs (-(k : Int))))
    (r, (⟨3, b2n (b32.isZero r) + 2 * b2n (bitOf r 31 && !b32.isZero r), false, false⟩ : FlagOut))
  let toInt := fun (k n : Nat) =>
    let x := fpToInt k n a
    let r := ux 32 x.1
    (r, (⟨3, znOf r, x.2, false⟩ : FlagOut))
  match func with
  | 0 => toFp (sx 32 a) 0
  | 1 => toInt 0 32
  | 2 => toFp (sx 32 a) 31
  | 3 => toInt 31 32
  | 4 => toFp (sx 16 a) 15
  | _ => toInt 15 16

/-! ## Long operations (R317, R318) -/

/-- A result within `b` units of the exact one `x` (`k` fraction bits, of 72): the nearest, or the one the free deviation names inside the bound (log 7). -/
def nearBound (site k : Nat) (b : Int) (x : Int) (a c : Int) : Int :=
  let r := rnd x (72 - k)
  let d := clampI (-b) b (Config.dev site a c)
  if ((r + d) * 2 ^ (72 - k) - x).natAbs ≤ (b * 2 ^ (72 - k)).natAbs then r + d else r

/-- Words written (first Dd, then Dd+1), S, and the latency. -/
def longOp (k : LongOp) (a b : Nat) : List Nat × Bool × Nat :=
  match k with
  | .divs =>
    let x := sx 32 a
    let y := sx 32 b
    if y = 0 then ([if 0 ≤ x then 0x7FFFFFFF else 0x80000000, a], true, 18)
    else if x = -(2 ^ 31) ∧ y = -1 then ([0x7FFFFFFF, 0], true, 18)
    else ([ux 32 (divTrunc x y), ux 32 (x - divTrunc x y * y)], false, 18)
  | .divu => if b = 0 then ([0xFFFFFFFF, a], true, 18) else ([a / b, a % b], false, 18)
  | .sqrt => ([isqrt 32 (a * 2 ^ 32)], false, 17)
  | .sincos =>
    let t := sincosTurn 32 a
    let q := fun (site : Nat) (x : Int) => ux 32 (satS 32 (nearBound site 31 2 x a 0))
    ([q 0x318 t.1, q 0x319 t.2], false, 20)
  | .atan2 =>
    if a = 0 ∧ b = 0 then ([0], false, 20)
    else ([ux 32 (nearBound 0x31A 32 16 (atan2Turn (sx 32 a) (sx 32 b)) a b)], false, 20)
  | .fdiv => ([flush32 (b32.fdiv (flush32 a) (flush32 b))], false, 12)

end Sys2Proof.Machine
end

