-- ==== Sys2Proof/Machine/SylCode.lean ====
section
/-! DEFINITION. The encoding of syllables: header, opcodes and formats (R293, R299-R306), and the syllables that R298 refuses. -/

namespace Sys2Proof

open Machine

/-- Place of an integer operation in the table of R300. -/
def IntOp.no : IntOp → Nat
  | .add => 0 | .adc => 1 | .sub => 2 | .sbc => 3 | .and => 4 | .or => 5 | .xor => 6 | .andn => 7
  | .shl => 8 | .shr => 9 | .sar => 10 | .ror => 11 | .min => 12 | .max => 13 | .cmp => 14 | .tst => 15

def IntOp.ofNo : Nat → IntOp
  | 0 => .add | 1 => .adc | 2 => .sub | 3 => .sbc | 4 => .and | 5 => .or | 6 => .xor | 7 => .andn
  | 8 => .shl | 9 => .shr | 10 => .sar | 11 => .ror | 12 => .min | 13 => .max | 14 => .cmp | _ => .tst

def IntOp.isShift (k : IntOp) : Bool := k == .shl || k == .shr || k == .sar || k == .ror
/-- Nothing is written (R300). -/
def IntOp.testOnly (k : IntOp) : Bool := k == .cmp || k == .tst

/-- OP of the register operations (R300). -/
def RegOp.code : RegOp → Nat
  | .adds => 0x21 | .subs => 0x22 | .abs => 0x23 | .neg => 0x24 | .clz => 0x25 | .mull => 0x27 | .mov => 0x2A
/-- The operation takes Db (R300). -/
def RegOp.two : RegOp → Bool
  | .adds => true | .subs => true | .mull => true | _ => false

def MacOp.code : MacOp → Nat
  | .mac => 0x30 | .msu => 0x31 | .mul => 0x32
def FpOp.code : FpOp → Nat
  | .fadd => 0x38 | .fsub => 0x39 | .fmul => 0x3A | .fma => 0x3B
def LongOp.func : LongOp → Nat
  | .divs => 0 | .divu => 1 | .sqrt => 2 | .sincos => 3 | .atan2 => 4 | .fdiv => 5
def LongOp.ofFunc : Nat → LongOp
  | 0 => .divs | 1 => .divu | 2 => .sqrt | 3 => .sincos | 4 => .atan2 | _ => .fdiv
/-- The operation writes Dd and Dd+1 (R317). -/
def LongOp.pair : LongOp → Bool
  | .divs => true | .divu => true | .sincos => true | _ => false
/-- The operation takes Db (R317). -/
def LongOp.two : LongOp → Bool
  | .sqrt => false | .sincos => false | _ => true
def LoadOp.code : LoadOp → Nat
  | .ldb => 1 | .ldbu => 2 | .ldh => 3 | .ldhu => 4 | .ldw => 5 | .ldd => 6 | .ldp => 7 | .lda => 8
def LoadOp.ofCode : Nat → LoadOp
  | 1 => .ldb | 2 => .ldbu | 3 => .ldh | 4 => .ldhu | 5 => .ldw | 6 => .ldd | 7 => .ldp | _ => .lda
def StoreOp.code : StoreOp → Nat
  | .stb => 9 | .sth => 10 | .stw => 11 | .std => 12 | .stp => 13 | .sta => 14
def StoreOp.ofCode : Nat → StoreOp
  | 9 => .stb | 10 => .sth | 11 => .stw | 12 => .std | 13 => .stp | _ => .sta
def AtomOp.code : AtomOp → Nat
  | .aaddm => 0x12 | .aorm => 0x13 | .aswap => 0x14
/-- Bytes of an access (R306). -/
def LoadOp.size : LoadOp → Nat
  | .ldb => 1 | .ldbu => 1 | .ldh => 2 | .ldhu => 2 | .ldw => 4 | .ldd => 8 | .ldp => 4 | .lda => 16
def StoreOp.size : StoreOp → Nat
  | .stb => 1 | .sth => 2 | .stw => 4 | .std => 8 | .stp => 4 | .sta => 16

/-- The control register numbers of R291 and R363. -/
def crRead (n : Nat) : Bool := n ≤ 1 || (8 ≤ n && n ≤ 23) || (32 ≤ n && n ≤ 38) || (40 ≤ n && n ≤ 46)
/-- Those with a write ring. -/
def crWritten (n : Nat) : Bool := n ≤ 1 || (8 ≤ n && n ≤ 23) || (33 ≤ n && n ≤ 35) || (40 ≤ n && n ≤ 43)

/-- The register T names, by the size of the access (R299). -/
def tFits (t : Nat) (pair p a : Bool) : Bool := if p then t < 16 else if a then t < 4 else t < 32 && !(pair && t % 2 == 1)
def addrFits : Addr → Bool
  | .off o => o < 4096
  | .post o => o < 4096
  | .idx k => k < 32

/-- The slots that accept an operation (R300, R302, R305, R306). -/
def Op.slotOk : Op → Nat → Bool
  | .nop, s => s == 0
  | .int .., s => s ≤ 1
  | .reg .mull .., s => s == 1
  | .reg .., s => s ≤ 1
  | .exts .., s => s ≤ 1
  | .movi .., s => s ≤ 1
  | .movh .., s => s ≤ 1
  | .padd .., s => s ≤ 1
  | .movdp .., s => s ≤ 1
  | .movpd .., s => s ≤ 1
  | .sel .., s => s ≤ 1
  | .br .., s => s == 0
  | .jmp .., s => s == 0
  | .call .., s => s == 0
  | .callr .., s => s == 0
  | .ret, s => s == 0
  | .mfc .., s => s == 0
  | .mtc .., s => s == 0
  | .clrf .., s => s == 0
  | .gate .., s => s == 0
  | .retg, s => s == 0
  | .rete, s => s == 0
  | .wait, s => s == 0
  | .brk, s => s == 0
  | .mac .., s => s == 1 || s == 2
  | .macd .., s => s == 1 || s == 2
  | .ext .., s => s == 1 || s == 2
  | .amov .., s => s == 1 || s == 2
  | .ash .., s => s == 1 || s == 2
  | .aadd .., s => s == 1 || s == 2
  | .fp .., s => s == 1 || s == 2
  | .fcmp .., s => s == 1 || s == 2
  | .fcvt .., s => s == 1 || s == 2
  | .long .., s => s == 1 || s == 2
  | .vmac .., s => s == 1
  | .load .., s => s == 3
  | .store .., s => s == 3
  | .ldrx .., s => s == 3
  | .stcx .., s => s == 3
  | .atom .., s => s == 3
  | .blkmov .., s => s == 3
  | .blkcrc .., s => s == 3
  | .iflush .., s => s == 3
  | .fence, s => s == 3
  | .bad, _ => false

/-- The operand fields are ones the format accepts (R298-R301, R305-R307, R317, R321). -/
def Op.fieldsOk : Op → Bool
  | .int k dd da (.reg db) => dd < 32 && da < 32 && db < 32 && (!k.testOnly || dd == 0)
  | .int k dd da (.imm v) => dd < 32 && da < 32 && v < (if k.isShift then 32 else 8192) && (!k.testOnly || dd == 0)
  | .reg k dd da db => dd < 32 && da < 32 && db < 32 && (k.two || db == 0)
  | .exts f dd da => f < 4 && dd < 32 && da < 32
  | .movi dd v => dd < 32 && v < 2 ^ 18
  | .movh dd v => dd < 32 && v < 2 ^ 16
  | .padd pd ps v => pd < 16 && ps < 16 && v < 8192
  | .movdp dd ps => dd < 32 && ps < 16
  | .movpd pd ds => pd < 16 && ds < 32
  | .sel c dd da db => c < 15 && dd < 32 && da < 32 && db < 32
  | .br c v => c < 16 && v < 2 ^ 19
  | .jmp ps => ps < 16
  | .call v => v < 2 ^ 23
  | .callr ps => ps < 16
  | .mfc dd n => dd < 32 && crRead n
  | .mtc n ds => ds < 32 && crWritten n
  | .clrf m => m < 64
  | .gate n => n < 256
  | .mac _ an da db _ _ => an < 4 && da < 32 && db < 32
  | .macd an px py mx my _ _ _ _ => an < 4 && px < 8 && py < 8 && px != py && mx < 16 && my < 16
  | .ext dd an sh _ => dd < 32 && an < 4 && sh < 64
  | .amov an ds sh => an < 4 && ds < 32 && sh < 64
  | .ash an sh => an < 4 && sh < 128
  | .aadd an am => an < 4 && am < 4
  | .fp _ dd da db => dd < 32 && da < 32 && db < 32
  | .fcmp da db => da < 32 && db < 32
  | .fcvt f dd da => f < 6 && dd < 32 && da < 32
  | .long k dd da db => dd < 32 && da < 32 && db < 32 && (k.two || db == 0) && (!k.pair || dd % 2 == 0)
  | .vmac an px py dn _ _ _ => an < 4 && px < 8 && py < 8 && px != py && dn < 32
  | .load k t pb a => tFits t (k == .ldd) (k == .ldp) (k == .lda) && pb < 16 && addrFits a
  | .store k t pb a => tFits t (k == .std) (k == .stp) (k == .sta) && pb < 16 && addrFits a
  | .ldrx t pb o => t < 32 && pb < 16 && o < 4096
  | .stcx t pb o => t < 32 && pb < 16 && o < 4096
  | .atom _ dd pb ds => dd < 32 && pb < 16 && ds < 32
  | .blkmov dn ps pd => dn < 32 && ps < 16 && pd < 16
  | .blkcrc dc ps dn => dc < 32 && ps < 16 && dn < 32
  | .iflush t pb o => t < 32 && pb < 16 && o < 4096
  | .bad => false
  | _ => true

/-- A syllable that no single-syllable row of R298 refuses. -/
def Syl.ok (y : Syl) : Bool := y.op.slotOk y.slot && y.op.fieldsOk

/-- AM and the bits below it (R299, R307). -/
def Addr.enc : Addr → Nat
  | .off o => o
  | .post o => 0x1000 + o
  | .idx k => 0x2000 + k * 0x80
def Addr.dec (w : Nat) : Addr :=
  if bitsOf w 13 12 = 0 then .off (bitsOf w 11 0) else if bitsOf w 13 12 = 1 then .post (bitsOf w 11 0) else .idx (bitsOf w 11 7)

/-- OP and bits 22:0 of an operation (R299-R306). -/
def Op.enc : Op → Nat × Nat
  | .nop => (0, 0)
  | .int k dd da (.reg db) => (1 + k.no, dd * 0x40000 + da * 0x2000 + db * 0x100)
  | .int k dd da (.imm v) => (17 + k.no, dd * 0x40000 + da * 0x2000 + v)
  | .reg k dd da db => (k.code, dd * 0x40000 + da * 0x2000 + db * 0x100)
  | .exts f dd da => (0x26, dd * 0x40000 + da * 0x2000 + f * 0x10)
  | .movi dd v => (0x28, dd * 0x40000 + v)
  | .movh dd v => (0x29, dd * 0x40000 + v)
  | .padd pd ps v => (0x2B, pd * 0x80000 + ps * 0x8000 + v)
  | .movdp dd ps => (0x2C, dd * 0x40000 + ps * 0x4000)
  | .movpd pd ds => (0x2D, pd * 0x80000 + ds * 0x2000)
  | .sel c dd da db => (0x2E, dd * 0x40000 + da * 0x2000 + db * 0x100 + c * 0x10)
  | .br c v => (0x30, c * 0x80000 + v)
  | .jmp ps => (0x31, ps * 0x4000)
  | .call v => (0x32, v)
  | .callr ps => (0x33, ps * 0x4000)
  | .ret => (0x34, 0)
  | .mfc dd n => (0x35, dd * 0x40000 + n * 0x1000)
  | .mtc n ds => (0x36, ds * 0x40000 + n * 0x1000)
  | .clrf m => (0x37, m)
  | .gate n => (0x38, n)
  | .retg => (0x39, 0)
  | .rete => (0x3A, 0)
  | .wait => (0x3B, 0)
  | .brk => (0x3C, 0)
  | .mac k an da db f sz => (k.code, an * 0x200000 + da * 0x2000 + db * 0x100 + b2n f * 0x80 + b2n sz * 0x40)
  | .macd an px py mx my sz f ng cl =>
    (0x33, an * 0x200000 + px * 0x40000 + py * 0x8000 + mx * 0x800 + my * 0x80 + b2n sz * 0x40 + b2n f * 0x20 + b2n ng * 0x10 + b2n cl * 8)
  | .ext dd an sh r => (0x34, dd * 0x40000 + an * 0x10000 + sh * 0x400 + b2n r * 0x200)
  | .amov an ds sh => (0x35, an * 0x200000 + ds * 0x4000 + sh * 0x80)
  | .ash an sh => (0x36, an * 0x200000 + sh * 0x80)
  | .aadd an am => (0x37, an * 0x200000 + am * 0x80000)
  | .fp k dd da db => (k.code, dd * 0x40000 + da * 0x2000 + db * 0x100)
  | .fcmp da db => (0x3C, da * 0x2000 + db * 0x100)
  | .fcvt f dd da => (0x3D, dd * 0x40000 + da * 0x2000 + f * 0x10)
  | .long k dd da db => (0x3E, dd * 0x40000 + da * 0x2000 + db * 0x100 + k.func * 0x10)
  | .vmac an px py dn sz f ng => (0x3F, an * 0x200000 + px * 0x40000 + py * 0x8000 + dn * 0x400 + b2n sz * 0x40 + b2n f * 0x20 + b2n ng * 0x10)
  | .load k t pb a => (k.code, t * 0x40000 + pb * 0x4000 + a.enc)
  | .store k t pb a => (k.code, t * 0x40000 + pb * 0x4000 + a.enc)
  | .ldrx t pb o => (0x10, t * 0x40000 + pb * 0x4000 + o)
  | .stcx t pb o => (0x11, t * 0x40000 + pb * 0x4000 + o)
  | .atom k dd pb ds => (k.code, dd * 0x40000 + pb * 0x4000 + ds * 0x80)
  | .blkmov dn ps pd => (0x18, dn * 0x40000 + ps * 0x4000 + pd * 0x400)
  | .blkcrc dc ps dn => (0x19, dc * 0x40000 + ps * 0x4000 + dn * 0x200)
  | .iflush t pb o => (0x1A, t * 0x40000 + pb * 0x4000 + o)
  | .fence => (0x1B, 0)
  | .bad => (0, 0x7FFFFF)

/-- The word of a syllable (R293). -/
def Syl.enc (y : Syl) (stop : Bool) : Nat := b2n stop * 2 ^ 31 + y.slot * 2 ^ 29 + y.op.enc.1 * 2 ^ 23 + y.op.enc.2

/-- The integer operations of S0 and S1 that OP and bits 22:0 name, if any (R300). -/
def decInt (c w : Nat) : Option Op :=
  let dd := bitsOf w 22 18
  let da := bitsOf w 17 13
  let db := bitsOf w 12 8
  if 1 ≤ c ∧ c ≤ 0x10 then some (.int (IntOp.ofNo (c - 1)) dd da (.reg db))
  else if 0x11 ≤ c ∧ c ≤ 0x20 then some (.int (IntOp.ofNo (c - 17)) dd da (.imm (bitsOf w 12 0)))
  else if c = 0x21 then some (.reg .adds dd da db) else if c = 0x22 then some (.reg .subs dd da db)
  else if c = 0x23 then some (.reg .abs dd da db) else if c = 0x24 then some (.reg .neg dd da db)
  else if c = 0x25 then some (.reg .clz dd da db) else if c = 0x26 then some (.exts (bitsOf w 7 4) dd da)
  else if c = 0x27 then some (.reg .mull dd da db) else if c = 0x28 then some (.movi dd (bitsOf w 17 0))
  else if c = 0x29 then some (.movh dd (bitsOf w 17 0)) else if c = 0x2A then some (.reg .mov dd da db)
  else if c = 0x2B then some (.padd (bitsOf w 22 19) (bitsOf w 18 15) (bitsOf w 12 0))
  else if c = 0x2C then some (.movdp dd (bitsOf w 17 14)) else if c = 0x2D then some (.movpd (bitsOf w 22 19) da)
  else if c = 0x2E then some (.sel (bitsOf w 7 4) dd da db)
  else none

/-- The control operations of S0 (R302). -/
def decCtl (c w : Nat) : Option Op :=
  let p := bitsOf w 17 14
  let dd := bitsOf w 22 18
  if c = 0 then some .nop
  else if c = 0x30 then some (.br (bitsOf w 22 19) (bitsOf w 18 0)) else if c = 0x31 then some (.jmp p)
  else if c = 0x32 then some (.call (bitsOf w 22 0)) else if c = 0x33 then some (.callr p) else if c = 0x34 then some .ret
  else if c = 0x35 then some (.mfc dd (bitsOf w 17 12)) else if c = 0x36 then some (.mtc (bitsOf w 17 12) dd)
  else if c = 0x37 then some (.clrf (bitsOf w 5 0)) else if c = 0x38 then some (.gate (bitsOf w 7 0))
  else if c = 0x39 then some .retg else if c = 0x3A then some .rete else if c = 0x3B then some .wait else if c = 0x3C then some .brk
  else none

/-- The accumulator, fp32 and long operations of S1 and S2 (R305). -/
def decAcc (c w : Nat) : Option Op :=
  let an := bitsOf w 22 21
  let dd := bitsOf w 22 18
  let da := bitsOf w 17 13
  let db := bitsOf w 12 8
  if 0x30 ≤ c ∧ c ≤ 0x32 then some (.mac (if c = 0x30 then .mac else if c = 0x31 then .msu else .mul) an da db (bitOf w 7) (bitOf w 6))
  else if c = 0x33 then
    some (.macd an (bitsOf w 20 18) (bitsOf w 17 15) (bitsOf w 14 11) (bitsOf w 10 7) (bitOf w 6) (bitOf w 5) (bitOf w 4) (bitOf w 3))
  else if c = 0x34 then some (.ext dd (bitsOf w 17 16) (bitsOf w 15 10) (bitOf w 9))
  else if c = 0x35 then some (.amov an (bitsOf w 18 14) (bitsOf w 13 7)) else if c = 0x36 then some (.ash an (bitsOf w 13 7))
  else if c = 0x37 then some (.aadd an (bitsOf w 20 19))
  else if 0x38 ≤ c ∧ c ≤ 0x3B then some (.fp (if c = 0x38 then .fadd else if c = 0x39 then .fsub else if c = 0x3A then .fmul else .fma) dd da db)
  else if c = 0x3C then some (.fcmp da db) else if c = 0x3D then some (.fcvt (bitsOf w 7 4) dd da)
  else if c = 0x3E then some (.long (LongOp.ofFunc (bitsOf w 7 4)) dd da db)
  else if c = 0x3F then some (.vmac an (bitsOf w 20 18) (bitsOf w 17 15) (bitsOf w 14 10) (bitOf w 6) (bitOf w 5) (bitOf w 4))
  else none

/-- The memory operations of S3 (R306). -/
def decMem (c w : Nat) : Option Op :=
  let t := bitsOf w 22 18
  let p := bitsOf w 17 14
  if 1 ≤ c ∧ c ≤ 8 then some (.load (LoadOp.ofCode c) t p (Addr.dec w))
  else if 9 ≤ c ∧ c ≤ 14 then some (.store (StoreOp.ofCode c) t p (Addr.dec w))
  else if c = 0x10 then some (.ldrx t p (bitsOf w 11 0)) else if c = 0x11 then some (.stcx t p (bitsOf w 11 0))
  else if 0x12 ≤ c ∧ c ≤ 0x14 then some (.atom (if c = 0x12 then .aaddm else if c = 0x13 then .aorm else .aswap) t p (bitsOf w 11 7))
  else if c = 0x18 then some (.blkmov t p (bitsOf w 13 10)) else if c = 0x19 then some (.blkcrc t p (bitsOf w 13 9))
  else if c = 0x1A then some (.iflush t p (bitsOf w 11 0)) else if c = 0x1B then some .fence
  else none

/-- The operation of a syllable word; `bad` where R298 refuses it. A field marked 0 that is not 0 shows as a word that the operation does not encode to. -/
def opOf (w : Nat) : Op :=
  let slot := bitsOf w 30 29
  let c := bitsOf w 28 23
  let l := bitsOf w 22 0
  let cand := if slot = 3 then decMem c l
    else if slot = 0 then (match decCtl c l with
      | some o => some o
      | none => decInt c l)
    else match decAcc c l with
      | some o => some o
      | none => if slot = 1 then decInt c l else none
  match cand with
  | some o => if o.slotOk slot && o.fieldsOk && o.enc == (c, l) then o else .bad
  | none => .bad

/-- Decoding of one syllable: STOP, and the syllable (R293). -/
def decSyl (w : Nat) : Bool × Syl := (bitOf w 31, ⟨bitsOf w 30 29, opOf w⟩)

end Sys2Proof
end

