-- ==== Sys2Proof/Machine/EngRegs.lean ====
section
/-! DEFINITION. The registers of an activation: reads, writes, control registers (R289-R291, R360, R363), what a syllable writes (R294), post-modify (R308). -/

namespace Sys2Proof.Machine

def Act.dv (a : Act) (n : Nat) : Nat := (lget 0#32 a.d n).toNat
def Act.pv (a : Act) (n : Nat) : Nat := (lget 0#32 a.p n).toNat
def Act.av (a : Act) (n : Nat) : Acc := lget 0#72 a.a n
/-- SPk: P15 for the current ring (R363). -/
def Act.spv (a : Act) (k : Nat) : Word := if k = a.ring then lget 0#32 a.p 15 else lget 0#32 a.sp k

/-- The activation continues in ring `r`: P15 becomes that ring's pointer (R289, R360). -/
def Act.toRing (a : Act) (r : Nat) : Act :=
  if r = a.ring then a else { a with sp := lput a.sp a.ring (lget 0#32 a.p 15), p := lput a.p 15 (lget 0#32 a.sp r), ring := r }

/-- The writable bits of FL (R289). -/
def flMask : Nat := 0xF83F

/-- RSTAT (R364). -/
def Act.rstat (a : Act) : Word :=
  BitVec.ofNat 32 (a.tenant * 2 ^ 23 + a.slot * 2 ^ 12 + a.level * 2 ^ 8 + a.tdepth * 16 + b2n a.df * 8 + a.ring)

/-- Control register `n` of an activation of core `e` at edge `t` (R291, R363). -/
def Act.cr (a : Act) (e t n : Nat) : Word :=
  if n = 0 then a.fl else if n = 1 then a.crcp
  else if n < 16 then lget 0#32 a.b (n - 8) else if n < 24 then lget 0#32 a.l (n - 16)
  else if n = 32 then a.rstat else if n = 33 then a.tvec else if n = 34 then a.gtab else if n = 35 then a.glen
  else if n = 36 then a.faddr else if n = 37 then a.finfo else if n = 38 then BitVec.ofNat 32 (a.acycAt e t)
  else if n < 44 then a.spv (n - 40)
  else if n = 44 then a.dfret else if n = 45 then a.dffl else a.dfinfo

/-- The greatest ring that may read control register `n` (R363). -/
def crReadRing (n : Nat) : Nat :=
  if n < 33 ∨ n = 38 then 3 else if 40 ≤ n ∧ n < 44 then n - 40 else 1
/-- The greatest ring that may write it. -/
def crWriteRing (n : Nat) : Nat := if n < 32 then 3 else if 40 ≤ n ∧ n < 44 then n - 40 else 1

/-- One register write of a bundle. -/
inductive Wr where
  | d (n : Nat) (v : Word)
  | p (n : Nat) (v : Word)
  | a (n : Nat) (v : Acc)
  | cr (n : Nat) (v : Word)
deriving DecidableEq, Repr

/-- Perform a register write. -/
def Act.put (a : Act) : Wr → Act
  | .d n v => { a with d := lput a.d n v }
  | .p n v => { a with p := lput a.p n v }
  | .a n v => { a with a := lput a.a n v }
  | .cr n v =>
    if n = 0 then { a with fl := BitVec.ofNat 32 (Nat.land v.toNat flMask) }
    else if n = 1 then { a with crcp := v }
    else if n < 16 then { a with b := lput a.b (n - 8) v }
    else if n < 24 then { a with l := lput a.l (n - 16) v }
    else if n = 33 then { a with tvec := BitVec.ofNat 32 (Nat.land v.toNat 0xFFFFFFE0) }
    else if n = 34 then { a with gtab := BitVec.ofNat 32 (Nat.land v.toNat 0xFFFFFFF8) }
    else if n = 35 then { a with glen := BitVec.ofNat 32 (Nat.land v.toNat 0x1FF) }
    else if n - 40 = a.ring then { a with p := lput a.p 15 v }
    else { a with sp := lput a.sp (n - 40) v }

/-- Keys of the registers of R294: D at 0, P at 32, A at 48, control registers at 64. -/
def postKey (pb : Nat) : Addr → List Nat
  | .post o => if o = 0 then [] else [32 + pb]
  | _ => []

/-- The registers a syllable writes in ring `r`, one key for each write (R294). -/
def opDests (r : Nat) : Op → List Nat
  | .int k dd _ _ => if k.testOnly then [] else [dd]
  | .reg _ dd _ _ => [dd]
  | .exts _ dd _ => [dd]
  | .movi dd _ => [dd]
  | .movh dd _ => [dd]
  | .padd pd _ _ => [32 + pd]
  | .movdp dd _ => [dd]
  | .movpd pd _ => [32 + pd]
  | .sel _ dd _ _ => [dd]
  | .call _ => [47]
  | .callr _ => [47]
  | .ret => [47]
  | .mfc dd _ => [dd]
  | .mtc n _ => [if n = 40 + r then 47 else 64 + n]
  | .clrf _ => [64]
  | .gate _ => [47]
  | .retg => [47]
  | .rete => [47]
  | .mac _ an _ _ _ _ => [48 + an]
  | .macd an px py mx my _ _ _ _ => [48 + an] ++ (if mx = 0 then [] else [32 + px]) ++ (if my = 0 then [] else [32 + py])
  | .ext dd _ _ _ => [dd]
  | .amov an _ _ => [48 + an]
  | .ash an _ => [48 + an]
  | .aadd an _ => [48 + an]
  | .fp _ dd _ _ => [dd]
  | .fcvt _ dd _ => [dd]
  | .long k dd _ _ => if k.pair then [dd, dd + 1] else [dd]
  | .vmac an px py dn _ _ _ => [48 + an, 32 + px, 32 + py, dn]
  | .load k t pb a => (if k = .ldd then [t, t + 1] else if k = .ldp then [32 + t] else if k = .lda then [48 + t] else [t]) ++ postKey pb a
  | .store _ _ pb a => postKey pb a
  | .ldrx t _ _ => [t]
  | .atom _ dd _ _ => [dd]
  | .blkmov dn ps pd => [dn, 32 + ps, 32 + pd]
  | .blkcrc dc ps dn => [dc, 32 + ps, dn]
  | _ => []

/-- The D registers a syllable names, for the scoreboard of R319. -/
def opDregs : Op → List Nat
  | .int _ dd da (.reg db) => [dd, da, db]
  | .int _ dd da _ => [dd, da]
  | .reg _ dd da db => [dd, da, db]
  | .exts _ dd da => [dd, da]
  | .movi dd _ => [dd]
  | .movh dd _ => [dd]
  | .movdp dd _ => [dd]
  | .movpd _ ds => [ds]
  | .sel _ dd da db => [dd, da, db]
  | .mfc dd _ => [dd]
  | .mtc _ ds => [ds]
  | .mac _ _ da db _ _ => [da, db]
  | .ext dd _ _ _ => [dd]
  | .amov _ ds _ => [ds]
  | .fp _ dd da db => [dd, da, db]
  | .fcmp da db => [da, db]
  | .fcvt _ dd da => [dd, da]
  | .long _ dd da db => [dd, dd + 1, da, db]
  | .vmac _ _ _ dn _ _ _ => [dn]
  | .load _ t _ a => [t, t + 1] ++ (match a with
    | .idx k => [k]
    | _ => [])
  | .store _ t _ a => [t, t + 1] ++ (match a with
    | .idx k => [k]
    | _ => [])
  | .ldrx t _ _ => [t]
  | .stcx t _ _ => [t]
  | .atom _ dd _ ds => [dd, ds]
  | .blkmov dn _ _ => [dn]
  | .blkcrc dc _ dn => [dc, dn]
  | _ => []

def opIsLong : Op → Bool
  | .long .. => true
  | _ => false
/-- The syllable reads or writes FL.S as a whole. -/
def opUsesS : Op → Bool
  | .mfc _ n => n == 0
  | .mtc n _ => n == 0
  | .clrf _ => true
  | .br c _ => c == 15
  | .rete => true
  | _ => false
def opIsMicro : Op → Bool
  | .vmac .. => true
  | .blkmov .. => true
  | .blkcrc .. => true
  | _ => false

/-- Slots ascend through a bundle (R293). -/
def ascending : List Syl → Bool
  | a :: b :: r => decide (a.slot < b.slot) && ascending (b :: r)
  | _ => true

/-- No number occurs twice. -/
def distinct : List Nat → Bool
  | [] => true
  | a :: r => !r.contains a && distinct r

/-- Post-modify of Pn by `m` (R308): the value written. -/
def Act.postMod (a : Act) (n : Nat) (m : Int) : Word :=
  let v := ux 32 ((a.pv n : Int) + m)
  let l := if n ≤ 7 then (lget 0#32 a.l n).toNat else 0
  let b := (lget 0#32 a.b n).toNat
  BitVec.ofNat 32 (
    if l = 0 then v
    else if (b + l) % 2 ^ 32 ≤ v then ux 32 ((v : Int) - l)
    else if v < b then (v + l) % 2 ^ 32
    else v)

/-- Effective address and post-modify amount of a MEM syllable (R307). -/
def Act.ea (a : Act) (pb : Nat) : Addr → Nat × Int
  | .off o => (ux 32 ((a.pv pb : Int) + sx 12 o), 0)
  | .post o => (a.pv pb, sx 12 o)
  | .idx k => ((a.pv pb + a.dv k) % 2 ^ 32, 0)

/-- FINFO (R364). -/
def Flt.info (f : Flt) (ring : Nat) : Word :=
  BitVec.ofNat 32 (f.detail * 2 ^ 28 + b2n f.micro * 2 ^ 12 + b2n f.split * 2 ^ 11 + b2n f.ecc * 2 ^ 10 + f.kind * 2 ^ 8 + f.slot * 64 + ring * 16 + f.cause)

/-- The bytes a register write contributes to SIG (R493; the order inside a bundle is the model's, log 23). -/
def Wr.bytes : Wr → List Nat
  | .d n v => n :: leBytes v.toNat 4
  | .p n v => (32 + n) :: leBytes v.toNat 4
  | .a n v => (48 + n) :: leBytes v.toNat 9
  | .cr n v => if n = 0 then 64 :: leBytes v.toNat 4 else []

end Sys2Proof.Machine
end

