-- ==== Sys2Proof/Machine/EngAlu.lean ====
section
/-! DEFINITION. What the syllables that touch no memory write: register writes and flags from the activation before the bundle (R294, R300, R301, R305, R312, R313, R320, R321). -/

namespace Sys2Proof.Machine

def Act.flagC (a : Act) : Bool := bitOf a.fl.toNat 2
/-- AMODE bit of accumulator `n` (R289). -/
def Act.amode (a : Act) (n : Nat) : Bool := bitOf a.fl.toNat (12 + n)

/-- A write of accumulator `n` with its exact value (R313). -/
def Act.accWr (a : Act) (n : Nat) (x : Int) : List Wr × FlagOut :=
  let r := accOut (a.amode n) x
  ([.a n r.1], ⟨0, 0, r.2.2, r.2.1⟩)

/-- One step of a MACD or VMAC with its fetched operands (R305, R325). -/
def Act.macStep (a : Act) (an : Nat) (f sz neg clr : Bool) (x y : Nat) : List Wr × FlagOut :=
  let p := product f sz x y
  let o : Int := if clr then 0 else accVal (a.av an)
  a.accWr an (if neg then o - p else o + p)

def wordD (n v : Nat) : Wr := .d n (BitVec.ofNat 32 v)
def wordP (n v : Nat) : Wr := .p n (BitVec.ofNat 32 v)

/-- The writes and flags of a syllable that touches no memory; none for the others. -/
def Act.alu (a : Act) : Op → Option (List Wr × FlagOut)
  | .nop => some ([], .none)
  | .int k dd da b =>
    let y := match b with
      | .reg db => a.dv db
      | .imm v => immOf k v
    let r := intOp k (a.dv da) y a.flagC
    some (if k.testOnly then [] else [wordD dd r.1], r.2)
  | .reg k dd da db => let r := regOp k (a.dv da) (a.dv db); some ([wordD dd r.1], r.2)
  | .exts f dd da => some ([wordD dd (extsOp f (a.dv da))], .none)
  | .movi dd v => some ([wordD dd (ux 32 (sx 18 v))], .none)
  | .movh dd v => some ([wordD dd (putBits (a.dv dd) 31 16 v)], .none)
  | .padd pd ps v => some ([wordP pd (ux 32 ((a.pv ps : Int) + sx 13 v))], .none)
  | .movdp dd ps => some ([wordD dd (a.pv ps)], .none)
  | .movpd pd ds => some ([wordP pd (a.dv ds)], .none)
  | .sel c dd da db => some ([wordD dd (if condHolds c a.fl.toNat then a.dv da else a.dv db)], .none)
  | .mac k an da db f sz =>
    let p := product f sz (a.dv da) (a.dv db)
    match k with
    | .mac => some (a.accWr an (accVal (a.av an) + p))
    | .msu => some (a.accWr an (accVal (a.av an) - p))
    | .mul => some ([.a an (BitVec.ofNat 72 (ux 72 p))], .none)
  | .ext dd an sh rd => let r := extOp (a.av an) sh rd; some ([wordD dd r.1], r.2)
  | .amov an ds sh => some (a.accWr an (sx 32 (a.dv ds) * 2 ^ sh))
  | .ash an sh7 =>
    let k := sx 7 sh7
    some (a.accWr an (if 0 ≤ k then accVal (a.av an) * 2 ^ k.toNat else asr (accVal (a.av an)) (-k).toNat))
  | .aadd an am => some (a.accWr an (accVal (a.av an) + accVal (a.av am)))
  | .fp k dd da db => let r := fpOp k (a.dv dd) (a.dv da) (a.dv db); some ([wordD dd r.1], r.2)
  | .fcmp da db => some ([], fcmpFlags (a.dv da) (a.dv db))
  | .fcvt f dd da => let r := fcvtOp f (a.dv da); some ([wordD dd r.1], r.2)
  | _ => none

/-- FL after a bundle's flag effects, in slot order: for each of Z, N, C, V the last that defines it, S and G sticky (R290, R295). -/
def flApply (fl : Nat) (l : List FlagOut) : Nat :=
  l.foldl (fun w x =>
    let w := w - Nat.land w x.mask + Nat.land x.val x.mask
    Nat.lor w (b2n x.s * 32 + b2n x.g * 16)) fl

end Sys2Proof.Machine
end

