-- ==== Sys2Proof/Machine/Wear.lean ====
section
/-! DEFINITION. The channel's mode (R51) and the wear ledger (R216-R220). -/

namespace Sys2Proof.Machine

/-- CHAN[c].MODE.SEL: 0 monitoring point, 1 drive axis, 2 converter (R51). -/
def State.mode (s : State) (c : Nat) : Nat := s.f (Reg.CHAN.MODE c) 1 0

/-- Leg `n` is in use: every leg of a drive axis, the LEGEN legs of a converter (R51, R54). -/
def State.legOn (s : State) (c n : Nat) : Bool := s.mode c == 1 || (s.mode c == 2 && s.b (Reg.CHAN.MODE c) (8 + n))

/-- Leg `n` of the ledger runs (R216). -/
def State.wearOn (s : State) (c n : Nat) : Bool :=
  s.runs (Reg.WEAR.page c) && s.b (Reg.WEAR.CFG c) n && s.legOn c n

/-- Add one current sample (Q1.15) to leg `n` (R217). -/
def wearAdd (c n : Nat) (x : Int) (s : State) : State :=
  if s.wearOn c n then
    let st := s.ch c
    let l := lget WearLeg.idle st.wear n
    s.setCh c { st with wear := lput st.wear n { l with a1 := l.a1 + x.natAbs, a2 := l.a2 + x.natAbs * x.natAbs, k := l.k + 1 } }
  else s

/-- R219: record a half-cycle of swing `w` (32 fraction bits) of leg `n`. -/
def wearRecord (c n : Nat) (w : Nat) (s : State) : State :=
  let hyst := s.f (Reg.WEAR.HYST c) 15 0 * 2 ^ 16
  let q := w / hyst
  let b := if 128 ≤ q then 7 else Nat.log2 q
  let hc := Reg.WEAR.HC c (8 * n + b)
  let dm := Reg.WEAR.DAMAGE c n
  let wt := s.f (Reg.WEAR.WEIGHT c b) 15 0
  let satd := (s.reg hc).toNat + 1 > 0xFFFFFFFF || (s.reg dm).toNat + wt > 0xFFFFFFFF
  let s := (s.cntAdd hc 31 0 1 true).cntAdd dm 31 0 wt true
  let s := s.setStatBit (Reg.WEAR.page c) 0
  if satd then s.setStatBit (Reg.WEAR.page c) 1 else s

/-- One leg's tick (R217, R218): the new proxy and, when a reversal is found, its swing. -/
def wearLegTick (c : Nat) (s : State) (l : WearLeg) : WearLeg × Option Nat :=
  let kc : Int := s.f (Reg.WEAR.KLOSS c) 31 16
  let ks : Int := s.f (Reg.WEAR.KLOSS c) 15 0
  let tk := s.f (Reg.WEAR.CFG c) 12 8
  let hyst : Int := s.f (Reg.WEAR.HYST c) 15 0 * 2 ^ 16
  let p : Int :=
    if l.k = 0 then l.p
    else
      clampI 0 (2 ^ 32 - 2 ^ 16) (openDiv 0x700 (kc * (l.a2 : Nat) + ks * (l.a1 : Nat) * 2 ^ 15) (2 ^ 13 * (l.k : Nat)))
  let t := l.t + openDiv 0x710 (p - l.t) (2 ^ tk)
  let l := { l with a1 := 0, a2 := 0, k := 0, p := p, t := t }
  if l.rising then
    if l.e < t then ({ l with e := t }, none)
    else if hyst ≤ l.e - t then ({ l with x := l.e, e := t, rising := false }, some (l.e - l.x).natAbs)
    else (l, none)
  else
    if t < l.e then ({ l with e := t }, none)
    else if hyst ≤ t - l.e then ({ l with x := l.e, e := t, rising := true }, some (l.x - l.e).natAbs)
    else (l, none)

/-- One leg's tick in the state; the flag says that it recorded a half-cycle. -/
def wearTickLeg (c : Nat) (a : State × Bool) (n : Nat) : State × Bool :=
  let s := a.1
  if s.wearOn c n then
    let st := s.ch c
    let r := wearLegTick c s (lget WearLeg.idle st.wear n)
    let s1 := s.setCh c { st with wear := lput st.wear n r.1 }
    let s1 := s1.setF (Reg.WEAR.TEMP c n) 15 0 (ux 16 (asr r.1.t 16))
    match r.2 with
    | none => (s1, a.2)
    | some w =>
      if (s.f (Reg.WEAR.HYST c) 15 0 * 2 ^ 16) ≤ w then (wearRecord c n w s1, true) else (s1, a.2)
  else a

/-- WEAR_TICK at a valley: every running leg; WEAR_STEP once when any recorded (R217-R219). -/
def wearTick (c : Nat) (s : State) : State :=
  let r := [0, 1, 2].foldl (wearTickLeg c) (s, false)
  if r.2 then r.1.chanEvent c 31 else r.1

end Sys2Proof.Machine
end

