-- ==== Sys2Proof/Machine/Pwm.lean ====
section
/-! DEFINITION. Output enables (R54-R56), the PWM counter, legs, dead time and blanking (R171-R190), trips (R190-R196). -/

namespace Sys2Proof.Machine

def State.pwm (s : State) (c : Nat) : PwmSt := (s.ch c).pwm
def State.setPwm (s : State) (c : Nat) (p : PwmSt) : State := s.setCh c { s.ch c with pwm := p }
def State.trip (s : State) (c : Nat) : TripSt := (s.ch c).trip
def State.setTrip (s : State) (c : Nat) (p : TripSt) : State := s.setCh c { s.ch c with trip := p }
def State.leg (s : State) (c n : Nat) : LegSt := lget LegSt.idle (s.pwm c).legs n
def State.setLeg (s : State) (c n : Nat) (l : LegSt) : State := s.setPwm c { s.pwm c with legs := lput (s.pwm c).legs n l }

/-- Voted power-stage enable of the channel (R56). -/
def State.psen (s : State) (c : Nat) : Bool := s.b (Reg.CHAN.STATUS c) 31

/-- The conditions of R54 that do not depend on the leg. -/
def State.outCond (s : State) (c : Nat) : Bool :=
  s.en (Reg.CHAN.page c) && (s.mode c == 1 || s.mode c == 2) && s.en (Reg.PWM.page c) && s.psen c && !(s.trip c).tripped
    && !s.off (Reg.CHAN.page c) && !s.off (Reg.PWM.page c) && !s.off (Reg.TRIP.page c)

/-- PERLIVE (R173). -/
def State.perlive (s : State) (c : Nat) : Nat := s.f (Reg.PWM.PERLIVE c) 19 0
/-- CFG.CTR: edge-aligned counter. -/
def State.edgeAligned (s : State) (c : Nat) : Bool := s.b (Reg.PWM.CFG c) 12
/-- H = floor(PERLIVE / 2) (R173). -/
def State.half (s : State) (c : Nat) : Nat := s.perlive c / 2
/-- Length of the running period (R173). -/
def State.pwmPeriod (s : State) (c : Nat) : Nat := if s.edgeAligned c then s.perlive c else 2 * s.half c

/-- COUNT.VAL and COUNT.DIR at the current edge (R173). -/
def State.pwmCount (s : State) (c : Nat) : Nat × Bool :=
  if (s.pwm c).run then
    let t := (s.now - (s.pwm c).valley) % (if s.pwmPeriod c = 0 then 1 else s.pwmPeriod c)
    if s.edgeAligned c then (t, false)
    else if t ≤ s.half c then (t, false) else (2 * s.half c - t, true)
  else (0, false)

/-- The COUNT register as read (R173). -/
def State.countWord (s : State) (c : Nat) : Word :=
  let r := s.pwmCount c
  BitVec.ofNat 32 (b2n r.2 * 2 ^ 31 + b2n (s.pwm c).run * 2 ^ 30 + r.1)

/-- PWM.OUT from the legs: which outputs are on and which drive (R54, R185). -/
def pwmShowOut (c : Nat) (s : State) : State :=
  let on := [0, 1, 2].foldl (fun w n => w + b2n (s.leg c n).onH * 2 ^ (2 * n) + b2n (s.leg c n).onL * 2 ^ (2 * n + 1)) 0
  let drv := [0, 1, 2].foldl (fun w n => w + b2n ((s.pwm c).driving && s.legOn c n) * 3 * 2 ^ (2 * n)) 0
  s.setReg (Reg.PWM.OUT c) (BitVec.ofNat 32 (drv * 64 + on))

/-- All outputs to high impedance (R55); a leg restarts its own periods when they resume (R185). -/
def pwmRelease (c : Nat) (s : State) : State :=
  let p := s.pwm c
  pwmShowOut c (s.setPwm c { p with
    driving := false,
    legs := p.legs.map (fun l => { l with onH := false, onL := false, dt := none, nextStart := none, offAt := none }) })

/-- Re-judge R54 after anything it depends on has changed (R55, R185). -/
def pwmRecheck (c : Nat) (s : State) : State :=
  let p := s.pwm c
  let ok := s.outCond c
  if ok == p.cond then s
  else if ok then s.setPwm c { p with cond := true, condAt := s.now }
  else pwmRelease c (s.setPwm c { p with cond := false })

/-- A turn-on whose dead time has passed before edge `t` has happened (R183). -/
def legSettle (t : Nat) (l : LegSt) : LegSt :=
  match l.dt with
  | some d => if d.due < t then { l with dt := none, onH := l.onH || d.high, onL := l.onL || !d.high, frac := d.frac } else l
  | none => l

/-- The high-side target of leg `n` changes at edge `t` with `frac` delay-line steps: the other side turns off, its own side waits for its dead time, a pending turn-on is swallowed, blanking opens on a launched edge (R177, R178, R183, R189). -/
def legTarget (c n : Nat) (on : Bool) (t frac : Nat) (s : State) : State :=
  let l := legSettle t (s.leg c n)
  if l.target == on then s
  else
    let swallow := l.dt.isSome
    let launched := if on then l.onL else l.onH
    let delay := if on then s.f (Reg.PWM.DT c n) 11 0 else s.f (Reg.PWM.DT c n) 27 16
    let may := (s.pwm c).driving && s.legOn c n && (on || !s.b (Reg.PWM.LEGCFG c n) 2)
    let l := { l with
      target := on, onH := l.onH && on, onL := l.onL && !on,
      frac := if launched then frac else l.frac,
      dt := if may then some ⟨on, t + delay, frac⟩ else none,
      blankUntil := if launched then t + s.f (Reg.PWM.LEGCFG c n) 26 16 else l.blankUntil }
    let s := pwmShowOut c (s.setLeg c n l)
    if swallow then s.setStatBit (Reg.PWM.page c) 0 else s

/-- DEAD_TIME_END: the pending turn-on of leg `n` takes place and blanking restarts (R183, R189). -/
def legTurnOn (c n : Nat) (s : State) : State :=
  match (s.leg c n).dt with
  | none => s
  | some d =>
    let s := s.moveTo d.due
    let l := s.leg c n
    pwmShowOut c (s.setLeg c n { l with
      dt := none, onH := l.onH || d.high, onL := l.onL || !d.high, frac := d.frac,
      blankUntil := d.due + s.f (Reg.PWM.LEGCFG c n) 26 16 })

/-- Leg mode: FIXED 0, VON 1, VOFF 2; a drive axis is FIXED (R176). -/
def State.legMode (s : State) (c n : Nat) : Nat := if s.mode c = 2 then s.f (Reg.PWM.LEGCFG c n) 1 0 else 0

/-- Live compare of leg `n`: whole CCLK and eighths (R177). -/
def State.cmpInt (s : State) (c n : Nat) : Nat := s.lf (Reg.PWM.CMP c n) 22 3
def State.cmpFrac (s : State) (c n : Nat) : Nat := s.lf (Reg.PWM.CMP c n) 2 0

/-- The pending target change of a FIXED leg in the running half: launch edge, steps, new target (R177-R179). -/
def State.fixedChange (s : State) (c n : Nat) : Option (Nat × Nat × Bool) :=
  let p := s.pwm c
  let i := s.cmpInt c n
  let fr := s.cmpFrac c n
  let raw : Option (Nat × Nat × Bool) :=
    if s.edgeAligned c then (if i < s.perlive c then some (p.valley + i, fr, true) else none)
    else if p.falling then
      if i < s.half c then
        (if fr = 0 then (if i = 0 then none else some (p.valley + 2 * s.half c - i, 0, false))
         else some (p.valley + 2 * s.half c - i - 1, 8 - fr, false))
      else none
    else if i < s.half c then some (p.valley + i, fr, true) else none
  if (s.leg c n).changed then none
  else raw.map (fun r => if p.xferAt ≠ 0 ∧ r.1 ≤ p.xferAt then (p.xferAt + 1, 0, r.2.2) else r)

/-- The ramp of comparator `n` restarts at a period start of its leg, latching START and SLOPE (R129, R130). -/
def rampReload (c n : Nat) (s : State) : State :=
  if s.mode c = 2 ∧ s.legOn c n ∧ s.b (Reg.CMP.CFG c n) 11 then
    let st := s.ch c
    s.setCh c { st with cmp := { st.cmp with ramp := lput st.cmp.ramp n (some ⟨s.f (Reg.CMP.RAMP c n) 25 16, s.f (Reg.CMP.RAMP c n) 15 0, s.now⟩) } }
  else s

/-- LEG_PERIOD_START of a VON or VOFF leg: latch VA and VB, turn the target on unless VA is 0, plan the end of the on-time (R180, R181). -/
def legPeriod (c n : Nat) (s : State) : State :=
  match (s.leg c n).nextStart with
  | none => s
  | some t =>
    let s := s.moveTo t
    let m := s.legMode c n
    let va := s.f (Reg.PWM.VA c n) 19 0
    let vb := s.f (Reg.PWM.VB c n) 19 0
    let s := if va = 0 then legTarget c n false t 0 s else legTarget c n true t 0 s
    let l := s.leg c n
    let s := s.setLeg c n { l with
      va := va, vb := vb,
      offAt := if va = 0 then none else if m = 2 then some (t + va) else if va < vb then some (t + va) else none,
      nextStart := if m = 1 then some (t + vb) else if va = 0 then some (t + vb) else none }
    rampReload c n s

/-- The on-time of a VOFF leg ends at edge `t` (R181). -/
def voffEnd (c n t : Nat) (s : State) : State :=
  let s := legTarget c n false t 0 s
  let l := s.leg c n
  s.setLeg c n { l with offAt := none, nextStart := some (t + l.vb) }

/-- ON_TIME_END: TON of a VON leg or TONMAX of a VOFF leg (R180, R181). -/
def legOnEnd (c n : Nat) (s : State) : State :=
  match (s.leg c n).offAt with
  | none => s
  | some t =>
    let s := s.moveTo t
    if s.legMode c n = 2 then (voffEnd c n t s).setStatBit (Reg.PWM.page c) 1
    else
      let s := legTarget c n false t 0 s
      s.setLeg c n { s.leg c n with offAt := none }

/-- LEG_END: the comparator of a VOFF leg ends the on-time at the next edge while its blanking window is closed (R125, R181). -/
def cmpLegEnd (c n : Nat) (s : State) : State :=
  let cfg := s.reg (Reg.CMP.CFG c n)
  let selfTest := bitsOf cfg.toNat 19 15 ≠ 0
  if n < 3 ∧ bitOf cfg.toNat 10 ∧ ¬selfTest ∧ s.mode c = 2 ∧ s.legOn c n ∧ s.legMode c n = 2 ∧ s.b (Reg.CMP.RAW c) n
     ∧ (s.leg c n).target ∧ (s.leg c n).offAt.isSome ∧ (s.leg c n).blankUntil ≤ s.now then voffEnd c n (s.now + 1) s
  else s

/-- Some enabled leg's blanking window is open (R189, R190). -/
def State.blankOpen (s : State) (c : Nat) : Bool :=
  [0, 1, 2].any (fun n => s.legOn c n && decide (s.now < (s.leg c n).blankUntil))

/-- Largest BLANK of the enabled legs (R190). -/
def State.blankMax (s : State) (c : Nat) : Nat :=
  [0, 1, 2].foldl (fun m n => if s.legOn c n then max m (s.f (Reg.PWM.LEGCFG c n) 26 16) else m) 0

/-- The active, unblanked level of trip source `i` (R191, R127, R195). -/
def State.tripLevel (s : State) (c i : Nat) : Bool :=
  let t := s.trip c
  if i = 0 then t.qualA && (s.mode c == 0 || s.b (Reg.TRIP.CFG c) 0)
  else if i = 1 then t.qualB && (s.mode c == 0 || s.b (Reg.TRIP.CFG c) 1)
  else if i < 12 then
    let n := if i < 7 then i - 2 else i - 7
    let cfg := s.reg (Reg.CMP.CFG c n)
    bitOf cfg.toNat (if i < 7 then 8 else 9) && bitsOf cfg.toNat 19 15 == 0 && s.b (Reg.CMP.RAW c) (if i < 7 then n else 5 + n)
  else false

/-- TRIP.SRC as read. -/
def State.tripSrc (s : State) (c : Nat) : Nat := (List.range 13).foldl (fun w i => w + b2n (s.tripLevel c i) * 2 ^ i) 0

/-- A trip latches from a LATCH of zero (R193, R212). -/
def tripLatch (c mask : Nat) (s : State) : State :=
  let t := s.trip c
  let cnt := s.pwmCount c
  let p := s.pwm c
  let s := s.setPwm c { p with legs := p.legs.map (fun l => { l with blankUntil := 0 }) }
  let s := s.setTrip c { t with tripped := true, waitValley := false }
  let s := s.setF (Reg.CHAN.STATUS c) 30 30 1
  let s := s.chanEvent c 26
  let s := s.setStatBit (Reg.TRIP.page c) 0
  let s := s.setReg (Reg.TRIP.FIRST c) (BitVec.ofNat 32 (0x80000000 + mask))
  let s := s.setReg (Reg.TRIP.FIRSTCNT c) (BitVec.ofNat 32 (b2n cnt.2 * 2 ^ 31 + cnt.1))
  let s := s.cntAdd (Reg.TRIP.TRIPCNT c) 31 0 1 true
  let s := pwmRecheck c s
  if s.b (Reg.CHISEL.CFG c) 15 then (s.hwUpd (Reg.CHISEL.INTD c) 23 0 0).hwUpd (Reg.CHISEL.INTQ c) 23 0 0 else s

/-- Judge every trip source at this edge; `sw` is the software source (R190, R191, R193, R195, R196). -/
def tripJudge (c : Nat) (sw : Bool) (s : State) : State :=
  let t := s.trip c
  let since := (List.range 13).map (fun i => if s.tripLevel c i then some ((lget none t.since i).getD s.now) else none)
  let s := s.setTrip c { t with since := since }
  if s.mode c = 0 ∨ s.off (Reg.TRIP.page c) then s
  else
    let blanked := !t.tripped && s.blankOpen c
    let ignored := fun i => blanked && s.b (Reg.TRIP.BLANKEN c) i &&
      (match lget none since i with
       | some e => decide (s.now < e + s.blankMax c)
       | none => true)
    let mask := (List.range 13).foldl (fun w i => w + b2n ((s.tripLevel c i || (i == 12 && sw)) && !ignored i) * 2 ^ i) 0
    if mask = 0 then s
    else
      let old := s.f (Reg.TRIP.LATCH c) 12 0
      let s := s.hwSet (Reg.TRIP.LATCH c) (BitVec.ofNat 32 mask)
      if old = 0 then tripLatch c mask s else s

/-- Synchronised pin level `k` (0 TRIPA, 1 TRIPB) is active at the polarity of CFG (R192). -/
def State.pinActive (s : State) (c k : Nat) : Bool :=
  let l := if k = 0 then (s.trip c).lvlA else (s.trip c).lvlB
  l != s.b (Reg.TRIP.CFG c) (2 + k)

/-- Qualification of pin `k` starts, or its qualified level ends (R192). -/
def tripPinStart (c k t : Nat) (s : State) : State :=
  let tr := s.trip c
  if s.pinActive c k then
    (if k = 0 then s.setTrip c { tr with firstA := some t } else s.setTrip c { tr with firstB := some t })
  else tripJudge c false
    (if k = 0 then s.setTrip c { tr with firstA := none, qualA := false } else s.setTrip c { tr with firstB := none, qualB := false })

/-- TRIP_PIN_CHANGE: TRIPA (0) or TRIPB (1) takes level `lvl` (R58, R192). -/
def tripPin (c k : Nat) (lvl : Bool) (s : State) : State :=
  let tr := s.trip c
  let was := s.pinActive c k
  let s := s.setTrip c (if k = 0 then { tr with lvlA := lvl } else { tr with lvlB := lvl })
  let s := s.setPin c k lvl
  if s.off (Reg.TRIP.page c) then s
  else if s.pinActive c k == was then s else tripPinStart c k s.now s

/-- TRIP_QUALIFY: the pin has been active for FILT edges (R192, R195). -/
def tripQualify (c k : Nat) (s : State) : State :=
  let tr := s.trip c
  match (if k = 0 then tr.firstA else tr.firstB) with
  | none => s
  | some t =>
    let s := s.moveTo (t + s.f (Reg.TRIP.CFG c) (15 + 8 * k) (8 + 8 * k))
    let s := s.setTrip c (if k = 0 then { tr with firstA := none, qualA := true } else { tr with firstB := none, qualB := true })
    let s := if s.mode c = 0 then s.setStatBit (Reg.CHAN.page c) 2 else s
    tripJudge c false s

/-- The effect of a CFG write on qualification: it starts afresh (R196). -/
def tripRestart (c : Nat) (s : State) : State :=
  let tr := s.trip c
  let fa := if s.pinActive c 0 then some (s.now + 1) else none
  let fb := if s.pinActive c 1 then some (s.now + 1) else none
  tripJudge c false (s.setTrip c { tr with qualA := false, qualB := false, firstA := fa, firstB := fb })

/-- A write of ones to LATCH: the bits clear unless their cause persists; with LATCH 0 the trip waits for a valley (R194). -/
def tripClear (c : Nat) (bits : Word) (s : State) : State :=
  let a := Reg.TRIP.LATCH c
  let keep := (s.log.hw.lookup a).getD 0#32
  let s := s.setReg a (s.reg a &&& ~~~(bits &&& ~~~keep))
  let act := (List.range 12).foldl (fun w i => w + b2n (s.tripLevel c i) * 2 ^ i) 0
  let s := if (s.trip c).tripped ∧ ¬(s.trip c).waitValley then s.setReg a (s.reg a ||| BitVec.ofNat 32 act) else s
  if (s.trip c).tripped ∧ s.reg a = 0#32 then s.setTrip c { s.trip c with waitValley := true } else s

/-- The trip's wait ends (R194): TRIPPED clears and RESUME is set. -/
def tripEnd (c : Nat) (s : State) : State :=
  if (s.trip c).waitValley then
    ((s.setTrip c { s.trip c with tripped := false, waitValley := false }).setF (Reg.CHAN.STATUS c) 30 30 0).setStatBit (Reg.TRIP.page c) 1
  else s

/-- A FIXED leg at the start of a half or period: its target there (R177). -/
def legHalf (c n : Nat) (on : Bool) (s : State) : State :=
  if s.legMode c n = 0 then
    let s := legTarget c n on s.now 0 s
    s.setLeg c n { s.leg c n with changed := on != (s.pwm c).falling }
  else s

/-- The outputs resume at a valley: every output off, targets turn on after their dead time, VON and VOFF legs start (R185). -/
def pwmResume (c : Nat) (s : State) : State :=
  let p := s.pwm c
  let s := s.setPwm c { p with driving := true }
  let go := fun (s : State) (n : Nat) =>
    let l := s.leg c n
    if s.legOn c n then
      if s.legMode c n = 0 then
        let d := if l.target then s.f (Reg.PWM.DT c n) 11 0 else s.f (Reg.PWM.DT c n) 27 16
        s.setLeg c n { l with
          onH := false, onL := false,
          dt := if l.target || !s.b (Reg.PWM.LEGCFG c n) 2 then some ⟨l.target, s.now + d, 0⟩ else none }
      else
        s.setLeg c n { l with
          onH := false, onL := false, target := false, nextStart := some s.now, offAt := none,
          dt := if s.b (Reg.PWM.LEGCFG c n) 2 then none else some ⟨false, s.now + s.f (Reg.PWM.DT c n) 27 16, 0⟩ }
    else s
  pwmShowOut c ([0, 1, 2].foldl go s)

/-- CMPLIVE shows the live compares (R186). -/
def pwmShowLive (c : Nat) (s : State) : State :=
  [0, 1, 2].foldl (fun t n => t.setReg (Reg.PWM.CMPLIVE c n) (t.lreg (Reg.PWM.CMP c n))) s

/-- Everything that happens at a valley edge, the clock standing at it (R173, R175, R177, R185, R186, R194, R217). -/
def pwmValleyAt (c : Nat) (s : State) : State :=
  let s := pwmShowLive c (s.boundary (Reg.PWM.page c))
  let s := s.setReg (Reg.PWM.PERLIVE c) (s.lreg (Reg.PWM.PERIOD c))
  let s := s.setPwm c { s.pwm c with valley := s.now, falling := false, xferAt := 0 }
  let s := s.chanEvent c 18
  let ended := (s.trip c).waitValley
  let s := pwmRecheck c (tripEnd c s)
  let s := [0, 1, 2].foldl (fun t n => legHalf c n (t.cmpInt c n == 0 && t.cmpFrac c n == 0) t) s
  let p := s.pwm c
  let s := if p.cond && !p.driving && (ended || decide (p.condAt < s.now)) then pwmResume c s else s
  let s := [0, 1, 2].foldl (fun t n => if t.legMode c n = 0 then rampReload c n t else t) s
  wearTick c s

/-- COUNTER_START (R171): the armed counter starts at 0, which is a valley. -/
def pwmStart (c : Nat) (s : State) : State :=
  match (s.pwm c).startAt with
  | none => s
  | some t =>
    let s := s.moveTo t
    pwmValleyAt c (s.setPwm c { s.pwm c with run := true, wait := false, startAt := none, trgFrom := [t, t] })

/-- PWM_VALLEY (R173). -/
def pwmValley (c : Nat) (s : State) : State :=
  if (s.pwm c).run then pwmValleyAt c (s.moveTo ((s.pwm c).valley + s.pwmPeriod c)) else s

/-- PWM_PEAK (R173, R175, R186, R187). -/
def pwmPeak (c : Nat) (s : State) : State :=
  if (s.pwm c).run ∧ ¬s.edgeAligned c ∧ ¬(s.pwm c).falling then
    let s := s.moveTo ((s.pwm c).valley + s.half c)
    let s := pwmShowLive c (s.boundary (Reg.PWM.page c))
    let s := s.setPwm c { s.pwm c with falling := true, xferAt := 0 }
    let s := s.chanEvent c 19
    [0, 1, 2].foldl (fun t n => legHalf c n (decide (t.cmpInt c n < t.half c)) t) s
  else s

/-- The edges of the running period at which trigger point `k` is reached (R175). -/
def State.trgEdges (s : State) (c k : Nat) : List Nat :=
  let v := s.lf (Reg.PWM.TRGPT c k) 19 0
  let d := s.lf (Reg.PWM.TRGPT c k) 31 30
  let v0 := (s.pwm c).valley
  if d = 0 then []
  else if s.edgeAligned c then (if v < s.perlive c then [v0 + v] else [])
  else if s.half c < v then []
  else if v = 0 ∨ v = s.half c then [v0 + v]
  else (if d % 2 = 1 then [v0 + v] else []) ++ (if 2 ≤ d then [v0 + 2 * s.half c - v] else [])

/-- TRIGGER_POINT_REACHED (R175). -/
def pwmTrigger (c k : Nat) (s : State) : State :=
  let p := s.pwm c
  if p.run then
    match (s.trgEdges c k).filter (fun t => decide (lget 0 p.trgFrom k ≤ t)) with
    | [] => s
    | t :: _ =>
      let s := s.moveTo t
      let s := s.setPwm c { s.pwm c with trgFrom := lput (s.pwm c).trgFrom k (t + 1) }
      s.chanEvent c (20 + k)
  else s

/-- COMPARE_MATCH of a FIXED leg (R177-R179). -/
def pwmCompare (c n : Nat) (s : State) : State :=
  if (s.pwm c).run ∧ s.legMode c n = 0 then
    match s.fixedChange c n with
    | none => s
    | some (t, fr, on) =>
      let s := legTarget c n on t fr (s.moveTo t)
      s.setLeg c n { s.leg c n with changed := true }
  else s

/-- PWM EN goes to 1, or a write that counts as one (R171): the counter is armed or waits for SYNCID. -/
def pwmArm (c : Nat) (s : State) : State :=
  let p := s.pwm c
  let s := if s.b (Reg.PWM.CFG c) 16 then s.setPwm c { p with run := false, wait := true, startAt := none }
           else s.setPwm c { p with run := false, wait := false, startAt := some (nextEdge 8 s.now) }
  pwmRecheck c s

/-- PWM EN goes to 0 (R171). -/
def pwmStop (c : Nat) (s : State) : State :=
  pwmRecheck c (s.setPwm c { s.pwm c with run := false, wait := false, startAt := none })

/-- The sync event reaches a waiting counter (R171, R172). -/
def pwmSync (c : Nat) (s : State) : State :=
  if (s.pwm c).wait then s.setPwm c { s.pwm c with wait := false, startAt := some (alignUp 8 s.now) } else s

/-- BLANK_END: sources and the leg end of the leg are judged again (R181, R190). -/
def pwmBlankEnd (c n : Nat) (s : State) : State :=
  let t := (s.leg c n).blankUntil
  if t = 0 then s
  else cmpLegEnd c n (tripJudge c false (s.moveTo t))

/-- TRIP_BLANK_LIMIT: source `i` has been active for the largest BLANK (R190). -/
def tripLimit (c i : Nat) (s : State) : State :=
  match lget none (s.trip c).since i with
  | none => s
  | some e => tripJudge c false (s.moveTo (e + s.blankMax c))

/-- The latency record when a leg compare shadow write lands (R59). -/
def latRecord (c : Nat) (s : State) : State :=
  match (s.ch c).latAt with
  | none => s
  | some t =>
    let n := satN 0xFFFF (s.now - t)
    let s := s.setCh c { s.ch c with latAt := none }
    let s := s.setF (Reg.CHAN.LAT c) 15 0 n
    let s := if s.f (Reg.CHAN.LAT c) 31 16 < n then s.hwLoadRC (Reg.CHAN.LAT c) 31 16 n else s
    let lim := s.f (Reg.CHAN.LATLIM c) 15 0
    if lim ≠ 0 ∧ lim < n then (s.cntAdd (Reg.CHAN.LATOVER c) 31 0 1 false).setStatBit (Reg.CHAN.page c) 0 else s

/-- The voted enable of a channel takes level `v` (R56). -/
def psenSet (c : Nat) (v : Bool) (s : State) : State :=
  if s.psen c == v then s
  else
    let s := s.setF (Reg.CHAN.STATUS c) 31 31 (b2n v)
    let s := pwmRecheck c s
    if !v && s.en (Reg.CHAN.page c) then s.setStatBit (Reg.CHAN.page c) 1 else s

end Sys2Proof.Machine
end

