-- ==== Sys2Proof/Machine/CalTime.lean ====
section
/-! DEFINITION. Device time and its discipline (R243-R248), line angles (R226-R231). -/

namespace Sys2Proof.Machine

def State.time (s : State) : TimeSt := s.cal.time
def State.setTime (s : State) (t : TimeSt) : State := { s with cal := { s.cal with time := t } }
def State.ang (s : State) (k : Nat) : AngleSt := tget (fun _ => AngleSt.idle) s.cal.angles k
def State.setAng (s : State) (k : Nat) (a : AngleSt) : State := { s with cal := { s.cal with angles := tput (fun _ => AngleSt.idle) s.cal.angles k a } }

/-- FREQ as a signed value (R243). -/
def State.freq (s : State) : Int := sx 32 (s.reg Reg.CALIPER0.FREQ).toNat
/-- Advance of time at one CCLK edge in 2^-42 ns: 1.25 ns x (1 + FREQ x 2^-40) (R243). -/
def State.timeAdv (s : State) : Int := 5 * 2 ^ 40 + 5 * s.freq
/-- Part of the slew removed after `n` ACLK edges (R247). -/
def TimeSt.slewed (x : TimeSt) (n : Nat) : Int :=
  let m : Int := min (n * x.step) x.rem.natAbs
  if 0 ≤ x.rem then m else -m
/-- Device time at edge `e` in 2^-42 ns (R243, R247). -/
def State.timeAt (s : State) (e : Nat) : Int :=
  let x := s.time
  x.t + ((e : Int) - x.at_) * s.timeAdv - x.slewed (e / 8 - x.at_ / 8)
/-- 2^-42 ns in a nanosecond. -/
def nsUnit : Int := 2 ^ 42
/-- Nanoseconds since second 0 at edge `e`. -/
def State.nsAt (s : State) (e : Nat) : Int := s.timeAt e / nsUnit
/-- TIME_NS and TIME_SEC at edge `e`. -/
def State.timeNs (s : State) (e : Nat) : Nat := (s.nsAt e % 1000000000).toNat
def State.timeSec (s : State) (e : Nat) : Nat := (s.nsAt e / 1000000000).toNat % 2 ^ 48
/-- Stamp format of device time (R77, R225). -/
def State.timeStamp (s : State) (e : Nat) : Nat := s.timeSec e % 4 * 2 ^ 30 + s.timeNs e

/-- Anchor device time at the current edge. -/
def timeSync (s : State) : State :=
  let x := s.time
  s.setTime { x with at_ := s.now, t := s.timeAt s.now, rem := x.rem - x.slewed (s.now / 8 - x.at_ / 8) }

/-- The least edge from `lo` on, below `lo + 2^bits`, at which the rising function `f` reaches `x`. -/
def firstAt (f : Nat → Int) (x : Int) : Nat → Nat → Nat
  | 0, lo => if x ≤ f lo then lo else lo + 1
  | b + 1, lo => if x ≤ f (lo + 2 ^ b - 1) then firstAt f x b lo else firstAt f x b (lo + 2 ^ b)

/-- The edge of the next second boundary (R243). -/
def State.secondEdge (s : State) : Nat := firstAt s.timeAt ((s.time.nextSec : Int) * 1000000000 * nsUnit) 34 s.time.at_
/-- The edge at which TIME_NS next reaches a multiple of 250,000 (R231). -/
def State.quarterEdge (s : State) : Nat := firstAt s.timeAt ((s.time.slot + 1) * 250000 * nsUnit) 34 s.time.at_

/-- Live LSRC of angle `k`: 0 OFF, 1 LOCAL, 2 LINE, 3 DERIVED (R227). -/
def State.lsrc (s : State) (k : Nat) : Nat := s.lf (Reg.CALIPER1.LCFG k) 2 0
/-- Live WRAP of angle `k`. -/
def State.angWrap (s : State) (k : Nat) : Nat :=
  let w := (s.lreg (Reg.CALIPER1.WRAP k)).toNat
  if w = 0 then 2 ^ 32 else w
/-- RATE of angle `k` (Q16.16). -/
def State.angRate (s : State) (k : Nat) : Int := sx 32 (s.reg (Reg.CALIPER1.RATE k)).toNat

/-- The advances τ of device time over the ACLK edges after ACLK edge number `j`: how many edges, and τ in 2^-42 ns (R228, R247). -/
def State.taus (s : State) (j : Nat) : List (Nat × Int) :=
  let x := s.time
  let full := 8 * s.timeAdv
  let nS := if x.step = 0 then 0 else x.rem.natAbs / x.step
  let part : Int := if x.step = 0 then 0 else (x.rem.natAbs % x.step : Nat)
  let sg : Int := if 0 ≤ x.rem then 1 else -1
  let j0 := x.at_ / 8
  let last := j0 + nS
  [(last - j, full - sg * x.step), (if part ≠ 0 ∧ j < last + 1 then 1 else 0, full - sg * part), (2 ^ 64, full)]

/-- The change of one edge in 2^-16 counts (R228). -/
def angInc (rate tau corr : Int) (cn : Nat) (on : Bool) : Int :=
  let b := 10 * nsUnit * 2 ^ cn
  nearOpen 0x228 (rate * tau * 2 ^ cn + (if on then corr * (10 * nsUnit) else 0)) b

/-- Runs of equal changes: the edges of `l`, the first `left` of them with a share of the correction. -/
def angRuns (rate corr : Int) (cn : Nat) : Nat → List (Nat × Int) → List (Nat × Int)
  | _, [] => []
  | left, (n, tau) :: r =>
    let m := min n left
    (m, angInc rate tau corr cn true) :: (n - m, angInc rate tau corr cn false) :: angRuns rate corr cn (left - m) r

/-- Sum of the first `n` changes. -/
def runSum : List (Nat × Int) → Nat → Int
  | [], _ => 0
  | (m, i) :: r, n => if n ≤ m then i * n else i * m + runSum r (n - m)

/-- The runs of angle `k` after its anchor. -/
def State.angRuns (s : State) (k : Nat) : List (Nat × Int) :=
  let a := s.ang k
  if s.lsrc k = 0 then [(2 ^ 64, 0)] else Machine.angRuns (s.angRate k) a.corr a.cn a.left (s.taus (a.at_ / 8))

/-- Angle `k` at edge `e`, in 2^-16 counts (R228). -/
def State.ang16 (s : State) (k e : Nat) : Nat :=
  let a := s.ang k
  if e < a.at_ then a.before
  else (((a.a : Int) + runSum (s.angRuns k) (e / 8 - a.at_ / 8)) % ((s.angWrap k : Int) * 65536)).toNat
/-- ANGLE[k] at edge `e`. -/
def State.angle (s : State) (k e : Nat) : Nat := s.ang16 k e / 65536

/-- Anchor angle `k` at the latest ACLK edge. -/
def angSync (k : Nat) (s : State) : State :=
  let a := s.ang k
  if s.now < a.at_ then s
  else
    let n := s.now / 8 - a.at_ / 8
    let v := s.ang16 k s.now
    s.setAng k { a with at_ := s.now / 8 * 8, a := v, before := v, left := a.left - n }

/-- Anchor every angle. -/
def angSyncAll (s : State) : State := (List.range 16).foldl (fun t k => angSync k t) s

/-- Time runs with a new FREQ or slew from this edge; the ACLK in progress has a share of both rates (R228, R243). -/
def timeChange (f : State → State) (s : State) : State :=
  let old := s.timeAdv
  let s := timeSync (angSyncAll s)
  let s := f s
  let q := s.now % 8
  if q = 0 ∨ s.timeAdv = old then s
  else
    let mix := fun (t : State) (k : Nat) =>
      let a := t.ang k
      if t.lsrc k = 0 ∨ t.now < a.at_ then t
      else
        let tau := (match t.taus (t.now / 8) with
          | (n, x) :: (m, y) :: (_, z) :: _ => if 0 < n then x else if 0 < m then y else z
          | _ => 8 * t.timeAdv) + (q : Int) * (old - t.timeAdv)
        let i := angInc (t.angRate k) tau a.corr a.cn (decide (0 < a.left))
        t.setAng k { a with at_ := a.at_ + 8, a := (((a.a : Int) + i) % ((t.angWrap k : Int) * 65536)).toNat, left := a.left - 1 }
    (List.range 16).foldl mix s

/-- Set RATE of angle `k` from LSRC (R227). -/
def angSetRate (k : Nat) (s : State) : State :=
  let src := s.lsrc k
  let r := Reg.CALIPER1.RATE k
  if src = 0 then (s.setReg r 0#32).setAng k AngleSt.idle
  else if src = 1 then s.setReg r (s.lreg (Reg.CALIPER1.RATESET k))
  else if src = 3 then
    s.setReg r (BitVec.ofNat 32 (ux 32 (nearOpen 0x227 (s.angRate (s.lf (Reg.CALIPER1.LCFG k) 11 8) * (s.lreg (Reg.CALIPER1.RATIO k)).toNat) (2 ^ 24))))
  else s

/-- VALID of angle `k` when its source changes (R230): LOCAL and DERIVED are valid, OFF is not, LINE waits for a slot. -/
def angSetValid (k was : Nat) (s : State) : State :=
  let src := s.lsrc k
  let l := Reg.CALIPER1.LSTAT k
  if src = was then s
  else if src = 1 ∨ src = 3 then s.setReg l 0x80000000#32
  else s.setReg l 0#32

/-- The live fields of CALIPER[1] have changed: every angle is anchored under the old ones before `f`, and runs under the new ones after it (R227, R231). -/
def angChange (f : State → State) (s : State) : State :=
  let s := angSyncAll s
  let was := (List.range 16).map s.lsrc
  let s := f s
  let go := fun (t : State) (k : Nat) =>
    let a := t.ang k
    let t := t.setAng k { a with a := a.a % (t.angWrap k * 65536), before := a.before % (t.angWrap k * 65536) }
    let t := if t.lsrc k = lget 0 was k then t else t.setAng k { t.ang k with corr := 0, left := 0 }
    angSetValid k (lget 0 was k) (angSetRate k t)
  (List.range 16).foldl go s

/-- The rates of DERIVED angles follow their bases (R227). -/
def angDerive (s : State) : State := (List.range 16).foldl (fun t k => if t.lsrc k = 3 then angSetRate k t else t) s

/-- The signed difference `x` modulo `w`: the representative nearest 0. -/
def signedMod (x w : Int) : Int :=
  let r := x % w
  if w ≤ 2 * r then r - w else r

/-- A slot for LINE angle `k` is used at this ACLK edge: angle `a` in 2^-16 counts, rate `r`, and the device time (2^-42 ns) at which they hold (R229, R230). The flag says that the angle jumped. -/
def angSlot (k a : Nat) (r : Int) (t : Int) (s : State) : State × Bool :=
  if s.lsrc k = 2 then
    let s := angSyncAll s
    let w : Int := (s.angWrap k : Int) * 65536
    let pred := (a : Int) + nearOpen 0x229 (r * (s.timeAt s.now - t)) (10 * nsUnit)
    let e := signedMod (pred - (s.ang16 k s.now : Nat)) w
    let s := s.setReg (Reg.CALIPER1.RATE k) (BitVec.ofNat 32 (ux 32 r))
    let s := s.setReg (Reg.CALIPER1.LERR k) (BitVec.ofNat 32 (ux 32 (satS 32 (asr e 16))))
    let s := s.setReg (Reg.CALIPER1.LSTAT k) 0x80000000#32
    let x := s.ang k
    let jump := decide ((s.reg Reg.CALIPER1.LJUMP).toNat * 65536 < e.natAbs)
    let cn := s.lf (Reg.CALIPER1.LCFG k) 19 16
    let v := if jump then (pred % w).toNat else x.a
    let s := s.setAng k { x with a := v, before := v, corr := if jump then 0 else e, cn := cn, left := if jump then 0 else 2 ^ cn }
    let s := angDerive s
    (if jump then s.setStatBit Reg.CALIPER1.page k else s, jump)
  else (s, false)

/-- A line cycle passed without a slot for angle `k` (R230). -/
def angMissed (k : Nat) (s : State) : State :=
  if s.lsrc k = 2 then
    let l := Reg.CALIPER1.LSTAT k
    let was := s.b l 30
    let s := (s.setF l 7 0 (satN 255 (s.f l 7 0 + 1))).setF l 30 30 1
    if was then s else s.setStatBit Reg.CALIPER1.page 16
  else s

/-- Remember an offset for LOCK, show it, and leave holdover (R248). -/
def timeOffsetSeen (theta : Int) (s : State) : State :=
  let d := Reg.CALIPER0.DSTAT
  let s := s.setReg Reg.CALIPER0.OFFSET (BitVec.ofNat 32 (ux 32 (satS 32 theta)))
  let s := s.setF d 31 31 0
  let x := s.time
  let good := (decide (theta.natAbs ≤ 40) :: x.good).take 8
  let s := s.setTime { x with good := good, ofsAt := s.now }
  let lock := good.length == 8 && good.all id
  let was := s.b d 30
  let s := s.setF d 30 30 (b2n lock)
  if was && !lock then s.setStatBit Reg.CALIPER0.page 1 else s

/-- The servo takes an offset θ in ns (R247, R248). -/
def timeOffset (theta : Int) (s : State) : State :=
  let s := timeOffsetSeen theta s
  if (s.reg Reg.CALIPER0.STEPLIM).toNat < theta.natAbs then
    match s.time.staged with
    | some ⟨none, _⟩ => s
    | _ => (s.setTime { s.time with staged := some ⟨some theta, s.now⟩ }).setF Reg.CALIPER0.SETCTL 8 8 1
  else
    timeChange (fun t =>
      let t := t.hwUpd Reg.CALIPER0.FREQ 31 0 (ux 32 (satS 32 (t.freq - asr (theta * (t.reg Reg.CALIPER0.GI).toNat) 16)))
      let n := (t.reg Reg.CALIPER0.SLEWN).toNat
      let step := (openDiv 0x247 ((theta.natAbs : Int) * nsUnit) ((if n = 0 then 1 else n : Nat) : Int)).toNat
      t.setTime { t.time with rem := theta * nsUnit, step := min step 21990232555 }) s

/-- OFSGO (R247). -/
def timeSubmit (s : State) : State :=
  if s.f Reg.CALIPER0.DISC 1 0 = 2 then timeOffset (sx 32 (s.reg Reg.CALIPER0.OFSIN).toNat) s else s

/-- APPLY and CANCEL of one SETCTL write (R245). -/
def timeArm (apply cancel : Bool) (s : State) : State :=
  if apply then (s.setTime { s.time with staged := some ⟨none, s.now⟩ }).setF Reg.CALIPER0.SETCTL 8 8 1
  else if cancel then (s.setTime { s.time with staged := none }).setF Reg.CALIPER0.SETCTL 8 8 0
  else s

/-- HOLDOVER (R248). -/
def timeHoldover (s : State) : State :=
  let src := s.f Reg.CALIPER0.DISC 1 0
  if (src = 1 ∨ src = 2) ∧ ¬s.b Reg.CALIPER0.DSTAT 31 then
    let s := s.moveTo (s.time.ofsAt + s.f Reg.CALIPER0.DISC 31 16 * 800)
    (s.setF Reg.CALIPER0.DSTAT 31 31 1).setStatBit Reg.CALIPER0.page 3
  else s

/-- The new time at a second boundary, if one is staged before this edge (R245, R248). -/
def State.stagedTime (s : State) : Option Int :=
  let rd := fun a => ((s.log.sw.lookup a).getD (s.reg a)).toNat
  match s.time.staged with
  | none => none
  | some g =>
    if g.at_ < s.now then
      match g.theta with
      | some th => some (((s.time.nextSec : Int) * 1000000000 - th) * nsUnit)
      | none => some (((rd Reg.CALIPER0.SET_SEC_LO + rd Reg.CALIPER0.SET_SEC_HI * 2 ^ 32 : Nat) * 1000000000 + (rd Reg.CALIPER0.SET_NS : Nat) : Int) * nsUnit)
    else none

/-- The number of the 250,000 ns interval that starts at or before time `t`; one less when `t` is its start, so that the boundary there still comes. -/
def slotOf (t : Int) : Int := (t - 1) / (250000 * nsUnit)

/-- SECOND_BOUNDARY up to the reseating of time entries (R243, R245, R246); the flag says that time stepped. -/
def timeSecond (s : State) : State × Bool :=
  let s := s.moveTo s.secondEdge
  let s := s.setStatBit Reg.CALIPER0.page 0
  match s.stagedTime with
  | none => (s.setTime { s.time with nextSec := s.time.nextSec + 1 }, false)
  | some t =>
    let s := timeSync (angSyncAll s)
    let s := s.setTime { s.time with t := t, rem := 0, step := 0, staged := none, nextSec := (t / (1000000000 * nsUnit) + 1).toNat, slot := slotOf t }
    ((s.setF Reg.CALIPER0.SETCTL 8 8 0).setStatBit Reg.CALIPER0.page 2, true)

/-- A read of TIME_NS latches the seconds into the copy of agent `g` (R244). -/
def timeLatch (g : Nat) (s : State) : State :=
  s.setTime { s.time with copies := tput (fun _ => 0) s.time.copies g (s.timeSec s.now) }

/-- The agent's copy of the seconds. -/
def State.secCopy (s : State) (g : Nat) : Nat := tget (fun _ => 0) s.time.copies g

end Sys2Proof.Machine
end

