-- ==== Sys2Proof/Machine/MaqMath.lean ====
section
/-! DEFINITION. The arithmetic of a Maquette job (R264, R266-R274): interpolation, half-band stages, statistics, windows, transform, features. -/

namespace Sys2Proof.Machine

/-- The binary32 pattern of a value with 72 fraction bits. -/
def f32Of72 (x : Int) : Nat := b32.round (decide (x < 0)) x.natAbs (-72) false

/-- h[1], h[3], …, h[23] of a half-band stage (R271 item 2). -/
def halfCoef : List Nat :=
  [0x3EA1FAB3, 0xBDCD9A70, 0x3D5F5DF0, 0xBD090F5F, 0x3CAD2835, 0xBC585926, 0x3C024C6B, 0xBB93E3CC, 0x3B19D70F, 0xBA8C5BF3, 0x39CCBDAB, 0xB8AC26BC]

/-- The output of a half-band stage centred on the input 23 back (R271 item 2); inputs before the first count as 0. -/
def halfOut (h : List Nat) : Nat :=
  let x := fun i => lget 0 h i
  (halfCoef.zip (List.range 12)).foldl
    (fun y ck => let k := 2 * ck.2 + 1; b32.fadd y (b32.fmul ck.1 (b32.fadd (x (23 + k)) (x (23 - k)))))
    (b32.fmul 0x3F000000 (x 23))

/-- Feed one input point to a stage. -/
def stageFeed (s : Stage) (x : Nat) : Stage × Option Nat :=
  let h := (x :: s.hist).take 47
  let c := s.cnt
  (⟨h, c + 1⟩, if 23 ≤ c ∧ (c - 23) % 2 = 0 then some (halfOut h) else none)

/-- Feed a cascade: the output point of its last stage if one is formed, and the number of points its stages emitted. -/
def cascade : List Stage → Nat → List Stage × Option Nat × Nat
  | [], x => ([], some x, 0)
  | s :: r, x =>
    match stageFeed s x with
    | (s', none) => (s' :: r, none, 0)
    | (s', some y) => let t := cascade r y; (s' :: t.1, t.2.1, t.2.2 + 1)

/-- The complex band-pass and its magnitude (R271 item 3); `h` newest first. -/
def envelope (taps : List (Nat × Nat)) (h : List Nat) : Nat :=
  let a := (taps.zip (List.range taps.length)).foldl
    (fun (acc : Nat × Nat) tk =>
      let x := lget 0 h tk.2
      let p := (b32.fmul tk.1.1 x, b32.fmul tk.1.2 x)
      if tk.2 = 0 then p else (b32.fadd acc.1 p.1, b32.fadd acc.2 p.2)) (0, 0)
  b32.fsqrt (b32.fadd (b32.fmul a.1 a.1) (b32.fmul a.2 a.2))

/-- A Lagrange weight n / d as binary32. The manual forms it in binary64 first, in an order it does not state: the result is the nearest value or a neighbour of it (log 7). -/
def weight (n d : Int) : Nat :=
  ulpDev 0x264 (if d < 0 then b32.ofRat (-n) d.natAbs else b32.ofRat n d.natAbs)

/-- Product of the differences of `g` to every coordinate but the `i`-th. -/
def lagNum (g : Int) (ps : List Int) (i : Nat) : Int :=
  (ps.zip (List.range ps.length)).foldl (fun a pk => if pk.2 = i then a else a * (g - pk.1)) 1

/-- The value at coordinate `g` through the samples `ss`, ascending (R264, R271 item 1). A coordinate that coincides with a sample takes its value. -/
def interp (g : Int) (ss : List Samp) : Nat :=
  match ss.find? (fun s => s.phi == g) with
  | some s => s.x
  | none =>
    let ps := ss.map (fun s => s.phi)
    (ss.zip (List.range ss.length)).foldl
      (fun y sk =>
        let p := b32.fmul (weight (lagNum g ps sk.2) (lagNum sk.1.phi ps sk.2)) sk.1.x
        if sk.2 = 0 then p else b32.fadd y p) 0

/-- Add a grid point to a record's sums (R268). -/
def recAdd (r : RecSt) (x : Nat) (ns : Int) : RecSt :=
  let v := f32Int x
  { r with
    t0 := if r.n = 0 then ns else r.t0, t1 := ns, n := r.n + 1,
    s1 := r.s1 + v, s2 := r.s2 + v * v, s3 := r.s3 + v * v * v, s4 := r.s4 + v * v * v * v,
    mx := if r.n = 0 ∨ r.mx < v then v else r.mx, mn := if r.n = 0 ∨ v < r.mn then v else r.mn }

/-- n² times the variance, in units of 2^-298. -/
def RecSt.varN (r : RecSt) : Int := r.n * r.s2 - r.s1 * r.s1

/-- MEAN, RMS, PEAK, CREST, SKEW, KURT (R268). The order in which hops are combined is not stated: each is the nearest binary32 value or a neighbour (log 7). -/
def statistics (r : RecSt) : List Nat :=
  let n : Int := r.n
  let u : Nat := 2 ^ 149 * r.n
  let v := r.varN
  let pk := max (n * r.mx - r.s1) (r.s1 - n * r.mn)
  let m3 := n * n * r.s3 - 3 * n * r.s1 * r.s2 + 2 * r.s1 * r.s1 * r.s1
  let m4 := n * n * n * r.s4 - 4 * n * n * r.s1 * r.s3 + 6 * n * r.s1 * r.s1 * r.s2 - 3 * r.s1 * r.s1 * r.s1 * r.s1
  let mean := b32.ofRat r.s1 u
  let rms := b32.ofRoot v.toNat (u * u)
  let peak := b32.ofRat pk u
  let tail := if v ≤ 0 then [0, 0, 0]
    else
      let d := v.toNat
      [b32.ofRoot (pk.natAbs * pk.natAbs) d, (if m3 < 0 then 2 ^ 31 else 0) + b32.ofRoot (m3.natAbs * m3.natAbs) (d * d * d), b32.ofRat m4 (d * d)]
  ([mean, rms, peak] ++ tail).map (ulpDev 0x268)

/-- Window value n of N = 2^k points (R270, R271 item 4). -/
def windowAt (kind k n : Nat) : Nat :=
  if kind = 0 then 0x3F800000
  else if kind = 1 then
    let s := (sincosTurn (k + 1) n).1
    b32.round false (s * s).natAbs (-144) false
  else
    let c := fun m => (sincosTurn k (m * n)).2
    b32.ofRat (215578950 * one72 - 416631580 * c 1 + 277263158 * c 2 - 83578947 * c 3 + 6947368 * c 4) (1000000000 * 2 ^ 72)

def windowList (kind k : Nat) : List Nat := (List.range (2 ^ k)).map (windowAt kind k)

/-- Sum in binary64, in ascending index. -/
def sum64 (l : List Nat) : Nat := l.foldl b64.fadd 0

/-- The block with its mean subtracted (R270, R271 item 4). -/
def meanFree (l : List Nat) : List Nat :=
  let m := cvt b64 b32 (b64.fdiv (sum64 (l.map (cvt b32 b64))) (b64.ofRat l.length 1))
  l.map (fun x => b32.fsub x m)

/-- Elements of even and odd index. -/
def evens {α : Type} : List α → List α
  | [] => []
  | [a] => [a]
  | a :: _ :: r => a :: evens r
def odds {α : Type} : List α → List α
  | [] => []
  | [_] => []
  | _ :: b :: r => b :: odds r

/-- W × b with every product and sum rounded (R271 item 5). -/
def twiddle (s m : Nat) (b : Nat × Nat) : Nat × Nat :=
  let sc := sincosTurn s m
  let wr := f32Of72 sc.2
  let wi := f32Of72 (-sc.1)
  (b32.fsub (b32.fmul wr b.1) (b32.fmul wi b.2), b32.fadd (b32.fmul wr b.2) (b32.fmul wi b.1))

/-- The radix-2 decimation-in-time transform of 2^s points (R271 item 5). -/
def fft : Nat → List (Nat × Nat) → List (Nat × Nat)
  | 0, l => l
  | s + 1, l =>
    let a := fft s (evens l)
    let b := fft s (odds l)
    let t := (b.zip (List.range b.length)).map (fun bm => twiddle (s + 1) bm.2 bm.1)
    (a.zip t).map (fun at_ => (b32.fadd at_.1.1 at_.2.1, b32.fadd at_.1.2 at_.2.2))
      ++ (a.zip t).map (fun at_ => (b32.fsub at_.1.1 at_.2.1, b32.fsub at_.1.2 at_.2.2))

/-- Windowed transform of a block of 2^k points. -/
def spectrum (kind k : Nat) (block : List Nat) : List (Nat × Nat) :=
  fft k ((block.zip (windowList kind k)).map (fun xw => (b32.fmul xw.1 xw.2, 0)))

/-- |X|² in binary64. -/
def power64 (x : Nat × Nat) : Nat :=
  let a := cvt b32 b64 x.1
  let b := cvt b32 b64 x.2
  b64.fadd (b64.fmul a a) (b64.fmul b b)

/-- Sum of |X_k|² over k = a … b, bin 0 weighted one half where `half` (R273). -/
def binSum (sp : List (Nat × Nat)) (a b : Nat) (half : Bool) : Nat :=
  sum64 ((List.range (b + 1 - a)).map (fun i =>
    let p := power64 (lget (0, 0) sp (a + i))
    if half ∧ a + i = 0 then b64.fmul p 0x3FE0000000000000 else p))

/-- N × Σ w² in binary64. -/
def windowPower (kind k : Nat) : Nat :=
  b64.fmul (b64.ofRat (2 ^ k : Nat) 1) (sum64 ((windowList kind k).map (fun w => let v := cvt b32 b64 w; b64.fmul v v)))

/-- Amplitude of an order (R273). -/
def orderAmp (s w : Nat) : Nat := cvt b64 b32 (b64.fmul 0x4000000000000000 (b64.fsqrt (b64.fdiv s w)))
/-- RMS of a band (R273). -/
def bandRms (s w : Nat) : Nat := cvt b64 b32 (b64.fsqrt (b64.fdiv (b64.fmul 0x4000000000000000 s) w))

end Sys2Proof.Machine
end

