-- ==== Sys2Proof/Machine/Maquette.lean ====
section
/-! DEFINITION. The Maquette: intake (R251-R254), jobs and their descriptors (R255-R260, R272, R275), resampling and streaming (R261-R269), block work and limits (R270-R277, R282), frames (R278-R281), control (R284-R287). -/

namespace Sys2Proof.Machine

def State.maq (s : State) (p : Nat) : MaqSt := tget (fun _ => MaqSt.idle) s.maqs p
def State.setMaq (s : State) (p : Nat) (m : MaqSt) : State := { s with maqs := tput (fun _ => MaqSt.idle) s.maqs p m }
def State.job (s : State) (p k : Nat) : JobSt := tget (fun _ => JobSt.idle) (s.maq p).jobs k
def State.setJob (s : State) (p k : Nat) (j : JobSt) : State := s.setMaq p { s.maq p with jobs := tput (fun _ => JobSt.idle) (s.maq p).jobs k j }
/-- JCTL.EN of a slot. -/
def State.jobEn (s : State) (p k : Nat) : Bool := s.b (Reg.MAQ.JCTL p k) 31
/-- Owner of MAQ[p]. -/
def State.maqOwner (s : State) (p : Nat) : Nat := s.f (Reg.MAQ.page p + 4) 8 0
/-- First byte of Maquette p's memory. -/
def maqBase (p : Nat) : Nat := 0xC0000000 + p * 0x80000
/-- The Maquette as a requester of its memory (R411). -/
def maqRq (p : Nat) (s : State) : MemRq := ⟨s.maqOwner p, 104 + p, 1⟩

/-- Fields of a little-endian byte list. -/
def d8 (l : List Nat) (o : Nat) : Nat := lget 0 l o
def d16 (l : List Nat) (o : Nat) : Nat := d8 l o + 256 * d8 l (o + 1)
def d32 (l : List Nat) (o : Nat) : Nat := d16 l o + 65536 * d16 l (o + 2)

/-- Fields of a descriptor (R257). -/
def dStamp (d : List Nat) : Nat := bitsOf (d8 d 0) 1 0
def dCubic (d : List Nat) : Bool := bitOf (d8 d 0) 2
def dRaw (d : List Nat) : Bool := bitOf (d8 d 0) 3
def dEnv (d : List Nat) : Bool := bitOf (d8 d 0) 4
def dTime (d : List Nat) : Bool := dStamp d == 2
def dDr (d : List Nat) : Nat := d8 d 0x12
def dDe (d : List Nat) : Nat := d8 d 0x13
def dNr (d : List Nat) : Nat := d8 d 0x14
def dNe (d : List Nat) : Nat := d8 d 0x15
def dTaps (d : List Nat) : Nat := d8 d 0x16
/-- Record length L and hop H (R257, R269). -/
def dLen (d : List Nat) : Nat := 2 ^ (dNr d + dDr d)
def dHop (d : List Nat) : Nat := dLen d / 2 ^ d8 d 0x0D
def dTrig (d : List Nat) : Bool := bitOf (d16 d 0x1E) 15
def dWrap (d : List Nat) : Nat := if d32 d 4 = 0 then 2 ^ 32 else d32 d 4
/-- GRID with 16 fraction bits. -/
def dGrid (d : List Nat) : Int := d32 d 8 * 256

/-- Round up to 64 bytes (R258). -/
def up64 (n : Nat) : Nat := (n + 63) / 64 * 64

/-- Offsets of the areas in the region: TAPS, FEAT, LIM, STATE, INRING, RAWBUF, ENVBUF, FRAMES, end (R258). -/
def areas (d : List Nat) : List Nat :=
  let sizes := [64, 8 * dTaps d, 8 * d8 d 0x18, 16 * d8 d 0x19, 4096 + 8 * dTaps d, 8 * 2 ^ d8 d 0x17,
    if dRaw d then 4 * 2 ^ dNr d else 0, if dEnv d then 4 * 2 ^ dNe d else 0, 256 * 2 ^ d8 d 0x1A]
  (sizes.foldl (fun (a : List Nat × Nat) z => (a.1 ++ [a.2 + up64 z], a.2 + up64 z)) ([], 0)).1
def area (d : List Nat) (k : Nat) : Nat := lget 0 (areas d) k

/-- Kmax of a branch (R272). -/
def kMax (dec nlog : Nat) : Nat := if dec = 0 then 2 ^ nlog / 2 - 1 else 2 * 2 ^ nlog / 5

/-- Centre bin of an order entry (R270, R273). -/
def centreBin (d : List Nat) (a nlog dec : Nat) : Nat :=
  let x := a * 2 ^ (nlog + dec) * d32 d 8
  let y := 65536 * dWrap d
  (2 * x + y) / (2 * y)

/-- Offset in a feature entry of the field that breaks R272. -/
def featBad (d e : List Nat) : Option Nat :=
  let k := d8 e 0
  let env := k == 2 || k == 4
  let nlog := if env then dNe d else dNr d
  let dec := if env then dDe d else dDr d
  let km := kMax dec nlog
  let hw := d8 e 1
  let a := d16 e 4
  let b := d16 e 6
  if k < 1 ∨ 4 < k ∨ (env && !dEnv d) ∨ (!env && !dRaw d) ∨ (k ≤ 2 ∧ dTime d) then some 0
  else if (k ≤ 2 ∧ 15 < hw) ∨ (3 ≤ k ∧ hw ≠ 0) then some 1
  else if d16 e 2 ≠ 0 then some 2
  else if k ≤ 2 then
    if a < 0x80 ∨ 0x4000 < a then some 4
    else if b ≠ 0 then some 6
    else
      let c := centreBin d a nlog dec
      if c < 1 + hw ∨ km < c + hw then some 4 else none
  else if b < a ∨ km < b then some 6 else none

/-- Offset in a limit entry of the field that breaks R275. -/
def limBad (d e : List Nat) : Option Nat :=
  let f := d8 e 0
  let warn := d32 e 4
  let alarm := d32 e 8
  let ok := decide (f ≤ 5) || (decide (8 ≤ f) && decide (f < 8 + d8 d 0x18))
  if !ok then some 0
  else if 1 < d8 e 1 then some 1
  else if d8 e 2 = 0 then some 2
  else if d8 e 3 = 0 then some 3
  else if !b32.isFinite warn then some 4
  else if !b32.isFinite alarm ∨ (d8 e 1 = 0 ∧ b32.lt alarm warn) ∨ (d8 e 1 = 1 ∧ b32.lt warn alarm) then some 8
  else none

/-- Offset of the first field of the descriptor that breaks R257 or R259. -/
def descBad (p : Nat) (d : List Nat) : Option Nat :=
  let ck := fun (b : Bool) (o : Nat) => if b then some o else none
  let both := dEnv d && decide (dNe d + dDe d ≠ dNr d + dDr d)
  [ck (dStamp d == 3 || decide (32 ≤ d8 d 0)) 0, ck (decide (d8 d 1 / 4 ≠ p)) 1,
   ck (decide (4 < bitsOf (d8 d 2) 3 0) || decide (2 < d8 d 2 / 16)) 2, ck (decide (15 < d8 d 3)) 3,
   ck (decide (d32 d 8 < 256)) 8, ck (decide (2 < d8 d 0xD)) 0xD, ck (decide (d16 d 0xE = 0)) 0xE,
   ck (decide (2 < d8 d 0x10)) 0x10, ck (decide (2 < d8 d 0x11)) 0x11, ck (decide (6 < dDr d)) 0x12, ck (decide (6 < dDe d)) 0x13,
   ck (decide (dNr d < 8) || decide (14 < dNr d)) 0x14, ck (decide (dNe d < 8) || decide (14 < dNe d) || both) 0x15,
   ck (if dEnv d then decide (dTaps d < 8) || decide (128 < dTaps d) || decide (dTaps d % 8 ≠ 0) else decide (dTaps d ≠ 0)) 0x16,
   ck (decide (d8 d 0x17 < 6) || decide (14 < d8 d 0x17)) 0x17, ck (decide (50 < d8 d 0x18)) 0x18, ck (decide (32 < d8 d 0x19)) 0x19,
   ck (decide (d8 d 0x1A < 1) || decide (8 < d8 d 0x1A)) 0x1A, ck (decide (bitsOf (d16 d 0x1E) 14 12 ≠ 0)) 0x1E,
   ck (b32.isZero (d32 d 0x20) || !b32.isFinite (d32 d 0x20)) 0x20].findSome? id
   |>.orElse (fun _ => (List.range 28).findSome? (fun i => ck (decide (d8 d (0x24 + i) ≠ 0)) (0x24 + i)))

/-- Read `n` bytes of the region as a list; none where a word is uncorrectable. -/
def regionRead (p base n : Nat) (s : State) : Option (List Nat) × State :=
  let r := memRead (maqRq p s) .maq p (maqBase p + base) n s
  (r.1.map (fun v => (List.range n).map (fun i => v / 256 ^ i % 256)), r.2)

/-- Write bytes of the region. -/
def regionWrite (p base : Nat) (l : List Nat) (s : State) : State :=
  let v := l.foldr (fun b a => b + 256 * a) 0
  (memWrite (maqRq p s) .maq p (maqBase p + base) l.length v s).2

/-- The bytes of `l` cut into entries of `n`. -/
def entriesOf (n k : Nat) (l : List Nat) : List (List Nat) := (List.range k).map (fun i => (l.drop (n * i)).take n)

/-- JBASE of a slot. -/
def State.jbase (s : State) (p k : Nat) : Nat := (s.reg (Reg.MAQ.JBASE p k)).toNat

/-- The region of slot `k` overlaps that of another enabled slot (R259). -/
def State.jobOverlap (s : State) (p k : Nat) (d : List Nat) : Bool :=
  (List.range 32).any (fun q =>
    q != k && s.jobEn p q &&
      (let e := s.job p q
       decide (s.jbase p k < s.jbase p q + area e.desc 8) && decide (s.jbase p q < s.jbase p k + area d 8)))

/-- A fresh resampler and fresh branches (R263): nothing is kept but the descriptor, the counters, the record number and the limit states. -/
def reseedJob (j : JobSt) : JobSt :=
  let st := fun n => List.replicate n (⟨[], 0⟩ : Stage)
  { j with
    lastU := none, samps := [], nextG := none, n := 0, rawSt := st (dDr j.desc), raw := [], rawNo := 0,
    tapHist := [], envSt := st (dDe j.desc), env := [], envNo := 0, recs := [], armed := false }

/-- Stop a job on an uncorrectable word of its region (R287). -/
def jobHalt (p k : Nat) (s : State) : State :=
  let a := Reg.MAQ.JCTL p k
  let m := s.maq p
  let s := (s.setMaq p { m with done := m.done.filter (fun d => d.slot ≠ k) }).setJob p k (reseedJob (s.job p k))
  let s := (s.setF a 31 31 0).setF a 30 30 1
  (s.capture (Reg.MAQ.page p) 0x54 (k * 2 ^ 15)).setStatBit (Reg.MAQ.page p) 5

/-- The descriptor of slot `k` is refused (R256, R259). -/
def jobRefuse (p k o : Nat) (s : State) : State := s.capture (Reg.MAQ.page p) 0x51 (k * 2 ^ 15 + o % 4096)

/-- JOB_ENABLE: JCTL.EN goes from 0 to 1 (R256). -/
def jobEnable (p k : Nat) (s : State) : State :=
  if s.jobEn p k then s
  else
    let base := s.jbase p k
    match regionRead p base 64 s with
    | (none, s) => jobHalt p k s
    | (some d, s) =>
      match descBad p d with
      | some o => jobRefuse p k o s
      | none =>
        if 0x60000 < base + area d 8 ∨ s.jobOverlap p k d then jobRefuse p k 0 s
        else
          match regionRead p (base + area d 0) (area d 3 - area d 0) s with
          | (none, s) => jobHalt p k s
          | (some t, s) =>
            let at_ := fun i => t.drop (area d i - area d 0)
            let fs := entriesOf 8 (d8 d 0x18) (at_ 1)
            let ls := entriesOf 16 (d8 d 0x19) (at_ 2)
            let bad := fun (o : Nat) (n : Nat) (f : List Nat → Option Nat) (l : List (List Nat)) =>
              (l.zip (List.range l.length)).findSome? (fun ei => (f ei.1).map (fun x => o + n * ei.2 + x))
            match (bad (area d 1) 8 (featBad d) fs).orElse (fun _ => bad (area d 2) 16 (limBad d) ls) with
            | some o => jobRefuse p k o s
            | none =>
              let taps := (entriesOf 8 (dTaps d) t).map (fun e => (d32 e 0, d32 e 4))
              let j : JobSt := reseedJob { JobSt.idle with desc := d, taps := taps, feats := fs, limits := ls, lims := ls.map (fun _ => ⟨0, 0, false⟩) }
              let s := memClear (maqBase p + base + area d 3) (maqBase p + base + area d 4) s
              let s := ls.zip (List.range ls.length) |>.foldl (fun t ei => regionWrite p (base + area d 2 + 16 * ei.2 + 12) [0, 0, 0, 0] t) s
              let s := (s.setJob p k j).setReg (Reg.MAQ.JCTL p k) 0x80000000#32
              ((s.setReg (Reg.MAQ.FRWR p k) 0#32).setReg (Reg.MAQ.FRRD p k) 0#32).setReg (Reg.MAQ.JREC p k) 0#32

/-- A job matches a word (R255). -/
def jobMatches (j : JobSt) (w : MaqWord) : Bool :=
  let v := w.word.toNat
  let conv := d8 j.desc 2 / 16
  d8 j.desc 1 == w.ch && bitsOf (d8 j.desc 2) 3 0 == bitsOf v 15 12 && (conv == 0 || (conv == 1 && !bitOf v 1) || (conv == 2 && bitOf v 1))

/-- The Rasp is clearing or will clear the memory of Maquette p (R285). -/
def State.maqClearing (s : State) (p : Nat) : Bool := s.rasp.clears.any (fun c => c.base == maqBase p)

/-- The hold offset of R261 for HOLDOFS 0 and a position stamp, at a write edge. -/
def State.derivedHold (s : State) (c e : Nat) : Nat :=
  if s.f (Reg.POS.CFG c) 1 0 = 1 then 6
  else
    let t := e / 8 - 20
    let u := (t + 50 * (s.rel / 8 + 1) - s.rel / 8 - s.f (Reg.POS.CFG c) 29 24) % 50
    (if 30 ≤ u then u else u + 50) + 6

/-- A result word of channel `c` is offered at this edge (R105, R251, R253); the flag says whether it is accepted. -/
def maqOffer (c : Nat) (w : DWord) (s : State) : Bool × State :=
  let p := c / 4
  let pg := Reg.MAQ.page p
  let m := s.maq p
  let inp := bitsOf w.toNat 15 12
  let feed := Reg.MAQ.FEED p (c % 4)
  let allowed := s.chOwner c == s.maqOwner p || (s.b feed 31 && decide (inp < 5) && s.b feed inp)
  let x : MaqWord := {
    word := w, ch := c, at_ := s.now, ns := s.nsAt s.now, speed := sx 32 (s.reg (Reg.POS.SPEED c)).toNat, age := s.derivedHold c s.now,
    rates := (List.range 16).map s.angRate }
  let matched := (List.range 32).any (fun k => s.jobEn p k && jobMatches (s.job p k) x)
  if !s.runs pg || !allowed || !matched || s.maqClearing p then (false, s)
  else if m.inq.length < 64 then (true, s.setMaq p { m with inq := m.inq ++ [x] })
  else (false, (s.cntAdd (Reg.MAQ.INDROP p) 31 0 1 true).setStatBit pg 0)

/-- Mark the records in progress of a job. -/
def markRecs (f : RecSt → RecSt) (j : JobSt) : JobSt := { j with recs := j.recs.map f }

/-- A copy is discarded under R254 or R263. -/
def copyDisc (p k : Nat) (s : State) : State :=
  (s.cntAdd (Reg.MAQ.JDROP p k) 15 0 1 true).setJob p k (markRecs (fun r => { r with disc := true }) (s.job p k))

/-- One copy reaches the input ring of slot `k` (R253, R254). -/
def copyTo (p k : Nat) (w : MaqWord) (s : State) : State :=
  let j := s.job p k
  let v := w.word.toNat
  if bitOf v 5 ∨ (bitOf v 2 ∧ !dTime j.desc) then copyDisc p k s
  else
    let depth := 2 ^ d8 j.desc 0x17
    if j.ring.length < depth then
      let s := regionWrite p (s.jbase p k + area j.desc 4 + 8 * (j.ringNo % depth)) ((List.range 8).map (fun i => v / 256 ^ i % 256)) s
      s.setJob p k { j with ring := j.ring ++ [w], ringNo := j.ringNo + 1 }
    else (s.cntAdd (Reg.MAQ.JDROP p k) 31 16 1 true).setJob p k (markRecs (fun r => { r with drop := true }) j)

/-- INTAKE_DELIVER: one copy of the head word, one CCLK after the one before (R253). -/
def intakeDeliver (p : Nat) (s : State) : State :=
  match (s.maq p).inq with
  | [] => s
  | w :: rest =>
    let m := s.maq p
    let want := fun k => s.jobEn p k && jobMatches (s.job p k) w
    match (List.range 32).find? (fun k => decide (m.slot ≤ k) && want k) with
    | none => s.setMaq p { m with inq := rest, slot := 0 }
    | some k =>
      let s := s.moveTo (max (w.at_ + 1) (m.lastCopy + 1))
      let more := (List.range 32).any (fun q => decide (k < q) && want q)
      let s := s.setMaq p { s.maq p with inq := if more then w :: rest else rest, slot := if more then k + 1 else 0, lastCopy := s.now }
      copyTo p k w s

/-- Points until every branch of a record is complete (R269). -/
def dDelay (d : List Nat) : Nat :=
  let gr := if dRaw d then 23 * (2 ^ dDr d - 1) else 0
  let ge := if dEnv d then dTaps d / 2 + 23 * (2 ^ dDe d - 1) else 0
  max gr ge

/-- A record may start at grid point `n` (R269, R271 item 7). -/
def dStart (d : List Nat) (n : Nat) : Bool := n % 2 ^ dDr d == 0 && (!dEnv d || n % 2 ^ dDe d == 0)

/-- The first `n` points from number `start` of a list kept newest first whose newest is number `no - 1`. -/
def blockOf (l : List Nat) (no start n : Nat) : List Nat := (List.range n).map (fun i => lget 0 l (no - 1 - (start + i)))

/-- One grid point enters the records and the branches (R266-R269): the job, the record it completes, and the half-band points emitted. -/
def gridPoint (x : Nat) (ns : Int) (j : JobSt) : JobSt × Option (RecSt × List Nat × List Nat) × Nat :=
  let d := j.desc
  let n := j.n
  let len := dLen d
  let begins := if dTrig d then j.armed && dStart d n else n % dHop d == 0
  let fresh : RecSt := ⟨n, false, false, false, dTrig d, 0, 0, 0, 0, 0, 0, 0, 0, 0⟩
  let recs := if begins then j.recs ++ [fresh] else j.recs
  let recs := recs.map (fun r => if n < r.start + len then recAdd r x ns else r)
  let cr := if dRaw d then cascade j.rawSt x else (j.rawSt, none, 0)
  let raw := match cr.2.1 with
    | some y => (y :: j.raw).take (2 ^ dNr d + 2048)
    | none => j.raw
  let h := if dEnv d then (x :: j.tapHist).take 128 else []
  let ce := if dEnv d ∧ dTaps d / 2 ≤ n then cascade j.envSt (envelope j.taps h) else (j.envSt, none, 0)
  let env := match ce.2.1 with
    | some y => (y :: j.env).take (2 ^ dNe d + 2048)
    | none => j.env
  let rawNo := j.rawNo + b2n cr.2.1.isSome
  let envNo := j.envNo + b2n ce.2.1.isSome
  let fin := recs.find? (fun r => r.start + len - 1 + dDelay d == n)
  let out := fin.map (fun r =>
    (r, if dRaw d then blockOf raw rawNo (r.start / 2 ^ dDr d) (2 ^ dNr d) else [],
      if dEnv d then blockOf env envNo (r.start / 2 ^ dDe d) (2 ^ dNe d) else []))
  ({ j with
      n := n + 1, recs := recs.filter (fun r => r.start + len - 1 + dDelay d != n), rawSt := cr.1, raw := raw, rawNo := rawNo,
      tapHist := h, envSt := ce.1, env := env, envNo := envNo, armed := if begins then false else j.armed },
    out, cr.2.2 + ce.2.2)

/-- A record is complete: it takes the next number and waits for block work; an earlier one of the job that still waits has been overwritten (R282). -/
def recordDone (p k : Nat) (r : RecSt × List Nat × List Nat) (s : State) : State :=
  let m := s.maq p
  let late := m.done.any (fun d => d.slot == k)
  let j := s.job p k
  let s := s.setJob p k { j with recNo := j.recNo + 1 }
  let s := s.setMaq p { s.maq p with done := m.done.filter (fun d => d.slot ≠ k) ++ [⟨k, j.recNo + 1, r.1, r.2.1, r.2.2⟩] }
  let s := s.setReg (Reg.MAQ.JREC p k) (BitVec.ofNat 32 (j.recNo + 1))
  if late then (s.cntAdd (Reg.MAQ.JRES p k) 15 0 1 true).setStatBit (Reg.MAQ.page p) 3 else s

/-- The kept samples from oldest to newest that interpolate the latest closed interval, and the coordinate that ends it (R264). -/
def interval (j : JobSt) : Option (List Samp × Int) :=
  if dCubic j.desc then
    match j.samps with
    | a :: b :: c :: d :: _ => some ([d, c, b, a], b.phi)
    | _ => none
  else
    match j.samps with
    | a :: b :: _ => some ([b, a], a.phi)
    | _ => none

/-- Form one grid point of slot `k` from the samples `ss`. -/
def formPoint (p k : Nat) (ss : List Samp) (ns : Int) (cost : Nat × State) : Nat × State :=
  let s := cost.2
  let j := s.job p k
  match j.nextG with
  | none => cost
  | some g =>
    let r := gridPoint (interp (g * dGrid j.desc) ss) ns { j with nextG := some (g + 1) }
    let c := (if dCubic j.desc then 4 else 2) + 1 + 3 * r.2.2 + (if dEnv j.desc then dTaps j.desc / 2 + 2 else 0)
    let s := s.setJob p k r.1
    (cost.1 + c, match r.2.1 with
      | some o => recordDone p k o s
      | none => s)

/-- A sample joins the resampler and the grid points it completes are formed; the CCLK this took (R263, R264, R283). -/
def addSample (p k : Nat) (x : Samp) (s : State) : Nat × State :=
  let j := s.job p k
  let j := { j with samps := (x :: j.samps).take 4 }
  match interval j with
  | none => (2, s.setJob p k j)
  | some (ss, stop) =>
    let grid := dGrid j.desc
    let lo := match ss with
      | a :: b :: _ => if dCubic j.desc then b.phi else a.phi + 1
      | _ => 0
    let g := j.nextG.getD (-((-lo) / grid))
    let cnt := ((stop - g * grid + grid - 1) / grid).toNat
    let s := s.setJob p k { j with nextG := some g }
    (List.range cnt).foldl (fun a _ => formPoint p k ss x.ns a) (2, s)

/-- The stamp as a coordinate of the job's axis (R261, R262). -/
def jobStamp (d : List Nat) (w : Nat) : Nat := if dTime d then w / 2 ^ 30 * 1000000000 + w % 2 ^ 30 else w

/-- h × v of R261 with 16 fraction bits. -/
def jobShift (d : List Nat) (w : MaqWord) : Int :=
  let h := d8 d 0xC
  if dStamp d = 0 then openDiv 0x261 (w.speed * (if h = 0 then w.age else h : Nat)) 50
  else if dStamp d = 1 then lget 0 w.rates (d8 d 3) * (if h = 0 then 6 else h : Nat)
  else (10 * (if h = 0 then 6 else h) * 65536 : Nat)

/-- The datapath takes the oldest copy of slot `k` (R261-R263); the CCLK this took. -/
def streamOne (p k : Nat) (w : MaqWord) (s : State) : Nat × State :=
  let j := s.job p k
  let d := j.desc
  let v := w.word.toNat
  let st := jobStamp d (v / 2 ^ 32)
  let wr : Int := if dTime d then 4000000000 else dWrap d
  let u : Int := match j.lastU with
    | none => st
    | some (s0, u0) =>
      let r := ((st : Int) - s0) % wr
      u0 + (if wr < 2 * r then r - wr else r)
  let phi := u * 65536 + jobShift d w
  let val := b32.fmul (b32.pack (.num (decide (sx 16 (bitsOf v 31 16) < 0)) (sx 16 (bitsOf v 31 16)).natAbs (-15))) (d32 d 0x20)
  let x : Samp := ⟨phi, val, w.ns⟩
  let j := { j with lastU := some (st, u) }
  let j := if bitOf v 4 then markRecs (fun r => { r with sat := true }) j else j
  match j.samps with
  | [] => addSample p k x (s.setJob p k j)
  | q :: _ =>
    if phi ≤ q.phi then (2, copyDisc p k (s.setJob p k j))
    else if (d16 d 0xE : Int) * dGrid d < phi - q.phi then
      let s := s.setJob p k { reseedJob j with lastU := some (st, u) }
      let s := (s.cntAdd (Reg.MAQ.JRES p k) 31 16 1 true).setStatBit (Reg.MAQ.page p) 2
      addSample p k x s
    else
      let r := addSample p k x (s.setJob p k j)
      (r.1, if bitOf v 4 then r.2.setJob p k (markRecs (fun t => { t with sat := true }) (r.2.job p k)) else r.2)

/-- Account datapath work of `c` CCLK from the first free edge at or after `from_` (R282, R283). -/
def spend (p from_ c : Nat) (s : State) : State :=
  let m := s.maq p
  s.setMaq p { m with freeAt := max from_ m.freeAt + c, busy := m.busy + c }

/-- STREAM_PROCESS of slot `k` (R282). -/
def streamProcess (p k : Nat) (s : State) : State :=
  match (s.job p k).ring with
  | [] => s
  | w :: rest =>
    if s.runs (Reg.MAQ.page p) ∧ s.jobEn p k then
      let j := s.job p k
      let depth := 2 ^ d8 j.desc 0x17
      let i := (j.ringNo - j.ring.length) % depth
      match regionRead p (s.jbase p k + area j.desc 4 + 8 * i) 8 s with
      | (none, s) => jobHalt p k s
      | (some l, s) =>
        let w := { w with word := BitVec.ofNat 64 (d32 l 0 + 2 ^ 32 * d32 l 4) }
        let s := s.moveTo (max ((s.maq p).lastCopy + 1) (s.maq p).freeAt)
        let s := s.setJob p k { s.job p k with ring := rest }
        let r := streamOne p k w s
        spend p r.2.now r.1 r.2
    else s

/-- Bytes of a little-endian number. -/
def bytesOf (n v : Nat) : List Nat := (List.range n).map (fun i => v / 256 ^ i % 256)

/-- One judged limit (R276): its new state and the exception entry if it changed. -/
def limitJudge (i : Nat) (e : List Nat) (x : Nat) (l : LimSt) : LimSt × Option (List Nat) :=
  let below := bitOf (d8 e 1) 0
  let warn := d32 e 4
  let alarm := d32 e 8
  let beyond := fun t => if below then b32.lt x t else b32.lt t x
  let target := if beyond alarm then 2 else if beyond warn then 1 else 0
  if target = l.level then ({ l with run := 0 }, none)
  else
    let up := decide (l.level < target)
    let run := if l.run ≠ 0 ∧ l.rising = up then l.run + 1 else 1
    if run = (if up then d8 e 2 else d8 e 3) then
      let lim := if up then (if target = 2 then alarm else warn) else (if l.level = 2 then alarm else warn)
      (⟨target, 0, up⟩, some ([i, d8 e 0, l.level, target] ++ bytesOf 4 x ++ bytesOf 4 lim ++ [run, 0, 0, 0]))
    else (⟨l.level, run, up⟩, none)

/-- Value of a feature entry from the two spectra (R273). -/
def featValue (d e : List Nat) (rs es : List (Nat × Nat)) (rw ew : Nat) : Nat :=
  let k := d8 e 0
  let env := k == 2 || k == 4
  let sp := if env then es else rs
  let w := if env then ew else rw
  if k ≤ 2 then
    let c := if env then centreBin d (d16 e 4) (dNe d) (dDe d) else centreBin d (d16 e 4) (dNr d) (dDr d)
    orderAmp (binSum sp (c - d8 e 1) (c + d8 e 1) false) w
  else bandRms (binSum sp (d16 e 4) (d16 e 6) true) w

/-- CCLK of the block work of one record (R283). -/
def blockCost (d : List Nat) (feats : List (List Nat)) (nlim : Nat) : Nat :=
  let f := fun nlog => 2 ^ nlog / 4 + (2 ^ nlog / 4 * nlog + 64)
  (if dRaw d then f (dNr d) else 0) + (if dEnv d then f (dNe d) + 2 ^ dNe d / 4 else 0) + 32
    + feats.foldl (fun a e => a + (if d8 e 0 ≤ 2 then 2 * d8 e 1 + 1 else d16 e 6 + 1 - d16 e 4) + 16) 0 + 8 * nlim

/-- SPAN of a record (R278): revolutions or seconds. -/
def recSpan (d : List Nat) : Int × Nat :=
  if dTime d then ((dLen d * d32 d 8 : Nat), 256 * 1000000000) else ((dLen d * d32 d 8 : Nat), 256 * dWrap d)

/-- The header of a frame (R278). -/
def frameHead (p : Nat) (owner : Nat) (dr : DoneRec) (d : List Nat) (kind flags count : Nat) : List Nat :=
  let r := dr.r
  let sp := recSpan d
  let dt := (r.t1 - r.t0)
  let speed := if dTime d then 0 else if dt ≤ 0 then b32.infinity false else b32.ofRat (sp.1 * 1000000000) (sp.2 * dt.toNat)
  [kind, 1, p, dr.slot] ++ bytesOf 2 (owner % 512) ++ [d8 d 1, bitsOf (d8 d 2) 3 0] ++ bytesOf 4 dr.no ++ [flags, count, 0, 0]
    ++ bytesOf 4 ((r.t1 / 1000000000).toNat) ++ bytesOf 4 ((r.t1 % 1000000000).toNat) ++ bytesOf 4 (b32.ofRat sp.1 sp.2) ++ bytesOf 4 speed

/-- Pad a frame to 256 bytes. -/
def pad256 (l : List Nat) : List Nat := (l ++ List.replicate 256 0).take 256

/-- Entries free in the frame ring of slot `k` (R280). -/
def State.frameRoom (s : State) (p k : Nat) : Nat :=
  let rd := ((s.log.sw.lookup (Reg.MAQ.FRRD p k)).getD (s.reg (Reg.MAQ.FRRD p k))).toNat
  2 ^ d8 (s.job p k).desc 0x1A - ((s.reg (Reg.MAQ.FRWR p k)).toNat + 2 ^ 32 - rd) % 2 ^ 32

/-- Drop frames at the head of the queue that find no room (R280). -/
def frameAdmit (p : Nat) : Nat → State → State
  | 0, s => s
  | n + 1, s =>
    match (s.maq p).frames with
    | [] => s
    | f :: rest =>
      if (if f.exc then 1 else 2) ≤ s.frameRoom p f.slot then s
      else
        let s := s.setMaq p { s.maq p with frames := rest }
        frameAdmit p n ((s.cntAdd (Reg.MAQ.JFRD p f.slot) 15 0 1 true).setStatBit (Reg.MAQ.page p) 4)

/-- BLOCK_WORK: windows, transforms, statistics, features and limits of the oldest complete record, and its frames (R270-R277, R282). -/
def blockWork (p : Nat) (s : State) : State :=
  match (s.maq p).done with
  | [] => s
  | dr :: rest =>
    let k := dr.slot
    let s := s.moveTo (s.maq p).freeAt
    let s := s.setMaq p { s.maq p with done := rest }
    let j := s.job p k
    let d := j.desc
    let owner := s.maqOwner p
    let rs := if dRaw d then spectrum (d8 d 0x10) (dNr d) dr.raw else []
    let es := if dEnv d then spectrum (d8 d 0x11) (dNe d) (meanFree dr.env) else []
    let rw := windowPower (d8 d 0x10) (dNr d)
    let ew := windowPower (d8 d 0x11) (dNe d)
    let stats := statistics dr.r
    let fv := j.feats.map (fun e => featValue d e rs es rw ew)
    let value := fun f => if f ≤ 5 then lget 0 stats f else lget 0 fv (f - 8)
    let judged := ((j.limits.zip j.lims).zip (List.range j.limits.length)).map (fun eli => limitJudge eli.2 eli.1.1 (value (d8 eli.1.1 0)) eli.1.2)
    let changes := judged.filterMap (fun r => r.2)
    let exc := !changes.isEmpty
    let flags := b2n dr.r.sat + 2 * b2n dr.r.drop + 4 * b2n dr.r.disc + 8 * b2n exc + 16 * b2n (decide (dr.r.varN ≤ 0))
      + 32 * b2n (decide (14 < changes.length)) + 64 * b2n (dTime d) + 128 * b2n dr.r.trig
    let s := s.setJob p k { j with lims := judged.map (fun r => r.1) }
    let s := (judged.zip (List.range judged.length)).foldl
      (fun t ri => regionWrite p (t.jbase p k + area d 2 + 16 * ri.2 + 12) [ri.1.1.level, ri.1.1.run, 0, 0] t) s
    let xf : FrameJob := ⟨k, true, pad256 (frameHead p owner dr d 2 flags (min 14 changes.length) ++ (changes.take 14).flatten)⟩
    let ff : FrameJob := ⟨k, false, pad256 (frameHead p owner dr d 1 flags (d8 d 0x18) ++ (stats ++ fv).flatMap (bytesOf 4))⟩
    let emit := d16 d 0x1C
    let feature := emit ≤ 1 || dr.no % emit == 0 || (bitOf (d8 d 0) 5 && exc)
    let fs := (if exc then [xf] else []) ++ (if feature then [ff] else [])
    let s := spend p s.now (blockCost d j.feats j.limits.length) s
    let s := s.setMaq p { s.maq p with frames := (s.maq p).frames ++ fs }
    frameAdmit p 4 s

/-- FRAME_COMPLETE: the frame at the head is written and counted (R280). -/
def frameComplete (p : Nat) (s : State) : State :=
  match (s.maq p).frames with
  | [] => s
  | f :: rest =>
    let k := f.slot
    let d := (s.job p k).desc
    let s := spend p s.now 64 s
    let s := s.moveTo (s.maq p).freeAt
    let wr := Reg.MAQ.FRWR p k
    let i := (s.reg wr).toNat % 2 ^ d8 d 0x1A
    let s := regionWrite p (s.jbase p k + area d 7 + 256 * i) f.bytes s
    let s := (s.setReg wr (s.reg wr + 1#32)).setMaq p { s.maq p with frames := rest }
    let e := d8 d 0x1B
    let tag := some (s.maqOwner p)
    let s := if f.exc then s.setStatBit (Reg.MAQ.page p) 1 else s
    let s := if f.exc then (if bitOf e 7 then s.raiseDev (0x700 + 8 * p + bitsOf e 6 4) tag else s)
             else (if bitOf e 3 then s.raiseDev (0x700 + 8 * p + bitsOf e 2 0) tag else s)
    frameAdmit p 4 s

/-- FRRD_WRITE (R281). -/
def frrdWrite (p k v : Nat) (s : State) : State :=
  let wr := (s.reg (Reg.MAQ.FRWR p k)).toNat
  let depth := 2 ^ d8 (s.job p k).desc 0x1A
  if depth < (wr + 2 ^ 32 - v) % 2 ^ 32 then s.capture (Reg.MAQ.page p) 0x53 (0x110 + 32 * k)
  else s.swStore (Reg.MAQ.FRRD p k) (BitVec.ofNat 32 v)

/-- An event reaches the jobs that wait for it (R269). -/
def maqEvent (p id : Nat) (s : State) : State :=
  (List.range 32).foldl (fun t k =>
    let j := t.job p k
    if t.jobEn p k && dTrig j.desc && d16 j.desc 0x1E % 4096 == id then
      if j.armed || !j.recs.isEmpty then t.cntAdd (Reg.MAQ.JRES p k) 15 0 1 true
      else t.setJob p k { j with armed := true }
    else t) s

/-- JOB_STOP: EN clears at the next quantum boundary; the job's block work is abandoned (R284). -/
def jobStop (p k : Nat) (s : State) : State :=
  if s.jobEn p k then
    let s := s.moveTo (nextEdge 64 s.now)
    let m := s.maq p
    let s := s.setMaq p { m with done := m.done.filter (fun d => d.slot ≠ k), frames := m.frames.take 1 ++ (m.frames.drop 1).filter (fun f => f.slot ≠ k) }
    s.setF (Reg.MAQ.JCTL p k) 31 31 0
  else s

/-- JOB_RESEED (R284). -/
def jobReseed (p k : Nat) (s : State) : State := if s.jobEn p k then s.setJob p k (reseedJob (s.job p k)) else s

/-- MAQ_DISABLE: PAGE_CTRL.EN goes to 0 (R284). -/
def maqStop (p : Nat) (s : State) : State :=
  let m := s.maq p
  s.setMaq p { m with inq := [], slot := 0, done := [], frames := [] }

/-- PAGE_CTRL.EN goes to 1: every enabled job is reseeded (R284). -/
def maqStart (p : Nat) (s : State) : State := (List.range 32).foldl (fun t k => jobReseed p k t) s

/-- LOAD_UPDATE: a millisecond of device time ends (R283). -/
def loadUpdate (p : Nat) (s : State) : State :=
  let m := s.maq p
  let next := max (m.ms + 1) (s.nsAt s.time.at_ / 1000000)
  let s := s.moveTo (firstAt s.timeAt (next * 1000000 * nsUnit) 34 s.time.at_)
  let m := s.maq p
  (s.setReg (Reg.MAQ.LOAD p) (BitVec.ofNat 32 (min m.busy 800000))).setMaq p { m with busy := 0, ms := max next (s.nsAt s.now / 1000000) }

/-- STATUS as read (R288). -/
def State.maqStatus (s : State) (p : Nat) : Word :=
  let m := s.maq p
  let busy := decide (s.now < m.freeAt)
  BitVec.ofNat 32 (b2n (busy && !m.frames.isEmpty) * 2 ^ 31 + (match m.frames with
    | f :: _ => f.slot * 2 ^ 16
    | [] => 0) + m.inq.length)

/-- The job registers return to reset with an owner change (R285); FEED too (R252). -/
def maqDrop (p : Nat) (s : State) : State :=
  { s with rasp := { s.rasp with clears := s.rasp.clears ++ [⟨maqBase p, 0x80000, none⟩] }, maqs := tput (fun _ => MaqSt.idle) s.maqs p MaqSt.idle }

end Sys2Proof.Machine
end

