-- ==== Sys2Proof/Machine/Rasp.lean ====
section
/-! DEFINITION. The Rasp and the LPDDR4 controller: scrubbing and sweeps (R400-R403), fills (R404-R406), clears (R407, R408), training (R398), the registers of R410-R412. -/

namespace Sys2Proof.Machine

def State.setRasp (s : State) (r : RaspSt) : State := { s with rasp := r }

/-- First byte of a memory instance (R44). -/
def memBase (k : MemKind) (i : Nat) : Nat :=
  match k with
  | .rom => 0
  | .engX => 0x60000000 + i * 0x40000
  | .engY => 0x60010000 + i * 0x40000
  | .engI => 0x60020000 + i * 0x40000
  | .plinth => 0x80000000 + i * 0x200000
  | .maq => 0xC0000000 + i * 0x80000
  | .ped => 0xD0000000 + i * 0x80000
  | .dram => 0x1000000000

/-- The number of a code word inside its bank, in ascending order (R389). -/
def wordInBank (k : MemKind) (off : Nat) : Nat :=
  match k with
  | .engI => off / 16
  | .plinth => off / 256 * 4 + off % 32 / 8
  | .maq => off / 128 * 4 + off % 32 / 8
  | .dram => off / 8
  | _ => off / 8

/-- The words with a nonzero syndrome of a bank, from word `lo` up to word `hi`: the words a scrub finds not CLEAN. -/
def badWords (b : Bank) (lo hi : Nat) (s : State) : List Nat :=
  (s.synds.map (·.1)).filter (fun a =>
    s.memAt a == some (b.kind, b.inst, memBase b.kind b.inst) && bankOf b.kind b.inst a == b &&
      decide (lo ≤ wordInBank b.kind (a - memBase b.kind b.inst)) && decide (wordInBank b.kind (a - memBase b.kind b.inst) < hi))

/-- One scrub operation on a word that is not CLEAN (R401): a CE is corrected and written back, an uncorrectable word stays; both are logged with agent 0. -/
def scrubWord (kind : Nat) (k : MemKind) (i a : Nat) (s : State) : State :=
  let w := wordBytes k
  let r := wordRead ⟨0, 0, kind⟩ k i a s
  match r.1 with
  | some d => wordStore false w a d r.2
  | none => r.2

/-- Scrub words `lo` to `hi` of a bank. -/
def scrubBank (kind : Nat) (b : Bank) (lo hi : Nat) (s : State) : State :=
  (badWords b lo hi s).foldl (fun t a => scrubWord kind b.kind b.inst a t) s

/-- Bursts in one instance of each memory of the SRAM pass, in the order of R400. -/
def burstBank (n : Nat) : Bank × Nat :=
  if n < 55296 then
    let e := n / 576
    let m := n % 576
    if m < 256 then (⟨.engX, e, m / 128⟩, m % 128) else if m < 512 then (⟨.engY, e, (m - 256) / 128⟩, (m - 256) % 128)
    else (⟨.engI, e, (m - 512) / 32⟩, (m - 512) % 32)
  else if n < 104448 then (⟨.plinth, (n - 55296) / 4096, (n - 55296) % 4096 / 512⟩, (n - 55296) % 512)
  else if n < 116736 then (⟨.maq, (n - 104448) / 1024, (n - 104448) % 1024 / 256⟩, (n - 104448) % 256)
  else (⟨.ped, (n - 116736) / 2048, (n - 116736) % 2048 / 1024⟩, (n - 116736) % 1024)

/-- SINTV for an SPERIOD in ms (R400). -/
def sintvOf (ms : Nat) : Nat := ms * 800000 * 64 / 7864320

/-- The Rasp works: it has power and its fill is done (R404). -/
def State.raspOn (s : State) : Bool := !s.off Reg.RASP.page && s.b Reg.RASP.FILLSTAT 31

/-- SCRUB_BURST: the next burst of the SRAM walker (R400, R401). -/
def scrubBurst (s : State) : State :=
  if s.raspOn ∧ s.b Reg.RASP.CTL 0 then
    let s := s.moveTo s.rasp.burstAt
    let n := s.rasp.burst % 122880
    let b := burstBank n
    let s := scrubBank 4 b.1 (64 * b.2) (64 * b.2 + 64) s
    let s := s.setRasp { s.rasp with burst := (n + 1) % 122880, burstAt := s.now + (s.reg Reg.RASP.SINTV).toNat, burstFrom := some s.now }
    if n + 1 = 122880 then s.cntAdd Reg.RASP.SPASS 31 0 1 false else s
  else s

/-- BANKSTAT.BURST of plinth `p` as read: the bank in a burst of 256 CCLK (R401, R413). -/
def State.burstBits (s : State) (p : Nat) : Nat :=
  match s.rasp.burstFrom with
  | none => 0
  | some t =>
    let b := (burstBank ((s.rasp.burst + 122879) % 122880)).1
    if s.now < t + 256 ∧ b.kind = .plinth ∧ b.inst = p then 2 ^ b.bank else 0

/-- The engine or plinth (96 + p) whose memory a bank is, for R435. -/
def slowUnit (b : Bank) : Option Nat :=
  match b.kind with
  | .engX => some b.inst
  | .engY => some b.inst
  | .engI => some b.inst
  | .plinth => some (96 + b.inst)
  | _ => none

/-- A cause of slowness begins at this edge, if it has not before (R435). -/
def slowNote (k : Nat) (s : State) : State :=
  if (s.arm.slowFrom.lookup k).isSome then s else { s with arm := { s.arm with slowFrom := (k, s.now) :: s.arm.slowFrom } }

/-- A cause of slowness ends (R435). -/
def slowDrop (k : Nat) (s : State) : State :=
  { s with arm := { s.arm with slowFrom := s.arm.slowFrom.filter (fun p => p.1 != k), slow := s.arm.slow.filter (fun u => u != k) } }

/-- SWEEP_START: the first queued sweep begins (R402). -/
def sweepStart (s : State) : State :=
  match s.rasp.sweeps with
  | [] => s
  | b :: _ =>
    if s.rasp.sweepEnd.isSome then s
    else
      let s := showSweep b (s.setRasp { s.rasp with sweepEnd := some (s.now + 4 * bankWords b.kind) })
      match slowUnit b with
      | some u => slowNote u s
      | none => s

/-- SWEEP_END: every word of the bank has been scrubbed; the next sweep may begin (R402). -/
def sweepEnd (s : State) : State :=
  match s.rasp.sweeps, s.rasp.sweepEnd with
  | b :: r, some t =>
    let s := s.moveTo t
    let s := scrubBank 5 b 0 (bankWords b.kind) s
    let s := showSweep b (s.setRasp { s.rasp with sweeps := r, sweepEnd := none })
    match slowUnit b with
    | some u => if (r.head?.bind slowUnit) = some u then s else slowDrop u s
    | none => s
  | _, _ => s

/-- Lines of the usable LPDDR4 (R403). -/
def State.dramLines (s : State) : Nat := s.dramUsable / 64

/-- DINTV (R403, R410): 0 while no LPDDR4 is filled. -/
def State.dintv (s : State) : Nat :=
  if s.f Reg.RASP.DFILL 31 0 = 0 ∨ s.dramLines = 0 then 0 else (s.reg Reg.RASP.DPERIOD).toNat * 800000000 / s.dramLines

/-- The first filled line at or after line `n`; none where the pass is over (R403). -/
def State.filledLine (s : State) (n : Nat) : Option Nat :=
  let r := n / 14336
  if s.dramLines ≤ n then none
  else if s.dramFilled r then some n
  else
    let m := (s.rasp.filledOut.filter (fun k => r < k)).foldl (fun (a : Option Nat) k => some (min (a.getD k) k)) none
    m.map (fun k => k * 14336)

/-- DRAM_SCRUB_LINE: the DRAM walker reads one line (R403). -/
def dramScrub (s : State) : State :=
  if s.raspOn ∧ s.b Reg.RASP.CTL 1 ∧ s.dramOn ∧ s.dintv ≠ 0 then
    let s := s.moveTo s.rasp.lineAt
    match s.filledLine s.rasp.line with
    | none => s
    | some n =>
      let a := 0x1000000000 + 64 * n
      let s := ((s.synds.map (·.1)).filter (fun x => a ≤ x && decide (x < a + 64))).foldl (fun t x => scrubWord 4 .dram 0 x t) s
      let more := (s.filledLine (n + 1)).isSome
      let s := s.setRasp { s.rasp with line := if more then n + 1 else 0, lineAt := s.now + s.dintv }
      if more then s else s.cntAdd Reg.RASP.DPASS 31 0 1 false
  else s

/-! ## Fills -/

/-- SRAM_FILL: at the Rasp's release every on-chip word is written with data 0 and its check bits; `bad` lists the words (with their syndromes) that the array does not keep (R404, R405). -/
def sramFill (bad : List (Nat × Nat)) (s : State) : State :=
  match s.rasp.fillAt with
  | none => s
  | some t =>
    if s.rasp.filled then s
    else
      let s := memClear 0x60000000 0xD0180000 (s.moveTo t)
      let s := bad.foldl (fun u p =>
        if 0x60000000 ≤ p.1 ∧ p.1 < 0xD0180000 then
          match u.memAt p.1 with
          | some (k, _, _) => u.setSynd (p.1 / wordBytes k * wordBytes k) (p.2 % 256)
          | none => u
        else u) s
      s.setRasp { s.rasp with filled := true }

/-- FILL_DONE: the verify read has met every word; cores may be released (R404, R405). -/
def fillDone (s : State) : State :=
  match s.rasp.fillAt with
  | none => s
  | some t =>
    if s.rasp.filled ∧ !s.b Reg.RASP.FILLSTAT 31 then
      let s := s.moveTo (t + 240128)
      let bad := (s.synds.filter (fun p => p.1 < 0x1000000000 ∧ 0x60000000 ≤ p.1)).map (·.1)
      let s := bad.foldl (fun u a =>
        match u.memAt a with
        | some (k, i, _) =>
          let y := u.synd a
          let u := eccReport ⟨0, 0, 6⟩ (bankOf k i a) a (eccClass (wordBytes k) y) y u
          u.setF Reg.RASP.FILLSTAT 15 0 (satN 65535 (u.f Reg.RASP.FILLSTAT 15 0 + 1))
        | none => u) s
      let s := if bad.isEmpty then s else (s.setF Reg.RASP.FILLSTAT 30 30 1).setStatBit Reg.RASP.page 1
      let s := s.setF Reg.RASP.FILLSTAT 31 31 1
      s.setRasp { s.rasp with burstAt := s.now + (s.reg Reg.RASP.SINTV).toNat }
    else s

/-! ## LPDDR4 -/

/-- TRAINING_DONE (R398, R412): the background fill begins, or every access is refused. -/
def trainingDone (ok : Bool) (s : State) : State :=
  if s.runs Reg.DRAM.page ∧ s.f Reg.DRAM.CFG 2 0 ≠ 0 ∧ !s.b Reg.DRAM.STATUS 31 ∧ !s.b Reg.DRAM.STATUS 29 then
    if ok then
      let s := (s.setF Reg.DRAM.STATUS 31 31 1).setF Reg.RASP.FILLSTAT 28 28 1
      s.setRasp { s.rasp with cur := some (0, s.now + 65536), susp := none, waited := [], filledOut := [], nextRegion := 0 }
    else s.setF Reg.DRAM.STATUS 29 29 1
  else s

/-- The next region in order after `n`, skipping those filled out of order. -/
def State.nextUnfilled (s : State) (n : Nat) : Nat → Nat
  | 0 => n
  | f + 1 => if s.rasp.filledOut.contains n then s.nextUnfilled (n + 1) f else n

/-- The region the Rasp takes next (R406). -/
def takeRegion (s : State) : State :=
  let r := s.rasp
  match r.waited with
  | k :: rest => s.setRasp { r with cur := some (k, s.now + 65536), waited := rest }
  | [] =>
    match r.susp with
    | some (k, left) => s.setRasp { r with cur := some (k, s.now + left), susp := none }
    | none => if r.nextRegion < s.dramRegions then s.setRasp { r with cur := some (r.nextRegion, s.now + 65536) } else s.setRasp { r with cur := none }

/-- DRAM_FILL_REGION: the region in progress is filled; accesses stalled on it may proceed (R406). -/
def dramFillRegion (s : State) : State :=
  match s.rasp.cur with
  | none => s
  | some (k, e) =>
    let s := s.moveTo e
    let base := 0x1000000000 + 917504 * k
    let s := memClear base (base + 917504) s
    let s := if k = s.rasp.nextRegion then s.setRasp { s.rasp with nextRegion := s.nextUnfilled (k + 1) 8192, cur := none }
      else s.setRasp { s.rasp with filledOut := k :: s.rasp.filledOut, cur := none }
    let s := s.setReg Reg.RASP.DFILL (s.reg Reg.RASP.DFILL + 1#32)
    let first := decide (s.reg Reg.RASP.DFILL = 1#32)
    let s := s.setReg Reg.RASP.DINTV (BitVec.ofNat 32 s.dintv)
    let s := if first then s.setRasp { s.rasp with line := 0, lineAt := s.now + s.dintv } else s
    let s := takeRegion s
    if s.rasp.cur.isNone then
      ((s.setF Reg.DRAM.STATUS 30 30 1).setF Reg.RASP.FILLSTAT 29 29 1).setF Reg.RASP.FILLSTAT 28 28 0
    else s

/-! ## Clears -/

/-- CCLK a clear of `len` bytes takes (R407). -/
def clearTime (k : MemKind) (len : Nat) : Nat :=
  match k with
  | .engX => len / 8
  | .engY => len / 8
  | .engI => len / 16
  | .plinth => len / 256
  | .maq => len / 128
  | _ => ceilDiv len 3584 * 256

/-- A range of one memory that a clear may name (R407). -/
def State.clearKind (s : State) (base len : Nat) : Option MemKind :=
  match s.memAt base with
  | some (k, i, b) => if k ≠ .rom ∧ k ≠ .ped ∧ len ≠ 0 ∧ base + len ≤ b + s.memSize k then (if i < 96 then some k else none) else none
  | none => none

/-- Start the next clear: hardware clears go ahead of a software clear, which waits meanwhile (R408). -/
def clearNext (s : State) : State :=
  let r := s.rasp
  let dur := fun (j : ClearJob) => clearTime ((s.clearKind j.base j.len).getD .maq) j.len
  match r.clears with
  | j :: rest =>
    if j.endAt.isSome then s
    else s.setRasp { r with
      clears := { j with endAt := some (s.now + dur j) } :: rest,
      soft := r.soft.map (fun k => { k with endAt := k.endAt.map (fun t => t + dur j) }) }
  | [] =>
    match r.soft with
    | some j => if j.endAt.isSome then s else s.setRasp { r with soft := some { j with endAt := some (s.now + dur j) } }
    | none => s

/-- RASP_CLEAR: CLRCTL.GO (R407). -/
def raspClear (s : State) : State :=
  let base := s.f Reg.RASP.CLRBASE 29 0 * 1024
  let len := s.f Reg.RASP.CLRLEN 23 0 * 1024
  if s.rasp.soft.isSome ∨ (s.clearKind base len).isNone then s.capture Reg.RASP.page 0x75 0x6C
  else clearNext ((s.setF Reg.RASP.CLRCTL 31 31 1).setRasp { s.rasp with soft := some ⟨base, len, none⟩ })

/-- CLEAR_DONE: the last word of the running clear is written (R407, R408). -/
def clearDone (s : State) : State :=
  match s.rasp.clears with
  | ⟨b, n, some t⟩ :: rest =>
    let s := memClear b (b + n) (s.moveTo t)
    clearNext (s.setRasp { s.rasp with clears := rest })
  | _ =>
    match s.rasp.soft with
    | some ⟨b, n, some t⟩ =>
      let s := memClear b (b + n) (s.moveTo t)
      let s := (s.setRasp { s.rasp with soft := none }).setF Reg.RASP.CLRCTL 31 31 0
      clearNext (s.setStatBit Reg.RASP.page 0)
    | _ => s

/-! ## Register writes -/

/-- A write to a RASP block register (R410). -/
def raspWrite (o v : Nat) (s : State) : State :=
  let pg := Reg.RASP.page
  if o = 0x44 then
    if v < 100 then s.capture pg 0x74 0x44
    else (s.swStore Reg.RASP.SPERIOD (BitVec.ofNat 32 v)).setReg Reg.RASP.SINTV (BitVec.ofNat 32 (sintvOf v))
  else if o = 0x48 then
    if v < 600 then s.capture pg 0x74 0x48
    else
      let s := s.swStore Reg.RASP.DPERIOD (BitVec.ofNat 32 v)
      s.setReg Reg.RASP.DINTV (BitVec.ofNat 32 s.dintv)
  else if o = 0x6C then (if bitOf v 0 then raspClear s else s)
  else s

/-- A write to DRAM.CFG (R412). -/
def dramCfgWrite (v : Nat) (s : State) : State :=
  let pg := Reg.DRAM.page
  if s.en pg then s.capture pg 0x02 0x40
  else if bitsOf v 5 4 = 3 ∨ 4 < bitsOf v 2 0 then s.capture pg 0x76 0x40
  else
    let s := s.swStore Reg.DRAM.CFG (BitVec.ofNat 32 (v &&& 0x3F))
    s.setReg Reg.DRAM.USABLE (BitVec.ofNat 32 (s.dramUsable / 0x100000))

/-- A write to ECC.FLIPCTL (R409, R411). -/
def flipctlWrite (v : Nat) (s : State) : State :=
  if 39 < bitsOf v 29 24 then s.capture Reg.ECC.page 0x77 0x70
  else s.swStore Reg.ECC.FLIPCTL (BitVec.ofNat 32 (v &&& 0xFF0000FF))

/-- ECC_LOG_POP: a read of LOG2 (R32, R33, R411). -/
def eccLogPop (s : State) : Word × State :=
  let r := s.rasp
  match r.log with
  | [] => (0#32, s.capture Reg.ECC.page 4 0x48)
  | x :: rest =>
    if r.pushAt = some s.now ∧ rest.isEmpty then (0#32, s.capture Reg.ECC.page 4 0x48)
    else (x.w2, (s.setRasp { r with log := rest }).setF Reg.ECC.LOGLVL 5 0 rest.length)

/-- LOG0 or LOG1 as read: the head record. -/
def State.logHead (s : State) : EccRec := s.rasp.log.headD ⟨0#32, 0#32, 0#32⟩

/-- The LPDDR4 loses its contents and its training (DRAM disabled, without power or reset). -/
def dramStop (s : State) : State :=
  let s := ((s.setReg Reg.DRAM.STATUS 0#32).setReg Reg.RASP.DFILL 0#32).setReg Reg.RASP.DINTV 0#32
  let s := (s.setF Reg.RASP.FILLSTAT 29 29 0).setF Reg.RASP.FILLSTAT 28 28 0
  s.setRasp { s.rasp with filledOut := [], nextRegion := 0, cur := none, susp := none, waited := [] }

end Sys2Proof.Machine
end

