-- ==== Sys2Proof/Machine/Walk.lean ====
section
/-! DEFINITION. Table entries and the walk (R367-R373, R376, R381). -/

namespace Sys2Proof.Machine

/-! ## Table entries (R368) -/

def entV (e : Nat) : Bool := bitOf e 0
def entLeaf (e : Nat) : Bool := bitOf e 1
def entSize (e : Nat) : Nat := bitsOf e 6 2
def entA (e : Nat) : Bool := bitOf e 8
def entD (e : Nat) : Bool := bitOf e 9
/-- PA[39:10] of a leaf or pointer, as an address. -/
def entPA (e : Nat) : Nat := bitsOf e 39 10 * 1024
def entDev (e : Nat) : Bool := bitOf e 40
def entR (e : Nat) : Bool := bitOf e 41
def entW (e : Nat) : Bool := bitOf e 42
def entX (e : Nat) : Bool := bitOf e 43
def entWring (e : Nat) : Nat := bitsOf e 45 44
def entRring (e : Nat) : Nat := bitsOf e 47 46

/-- A valid entry is well formed (R369). -/
def wellFormed (e : Nat) (level1 : Bool) : Bool :=
  let z := entSize e
  bitsOf e 55 48 == 0 && !bitOf e 7 &&
    (if entLeaf e then (if level1 then decide (10 ≤ z) && decide (z ≤ 22) else decide (z ≤ 9)) && entPA e % 2 ^ (z + 10) == 0
     else level1 && bitsOf e 55 40 == 0 && bitsOf e 12 2 == 0 && bitsOf e 9 8 == 0)

/-- The physical address of `va` through a leaf (R371). -/
def leafPA (e va : Nat) : Nat := entPA e / 2 ^ (entSize e + 10) * 2 ^ (entSize e + 10) + va % 2 ^ (entSize e + 10)

/-- Permission to read (R376). -/
def leafReads (e r : Nat) : Bool := entR e && decide (r ≤ entRring e)
/-- Permission to write (R376). -/
def leafWrites (e r : Nat) : Bool := entW e && decide (r ≤ entWring e)
/-- Permission to execute (R376), beside DEV. -/
def leafRuns (e r : Nat) : Bool := entX e && decide (r ≤ entRring e)

/-! ## The walk -/

/-- What reading a table entry brings. -/
inductive TblOut where
  | val (e : Nat)
  | ecc
  | bus
deriving DecidableEq, Repr

/-- Read a table entry (R372): plinth SRAM and LPDDR4 only. -/
def tblRead (rq : MemRq) (a : Nat) (s : State) : TblOut × State :=
  match s.memAt a with
  | some (k, i, _) =>
    if k = .plinth ∨ k = .dram then
      match memRead { rq with kind := 3 } k i a 8 s with
      | (some e, s) => (.val e, s)
      | (none, s) => (.ecc, s)
    else (.bus, s)
  | none => (.bus, s)

/-- What a walk ends in: a PAGE detail of R377 with its ECC mark, a refused table read, or a leaf with its replica's address. -/
inductive WalkOut where
  | fault (detail : Nat) (ecc : Bool)
  | bus
  | leaf (e at_ : Nat) (level1 : Bool)
deriving DecidableEq, Repr

/-- The walk of R372 for tenant `t`, up to the marks. -/
def walk (rq : MemRq) (t va : Nat) (s : State) : WalkOut × State :=
  let root := (s.reg (Reg.MMU.ROOT t)).toNat
  if !bitOf root 31 then (.fault 1 false, s)
  else
    let a := bitsOf root 24 0 * 2 ^ 15 + bitsOf va 31 20 * 8
    match tblRead rq a s with
    | (.ecc, s) => (.fault 9 true, s)
    | (.bus, s) => (.bus, s)
    | (.val e, s) =>
      if !entV e then (.fault 2 false, s)
      else if entLeaf e then (if wellFormed e true then (.leaf e a true, s) else (.fault 3 false, s))
      else if !wellFormed e true then (.fault 3 false, s)
      else
        let b := entPA e / 8192 * 8192
        if !s.tableAt b then (.fault 4 false, s)
        else
          let a := b + bitsOf va 19 10 * 8
          match tblRead rq a s with
          | (.ecc, s) => (.fault 9 true, s)
          | (.bus, s) => (.bus, s)
          | (.val e, s) =>
            if !entV e then (.fault 2 false, s)
            else if !wellFormed e false then (.fault 3 false, s)
            else (.leaf e a false, s)

/-- The fields that the conditional OR compares: all but A, D and SW (R381). -/
def entFixed (e : Nat) : Nat := Nat.land e (2 ^ 56 - 1 - 768)

/-- The conditional OR of R381 and R382: bit 8 (A) or 9 (D) of the entry at `a`, if it still holds `old`. -/
def markEntry (rq : MemRq) (a old bit : Nat) (s : State) : Bool × State :=
  match s.memAt a with
  | some (k, i, _) =>
    match memRead { rq with kind := 3 } k i a 8 s with
    | (some e, s) =>
      if entFixed e = entFixed old then (memWrite { rq with kind := 3 } k i a 8 (Nat.lor e (2 ^ bit)) s) else (false, s)
    | (none, s) => (false, s)
  | none => (false, s)

end Sys2Proof.Machine
end

