-- ==== Sys2Proof/Machine/Armature.lean ====
section
/-! DEFINITION. The Armature (chapter 14): commands, the checks of SUBMIT, admission and placement, slow engines, migration, failure, withdrawal, reports. -/

namespace Sys2Proof.Machine

def State.setArm (s : State) (a : ArmSt) : State := { s with arm := a }
/-- The copy of ARM[0] of agent `g` (R415). -/
def State.armCopy (s : State) (g : Nat) : ArmCopy := tget (fun _ => ArmCopy.idle) s.arm.copies g
def State.setArmCopy (s : State) (g : Nat) (c : ArmCopy) : State :=
  s.setArm { s.arm with copies := tput (fun _ => ArmCopy.idle) s.arm.copies g c }
def State.task (s : State) (id : Nat) : Option Task := s.arm.tasks.lookup id
/-- Store a task, in ID order. -/
def putTask (id : Nat) (t : Task) : List (Nat × Task) → List (Nat × Task)
  | [] => [(id, t)]
  | (i, u) :: r => if i = id then (id, t) :: r else if id < i then (id, t) :: (i, u) :: r else (i, u) :: putTask id t r
def State.setTask (s : State) (id : Nat) (t : Task) : State := s.setArm { s.arm with tasks := putTask id t s.arm.tasks }
def State.dropTask (s : State) (id : Nat) : State := s.setArm { s.arm with tasks := s.arm.tasks.filter (fun p => p.1 != id) }

/-! ## Descriptors (R416) -/

/-- Word `k` of a descriptor. -/
def dw (d : List Word) (k : Nat) : Nat := (lget 0#32 d k).toNat
def dJob (d : List Word) : Bool := bitOf (dw d 0) 4
def dClass (d : List Word) : Nat := bitsOf (dw d 0) 1 0
def dLevel (d : List Word) : Nat := bitsOf (dw d 0) 27 24
def dRing (d : List Word) : Nat := bitsOf (dw d 0) 17 16
def dPin (d : List Word) : Bool := bitOf (dw d 0) 8
/-- A hard engine task; a firm or background one. -/
def dHard (d : List Word) : Bool := !dJob d && dClass d == 0
def dFirm (d : List Word) : Bool := !dJob d && dClass d == 1
def dCached (d : List Word) : Bool := bitOf (dw d 3) 4
def dCodeSize (d : List Word) : Nat := 2 ^ bitsOf (dw d 3) 3 0 * 1024
def dRunva (d : List Word) : Nat := bitsOf (dw d 3) 31 10 * 1024
def dSrcva (d : List Word) : Nat := bitsOf (dw d 4) 31 10 * 1024
def dPeriod (d : List Word) : Nat := dw d 6
def dDeadline (d : List Word) : Nat := dw d 7
/-- C of R423. -/
def dCost (d : List Word) : Nat := dw d 5 + 24
/-- ceil(65,536 × C ÷ PERIOD) (R426, R430). -/
def dUtil (d : List Word) : Nat := ceilDiv (65536 * dCost d) (dPeriod d)
/-- The same with BUDGET alone, for a Maquette job (R426). -/
def jUtil (d : List Word) : Nat := ceilDiv (65536 * dw d 5) (dPeriod d)
def dNear (d : List Word) : Bool := bitOf (dw d 9) 30
def dNearPl (d : List Word) : Nat := bitsOf (dw d 9) 29 24 / 4
def dPlmask (d : List Word) : Nat := if bitsOf (dw d 9) 23 12 = 0 then 0xFFF else bitsOf (dw d 9) 23 12
def dPine (d : List Word) : Bool := bitOf (dw d 9) 11

/-- Fields of BUF[b]. -/
def bufV (w : Nat) : Bool := bitOf w 9
def bufW (w : Nat) : Bool := bitOf w 8
def bufPlace (w : Nat) : Nat := bitsOf w 7 6
def bufStk (w : Nat) : Bool := bitOf w 4
def bufSize (w : Nat) : Nat := 2 ^ bitsOf w 3 0 * 1024
def bufVa (w : Nat) : Nat := bitsOf w 31 10 * 1024
/-- The buffers in use, with their words' numbers. -/
def dBufs (d : List Word) : List (Nat × Nat) := ((List.range 5).map (fun b => (11 + b, dw d (11 + b)))).filter (fun p => bufV p.2)
/-- The triggers that are enabled (R416). -/
def dTrigs (d : List Word) : List Nat :=
  (if bitOf (dw d 8) 15 then [bitsOf (dw d 8) 11 0] else []) ++ (if bitOf (dw d 8) 31 then [bitsOf (dw d 8) 27 16] else [])

/-- Two ranges of addresses meet. -/
def rangesMeet (a n b m : Nat) : Bool := decide (a < b + m) && decide (b < a + n)

/-- Number of the first word that breaks the descriptor's layout (code 0x01 of R417); `ring0` tells that T0 submits from ring 0. -/
def descWordBad (d : List Word) (ring0 : Bool) : Option Nat :=
  let w := dw d
  let ck := fun (b : Bool) (k : Nat) => if b then some k else none
  let lv := dLevel d
  let c := dClass d
  let resCtl := bitsOf (w 0) 31 28 != 0 || bitsOf (w 0) 23 18 != 0 || bitsOf (w 0) 15 9 != 0 || bitsOf (w 0) 7 5 != 0 || bitsOf (w 0) 3 2 != 0
  let repBad := bitsOf (w 10) 30 12 != 0 || (bitOf (w 10) 31 && decide (bitsOf (w 10) 11 0 < 0x800))
  if dJob d then
    [ck (resCtl || c != 1 || lv != 0 || dRing d != 0 || dPin d) 0, ck (bitsOf (w 1) 31 19 != 0 || bitsOf (w 1) 5 0 != 0) 1,
     ck (decide (47 < w 2)) 2, ck (w 3 != 0) 3, ck (w 4 != 0) 4, ck (w 6 == 0) 6, ck (w 7 != 0) 7, ck (w 8 != 0) 8, ck (w 9 != 0) 9,
     ck repBad 10, (List.range 5).findSome? (fun b => ck (w (11 + b) != 0) (11 + b))].findSome? id
  else
    let levelOk := if c = 0 then decide (8 ≤ lv) else if c = 1 then decide (4 ≤ lv) && decide (lv ≤ 7) else decide (lv ≤ 3)
    let n := dCodeSize d
    let code := (dRunva d, n)
    let bufBad := fun (b : Nat) =>
      let x := w (11 + b)
      let before := (dBufs d).filter (fun p => decide (p.1 < 11 + b))
      bitOf x 5 || (bufV x &&
        (decide (9 < bitsOf x 3 0) || (decide (bufPlace x ≤ 1) && decide (6 < bitsOf x 3 0)) || decide (bufVa x % bufSize x ≠ 0) ||
          (bufStk x && (!bufW x || before.any (fun p => bufStk p.2))) || rangesMeet (bufVa x) (bufSize x) code.1 code.2 ||
          before.any (fun p => rangesMeet (bufVa x) (bufSize x) (bufVa p.2) (bufSize p.2))))
    [ck (resCtl || c == 3 || !levelOk || (dRing d == 0 && !ring0)) 0,
     ck (decide (w 1 % 4 ≠ 0) || decide (w 1 < code.1) || decide (code.1 + n ≤ w 1)) 1,
     ck (bitsOf (w 3) 9 5 != 0 || decide (5 < bitsOf (w 3) 3 0) || (!dCached d && decide (dRunva d % n ≠ 0)) || (c == 0 && dCached d)) 3,
     ck (bitsOf (w 4) 9 0 != 0 || (dCached d && w 4 != 0)) 4,
     ck (w 7 == 0 || decide (w 6 < w 7)) 7,
     ck (bitsOf (w 8) 30 28 != 0 || bitsOf (w 8) 14 12 != 0 || (c == 0 && (dTrigs d).isEmpty)) 8,
     ck (bitsOf (w 9) 10 7 != 0 || (dNear d && decide (47 < bitsOf (w 9) 29 24)) || (dPine d && decide (95 < bitsOf (w 9) 6 0))) 9,
     ck repBad 10, (List.range 5).findSome? (fun b => ck (bufBad b) (11 + b))].findSome? id

/-! ## What engines and plinths hold -/

/-- Engine tasks on engine `e`. -/
def State.tasksOn (s : State) (e : Nat) : List (Nat × Task) := s.arm.tasks.filter (fun p => !dJob p.2.words && p.2.unit == e)
def sumUtil (l : List (List Word)) : Nat := l.foldl (fun a d => a + dUtil d) 0
/-- Descriptors of the hard tasks of an engine. -/
def State.hardOn (s : State) (e : Nat) : List (List Word) := ((s.tasksOn e).map (·.2.words)).filter dHard
/-- Descriptors of its hard and firm tasks. -/
def State.loadOn (s : State) (e : Nat) : List (List Word) := ((s.tasksOn e).map (·.2.words)).filter (fun d => dHard d || dFirm d)

/-- RETIRE of engine `e`; AVOID of plinth `p` (R444). -/
def State.retired (s : State) (e : Nat) : Bool := s.b (Reg.ARM1.RETIRE (e / 32)) (e % 32)
def State.avoided (s : State) (p : Nat) : Bool := s.b Reg.ARM1.AVOID p
/-- An engine, a plinth is slow (R435). -/
def State.engSlow (s : State) (e : Nat) : Bool := s.retired e || s.arm.slow.contains e || s.arm.slow.contains (256 + e)
def State.plSlow (s : State) (p : Nat) : Bool := s.avoided p || s.arm.slow.contains (96 + p)
/-- Engine `e` is slow for a task (R435). -/
def State.slowFor (s : State) (d : List Word) (e : Nat) : Bool :=
  s.engSlow e || (s.plSlow (e / 8) && (dBufs d).any (fun p => bufPlace p.2 == 2))

/-- Context of tenant `t` on engine `e`, or a free one (R420, R430). -/
def State.ctxFor (s : State) (e t : Nat) : Option Nat :=
  let v := fun (x : Nat) => (s.reg (Reg.ENG.CTXCFG e x)).toNat
  ((List.range 7).find? (fun x => bitOf (v x) 31 && bitsOf (v x) 8 0 == t)).orElse (fun _ => (List.range 7).find? (fun x => !bitOf (v x) 31))
/-- Engine `e` holds a context of tenant `t`. -/
def State.holdsCtx (s : State) (e t : Nat) : Bool :=
  (List.range 7).any (fun x => s.b (Reg.ENG.CTXCFG e x) 31 && s.f (Reg.ENG.CTXCFG e x) 8 0 == t)
/-- The lowest free slot of 0-59. -/
def State.slotFor (s : State) (e : Nat) : Option Nat := (List.range 60).find? (fun n => !(s.tasksOn e).any (fun p => p.2.slot == n))

/-- The Armature's memory of a kind and unit (R421): first offset and end. -/
def State.armRange (s : State) (kind unit : Nat) : Nat × Nat :=
  if kind ≤ 1 then (0, 0x10000)
  else if kind = 2 then
    let c := s.f (Reg.ENG.CFG unit) 1 0
    (0, if c = 0 then 0x8000 else 0x8000 - 0x1000 * 2 ^ c)
  else
    let b := s.f (Reg.ARM1.POOL unit) 15 8 * 16384
    (b, min 0x200000 (b + s.f (Reg.ARM1.POOL unit) 7 0 * 16384))

/-- Lowest naturally aligned free place of `n` bytes, beside the tasks' memory and `more`. -/
def State.armAlloc (s : State) (kind unit n : Nat) (more : List ArmMem) : Option Nat :=
  let used := (s.arm.tasks.flatMap (fun p => p.2.mems) ++ more).filter (fun m => m.kind == kind && m.unit == unit)
  let r := s.armRange kind unit
  ((List.range 2048).map (fun i => n * i)).find? (fun o =>
    decide (r.1 ≤ o) && decide (o + n ≤ r.2) && !used.any (fun m => rangesMeet o n m.off m.size))

/-- The memory ranges a task needs, their places not yet chosen: buffers, then the code image (R416, R419). -/
def dMems (d : List Word) : List ArmMem :=
  (((dBufs d).filter (fun p => bufPlace p.2 != 3)).map (fun p =>
    (⟨if bufPlace p.2 = 2 then 3 else bufPlace p.2, 0, 0, bufSize p.2, bufVa p.2, bufW p.2, false⟩ : ArmMem))) ++
  (if dJob d || dCached d then [] else [⟨2, 0, 0, dCodeSize d, dRunva d, false, true⟩])

/-- Places for all of them on engine `e`. -/
def State.allocAll (s : State) (e : Nat) : List ArmMem → List ArmMem → Option (List ArmMem)
  | [], acc => some acc
  | m :: r, acc =>
    let u := if m.kind = 3 then e / 8 else e
    match s.armAlloc m.kind u m.size acc with
    | some o => s.allocAll e r (acc ++ [{ m with unit := u, off := o }])
    | none => none

/-- First byte of a range in physical memory. -/
def ArmMem.pa (m : ArmMem) : Nat :=
  memBase (if m.kind = 0 then .engX else if m.kind = 1 then .engY else if m.kind = 2 then .engI else .plinth) m.unit + m.off

/-- Bytes a tenant's tasks hold in pools, and in engine memory (R421). -/
def poolBytes (l : List ArmMem) : Nat := (l.filter (fun m => m.kind == 3)).foldl (fun a m => a + m.size) 0
def engBytes (l : List ArmMem) : Nat := (l.filter (fun m => m.kind != 3)).foldl (fun a m => a + m.size) 0
def State.heldMems (s : State) (t : Nat) : List ArmMem := (s.arm.tasks.filter (fun p => p.2.tenant == t)).flatMap (fun p => p.2.mems)

/-! ## Admission (R423-R427) -/

/-- Response bound of task `k` against the others that count (R424 item 3). -/
def respGo (c blk dl : Nat) (others : List (List Word)) : Nat → Nat → Option Nat
  | 0, _ => none
  | f + 1, prev =>
    let r := others.foldl (fun a j => a + ceilDiv prev (dPeriod j) * dCost j) (c + blk)
    if r = prev then (if r ≤ dl then some r else none) else if dl < r then none else respGo c blk dl others f r

/-- R_k of the `k`-th task of a list of hard tasks. -/
def respBound (h : List (List Word)) (k blk : Nat) : Option Nat :=
  let d := lget [] h k
  let others := ((h.zip (List.range h.length)).filter (fun p => p.2 != k && decide (dLevel d ≤ dLevel p.1))).map (·.1)
  respGo (dCost d) blk (dDeadline d) others (dDeadline d + 2) (dCost d + blk)

/-- The test of R424 for new task `d` of tenant `t` on engine `e`: its bound. -/
def State.admitHard (s : State) (e t : Nat) (d : List Word) : Option Nat :=
  let old := (s.tasksOn e).filter (fun p => dHard p.2.words)
  let h := old.map (·.2.words) ++ [d]
  let blk := s.f Reg.ARM1.CFG 15 0
  let same := old.all (fun p => p.2.tenant == t)
  let window := h.all (fun k => decide (h.foldl (fun a j => a + ceilDiv (dPeriod k) (dPeriod j) * dCost j) 0 ≤ 17 * dPeriod k / 20))
  let bounds := (List.range h.length).all (fun k => (respBound h k blk).isSome)
  if same && window && bounds then respBound h old.length blk else none

/-- The test of R426 for a firm task `d` on engine `e`. -/
def State.admitFirm (s : State) (e : Nat) (d : List Word) : Bool := decide (sumUtil (d :: s.loadOn e) ≤ 62259)

/-! ## Candidates (R430) -/

/-- Stable insertion by key. -/
def insertKey (x : Nat × Nat) : List (Nat × Nat) → List (Nat × Nat)
  | [] => [x]
  | y :: r => if x.1 < y.1 then x :: y :: r else y :: insertKey x r

/-- The candidate engines of a task, in the order they are tried (R430, R435). -/
def State.candidates (s : State) (t : Nat) (d : List Word) : List Nat :=
  let quota := s.f (Reg.ARM2.TQUOTA t) 31 20
  let usable := fun (e : Nat) => s.en (Reg.ENG.page e) && !s.retired e && bitOf quota (e / 8) && !s.slowFor d e
  if dPine d then (let e := bitsOf (dw d 9) 6 0; if usable e then [e] else [])
  else
    let mask := dPlmask d
    let start := if dNear d then dNearPl d else 0
    let ok := fun (e : Nat) => usable e && !s.avoided (e / 8) && (bitOf mask (e / 8) || !bitOf (dw d 9) 31)
    let key := fun (e : Nat) =>
      let p := e / 8
      let k1 := if dNear d ∧ p ≠ dNearPl d then 1 else 0
      let k2 := if bitOf mask p then 0 else 1 + (p + 12 - start) % 12
      let k3 := if s.holdsCtx e t then 0 else 1
      let k4 := if dHard d then 2 ^ 40 - sumUtil (s.hardOn e) else sumUtil (s.loadOn e)
      (((k1 * 16 + k2) * 2 + k3) * 2 ^ 41 + k4) * 128 + e
    (((List.range 96).filter ok).foldl (fun l e => insertKey (key e, e) l) []).map (·.2)

/-- A place on an engine: slot, context, memory; none where one of them is missing. -/
def State.roomOn (s : State) (e t : Nat) (d : List Word) : Option (Nat × Nat × List ArmMem) :=
  match s.slotFor e, s.ctxFor e t, s.allocAll e (dMems d) [] with
  | some n, some x, some m => some (n, x, m)
  | _, _, _ => none

/-- A floating task (R435): firm or background, PIN 0, running. -/
def Task.floats (k : Task) : Bool := !dJob k.words && !dHard k.words && !dPin k.words && k.state == .running

/-- Where a floating task would go (R435): the first candidate other than its own engine that passes R426 and has room. -/
def State.destOf (s : State) (k : Task) : Option (Nat × Nat × Nat × List ArmMem) :=
  ((s.candidates k.tenant k.words).filter (fun e => e != k.unit)).findSome? (fun e =>
    if dFirm k.words && !s.admitFirm e k.words then none
    else (s.roomOn e k.tenant k.words).map (fun r => (e, r.1, r.2.1, r.2.2)))

/-- Firm floating tasks of an engine, largest utilisation first (R427). -/
def State.firmBySize (s : State) (e : Nat) : List (Nat × Task) :=
  let l := (s.tasksOn e).filter (fun p => p.2.floats && dFirm p.2.words)
  let key := fun (p : Nat × Task) => (2 ^ 50 - dUtil p.2.words) * 4096 + p.1
  ((l.foldl (fun a p => insertKey (key p, p.1) a) []).map (·.2)).filterMap (fun i => (s.task i).map (fun k => (i, k)))

/-- Migrations exist that bring engine `e` with `extra` of new load back under R426 (R427). -/
def State.reliefGo (e extra : Nat) : List (Nat × Task) → State → Bool
  | l, s =>
    match l with
    | [] => decide (sumUtil (s.loadOn e) + extra ≤ 62259)
    | (i, k) :: r =>
      if sumUtil (s.loadOn e) + extra ≤ 62259 then true
      else match s.destOf k with
        | some (e', n, x, m) => State.reliefGo e extra r (s.setTask i { k with unit := e', slot := n, ctx := x, mems := m })
        | none => State.reliefGo e extra r s

/-- R427 for a hard task of utilisation `u`. -/
def State.reliefOk (s : State) (e u : Nat) : Bool :=
  if (s.loadOn e).any dFirm then State.reliefGo e u (s.firmBySize e) s else true

/-- Engine `e` admits the task: the bound to report (R424, R426, R427). -/
def State.admits (s : State) (e t : Nat) (d : List Word) : Option Nat :=
  if dHard d then (match s.admitHard e t d with
    | some r => if s.reliefOk e (dUtil d) then some r else none
    | none => none)
  else if dFirm d then (if s.admitFirm e d then some 0 else none)
  else some 0

/-! ## Mappings -/

/-- The Armature as a requester of memory (R411). -/
def armRq (t kind : Nat) : MemRq := ⟨t, 121, kind⟩

/-- The level-2 table over `va` of tenant `t`, if its level-1 slot holds a pointer (R417 code 0x09). -/
def l2Table (t va : Nat) (s : State) : Option Nat × State :=
  let root := (s.reg (Reg.MMU.ROOT t)).toNat
  if !bitOf root 31 then (none, s)
  else match tblRead (armRq 0 3) (bitsOf root 24 0 * 2 ^ 15 + bitsOf va 31 20 * 8) s with
    | (.val e, s) =>
      let b := entPA e / 8192 * 8192
      (if entV e && !entLeaf e && wellFormed e true && s.tableAt b then some b else none, s)
    | (_, s) => (none, s)

/-- Addresses of the level-2 slots of a page. -/
def l2Slots (b va size : Nat) : List Nat := (List.range (size / 1024)).map (fun i => b + (bitsOf va 19 10 + i) * 8)

/-- The slots that a new page would use are there and invalid (R417 code 0x09). -/
def slotsFree (t : Nat) (m : ArmMem) (s : State) : Bool × State :=
  match l2Table t m.va s with
  | (none, s) => (false, s)
  | (some b, s) =>
    (l2Slots b m.va m.size).foldl (fun (a : Bool × State) x =>
      match tblRead (armRq 0 3) x a.2 with
      | (.val e, s) => (a.1 && !entV e, s)
      | (_, s) => (false, s)) (true, s)

/-- The leaf of an Armature-placed page (R418). -/
def armLeaf (m : ArmMem) (ring : Nat) : Nat :=
  m.pa + 2 ^ 41 + b2n m.w * 2 ^ 42 + b2n m.x * 2 ^ 43 + ring * 2 ^ 44 + ring * 2 ^ 46 + 0x303 + Nat.log2 (m.size / 1024) * 4

/-- Write the entry `e` into every replica of a page, and invalidate the page (R432 item 4, R437, R440). -/
def writeLeaves (t : Nat) (m : ArmMem) (e : Nat) (s : State) : State :=
  match l2Table t m.va s with
  | (none, s) => s
  | (some b, s) =>
    let s := (l2Slots b m.va m.size).foldl (fun u a =>
      match u.memAt a with
      | some (k, i, _) => (memWrite (armRq 0 8) k i a 8 e u).2
      | none => u) s
    (tlbRemove 0 t m.va s).1.cntAdd Reg.MMU.INVSTAT 15 0 1 false

/-- Every 1 KiB of `va`-`va + size` is mapped by valid leaves that `ok` accepts (R417 code 0x0A). -/
def mappedGo (t : Nat) (ok : Nat → Bool) (va : Nat) : Nat → State → Bool × State
  | 0, s => (true, s)
  | n + 1, s =>
    match walk (armRq 0 3) t va s with
    | (.leaf e _ _, s) => if ok e then mappedGo t ok (va + 1024) n s else (false, s)
    | (_, s) => (false, s)

/-- Copy `n` KiB from the tenant's `va` to physical `pa` (R432 item 3); false where a word is uncorrectable. -/
def copyIn (t va pa : Nat) : Nat → State → Bool × State
  | 0, s => (true, s)
  | n + 1, s =>
    match walk (armRq 0 3) t va s with
    | (.leaf e _ _, s) =>
      let src := leafPA e va
      match s.memAt src, s.memAt pa with
      | some (k, i, _), some (k', i', _) =>
        match memRead (armRq t 1) k i src 1024 s with
        | (some v, s) => copyIn t (va + 1024) (pa + 1024) n (memWrite (armRq t 8) k' i' pa 1024 v s).2
        | (none, s) => (false, s)
      | _, _ => (false, s)
    | (_, s) => (false, s)

/-- Clear a range of the Armature's memory (R408, R419, R440). -/
def ArmMem.wipe (m : ArmMem) (s : State) : State := memClear m.pa (m.pa + m.size) s

/-- CCLK its clear takes (R407). -/
def ArmMem.wipeTime (m : ArmMem) : Nat := clearTime (if m.kind ≤ 1 then .engX else if m.kind = 2 then .engI else .plinth) m.size

/-! ## Slots and contexts (R420, R432) -/

/-- Fill context `x` of engine `e` for tenant `t` from its template, unless it is the tenant's already (R420). -/
def fillContext (e x t : Nat) (s : State) : State :=
  let a := Reg.ENG.CTXCFG e x
  if s.b a 31 ∧ s.f a 8 0 = t then s
  else
    let w := (s.arm.templates.lookup t).getD []
    let v := fun (k : Nat) => dw w k
    let s := ctxcfgWrite e x (0x80000000 + t) s
    let put := fun (k n m : Nat) (u : State) => u.setReg (a + 4 * k) (BitVec.ofNat 32 (Nat.land n m))
    put 1 (v 0) 0xFFFFFFE0 (put 2 (v 1) 0xFFFFFFF8 (put 3 (v 2) 0x1FF (put 4 (v 3 + e * v 7 * 64) 0xFFFFFFF0
      (put 5 (v 4 + e * v 7 * 64) 0xFFFFFFF0 (put 6 (v 5) 0xFFFC0 (put 7 (v 6) 0xFFFFFFFC s))))))

/-- Write ENTRY, ARG, SP and SCTL of a placed task, EN still 0, COUNT `n` (R432 item 5, R437 item 5). -/
def fillSlot (e n x : Nat) (d : List Word) (cnt : Nat) (lost : Bool) (s : State) : State :=
  let sp := match (dBufs d).find? (fun p => bufStk p.2) with
    | some p => bufVa p.2 + bufSize p.2
    | none => 0
  let s := s.setSlotW e n 1 (BitVec.ofNat 32 (Nat.land (dw d 1) 0xFFFFFFFC))
  let s := s.setSlotW e n 2 (BitVec.ofNat 32 (dw d 2))
  let s := s.setSlotW e n 3 (BitVec.ofNat 32 sp)
  let s := s.setSlotW e n 0 (BitVec.ofNat 32 (b2n lost * 2 ^ 29 + dLevel d * 2 ^ 20 + dRing d * 2 ^ 18 + x * 2 ^ 14))
  if cnt = 0 then s else slotEvent e n cnt s

/-- Set EN of a slot. -/
def slotOn (e n : Nat) (s : State) : State := s.setSlotF e n 31 31 1

/-- The context is released when no other task's slot names it (R440). -/
def freeContext (e x : Nat) (s : State) : State :=
  if x < 7 ∧ !(s.tasksOn e).any (fun p => p.2.ctx == x) then ctxcfgWrite e x (s.f (Reg.ENG.CTXCFG e x) 8 0) s else s

/-! ## Reports (R441) -/

/-- A report of task `id`. -/
def armReport (id kind from_ to_ detail : Nat) (s : State) : State :=
  match s.task id with
  | none => s
  | some k =>
    let s := s.setTask id { k with lastrep := kind }
    let r := dw k.words 10
    let s := if bitOf r 31 then s.raiseDev (bitsOf r 11 0) (some k.tenant) else s
    let a := s.arm
    let pg := Reg.ARM3.page
    let rec_ : RepRec := ⟨BitVec.ofNat 32 (kind * 2 ^ 24 + k.tenant * 2 ^ 12 + id), BitVec.ofNat 32 (from_ * 2 ^ 24 + to_ * 2 ^ 16 + satN 65535 detail),
      BitVec.ofNat 32 (s.timeNs s.now), BitVec.ofNat 32 a.repSeq⟩
    if a.reports.length < 64 then
      (s.setArm { a with reports := a.reports ++ [rec_], repPush := some s.now, repSeq := (a.repSeq + 1) % 2 ^ 32 }).setStatBit pg 0
    else (((s.setArm { a with repSeq := (a.repSeq + 1) % 2 ^ 32 }).cntAdd Reg.ARM3.REPDROP 31 0 1 true).setStatBit pg 1).capture pg 0x03 0x4C

/-- REPORT_POP: a read of REP3 (R32, R33, R445). -/
def reportPop (s : State) : Word × State :=
  match s.arm.reports with
  | [] => (0#32, s.capture Reg.ARM3.page 0x04 0x4C)
  | r :: rest =>
    if s.arm.repPush = some s.now ∧ rest.isEmpty then (0#32, s.capture Reg.ARM3.page 0x04 0x4C)
    else (r.r3, s.setArm { s.arm with reports := rest })

/-- The unit of a report: the engine, or the Maquette of a job. -/
def Task.place (k : Task) : Nat := k.unit

/-- SLOWED and RECOVERED reports of hard and pinned tasks (R436). -/
def slowRefresh (s : State) : State :=
  s.arm.tasks.foldl (fun u p =>
    let k := p.2
    if dJob k.words || !(dHard k.words || dPin k.words) then u
    else
      let slow := u.slowFor k.words k.unit
      if slow = k.slowed then u
      else armReport p.1 (if slow then 3 else 7) k.unit k.unit 0 (u.setTask p.1 { k with slowed := slow })) s

/-- ENGINE_RETIRE: a write of RETIRE or AVOID at offset `o` of ARM[1] (R435, R444). -/
def retireWrite (o v : Nat) (s : State) : State :=
  let a := Reg.ARM1.page + o
  let new := if o = 0x54 then BitVec.ofNat 32 (v % 4096) else BitVec.ofNat 32 v
  let rising := new &&& ~~~(s.reg a)
  let s := s.swStore a new
  slowRefresh (if rising = 0#32 then s else s.setStatBit Reg.ARM1.page 0)

/-- SLOW_DETECT: a cause that has lasted SLOWT µs makes its engine or plinth slow (R435, R444). -/
def slowDetect (k : Nat) (s : State) : State :=
  let t := max 1 (s.f Reg.ARM1.CFG 31 16) * 800
  match s.arm.slowFrom.lookup k with
  | some e =>
    if s.arm.slow.contains k then s
    else
      let s := s.moveTo (e + t)
      slowRefresh ((s.setArm { s.arm with slow := k :: s.arm.slow }).setStatBit Reg.ARM1.page 0)
  | none => s

/-! ## Commands (R415) -/

/-- OP of a CMD word. -/
def cmdOp (w : Word) : Nat := bitsOf w.toNat 27 24
def cmdTenant (w : Word) : Nat := bitsOf w.toNat 20 12
def cmdId (w : Word) : Nat := bitsOf w.toNat 11 0
/-- The tenant a command acts for (R415). -/
def ArmCmd.tenant (c : ArmCmd) : Nat := if c.ring = 0 then cmdTenant c.cmd else c.own
/-- A command of agent `g` runs or waits. -/
def State.armBusy (s : State) (g : Nat) : Bool := s.arm.queue.any (fun c => c.agent == g)

/-- The command the Armature performs next, if its operation is `op`. -/
def State.armHead (s : State) (op : Nat) : Option ArmCmd :=
  match s.arm.queue with
  | c :: _ => if c.done.isNone ∧ cmdOp c.cmd = op then some c else none
  | [] => none

/-- The command at the head has been performed and completes at edge `at_`. -/
def armFinish (at_ code id : Nat) (rinfo : List Word) (start free : Option Nat) (s : State) : State :=
  match s.arm.queue with
  | c :: r => s.setArm { s.arm with queue := { c with done := some ⟨at_, BitVec.ofNat 32 (code * 2 ^ 24 + id), rinfo, start, free⟩ } :: r }
  | [] => s

/-- RINFO of a refusal (R417). -/
def armInfo (i : Nat) : List Word := [0#32, 0#32, 0#32, BitVec.ofNat 32 (i % 2 ^ 24)]

/-- The head is refused with a code. -/
def armRefuse (at_ code id info : Nat) (s : State) : State := armFinish at_ code id (armInfo info) none none s

/-- RINFO of a task (R443). -/
def Task.rinfo (k : Task) : List Word :=
  let st := match k.state with
    | .placing => 1
    | .running => 1
    | .migrating => 2
    | .failed => 3
    | .withdrawing => 4
  [BitVec.ofNat 32 (st * 2 ^ 29 + k.unit * 2 ^ 22 + k.slot * 2 ^ 16 + dLevel k.words * 2 ^ 12 + k.fcause * 2 ^ 8), BitVec.ofNat 32 k.rbound,
   BitVec.ofNat 32 (k.migr * 2 ^ 16 + k.miss), BitVec.ofNat 32 (k.lastrep * 2 ^ 24)]

/-- A write of STAGE[k], or of CMD, into the requester's copy (R415, R443). The page holds a CMD write while the requester's command runs; the caller sees to that. -/
def armWrite (rq : Rq) (o v : Nat) (s : State) : State :=
  let c := s.armCopy rq.agent
  if o < 0x80 then s.setArmCopy rq.agent { c with stage := lput c.stage ((o - 0x40) / 4) (BitVec.ofNat 32 v) }
  else if o = 0x80 then
    let cmd := BitVec.ofNat 32 (Nat.land v 0x0F1FFFFF)
    if !bitOf v 31 then s.setArmCopy rq.agent { c with cmd := cmd }
    else if 2 ≤ rq.ring then s.setArmCopy rq.agent { c with cmd := cmd, result := 0x02000000#32, rinfo := armInfo 0 }
    else
      let s := s.setArmCopy rq.agent { c with cmd := cmd, result := 0x80000000#32 }
      s.setArm { s.arm with queue := s.arm.queue ++ [⟨rq.agent, rq.ring, rq.tenant, cmd, c.stage, none⟩] }
  else s

/-- A register of the requester's copy as read (R443). -/
def State.armRead (s : State) (g o : Nat) : Word :=
  let c := s.armCopy g
  if o < 0x80 then lget 0#32 c.stage ((o - 0x40) / 4) else if o = 0x80 then c.cmd else if o = 0x84 then c.result else lget 0#32 c.rinfo ((o - 0x88) / 4)

/-- ARM_COMMAND_DONE: the head completes; its RESULT becomes readable (R415, R432, R439, R440). -/
def armCommandDone (s : State) : State :=
  match s.arm.queue with
  | c :: r =>
    match c.done with
    | none => s
    | some d =>
      let s := s.moveTo d.at_
      let s := s.setArm { s.arm with queue := r }
      let s := s.setArmCopy c.agent { s.armCopy c.agent with result := d.result, rinfo := d.rinfo }
      let s := match d.start.bind (fun i => (s.task i).map (fun k => (i, k))) with
        | some (i, k) =>
          let s := s.setTask i { k with state := .running }
          let s := if dJob k.words then s else slotOn k.unit k.slot s
          armReport i 1 127 k.unit 0 s
        | none => s
      match d.free.bind (fun i => (s.task i).map (fun k => (i, k))) with
      | some (i, k) => (armReport i 6 k.unit 127 0 s).dropTask i
      | none => s
  | [] => s

/-- ARM_UNKNOWN_OP (R415). -/
def armUnknownOp (s : State) : State :=
  match s.arm.queue with
  | c :: _ => if c.done.isNone ∧ (cmdOp c.cmd = 0 ∨ 5 < cmdOp c.cmd) then armRefuse s.now 0x01 (cmdId c.cmd) 0 s else s
  | [] => s

/-- The common checks of WITHDRAW, QUERY and RESTART: code 0x02, then 0x0E; `any` lets ring 0 name any tenant's task (R440). -/
def State.armNamed (s : State) (c : ArmCmd) (any : Bool) : Except Nat (Nat × Task) :=
  if c.ring ≠ 0 ∧ cmdTenant c.cmd ≠ 0 then .error 0x02
  else match s.task (cmdId c.cmd) with
    | none => .error 0x0E
    | some k => if k.tenant = c.tenant ∨ (any ∧ c.ring = 0) then .ok (cmdId c.cmd, k) else .error 0x0E

/-- ARM_QUERY (R415, R431): completes 64 CCLK later (R433). -/
def armQuery (s : State) : State :=
  match s.armHead 3 with
  | none => s
  | some c =>
    match s.armNamed c false with
    | .error e => armRefuse (s.now + 64) e (cmdId c.cmd) 0 s
    | .ok (i, k) => armFinish (s.now + 64) 0 i k.rinfo none none (s.setTask i { k with missRep := false })

/-- ARM_CTXSET (R420): completes 32 CCLK later (R433). -/
def armCtxset (s : State) : State :=
  match s.armHead 5 with
  | none => s
  | some c =>
    if c.ring ≠ 0 ∧ cmdTenant c.cmd ≠ 0 then armRefuse (s.now + 32) 0x02 (cmdId c.cmd) 0 s
    else
      let l := (c.tenant, c.stage.take 8) :: s.arm.templates.filter (fun p => p.1 != c.tenant)
      armFinish (s.now + 32) 0 (cmdId c.cmd) (armInfo 0) none none (s.setArm { s.arm with templates := l })

/-- ARM_RESTART (R439). -/
def armRestart (s : State) : State :=
  match s.armHead 4 with
  | none => s
  | some c =>
    match s.armNamed c false with
    | .error e => armRefuse s.now e (cmdId c.cmd) 0 s
    | .ok (i, k) =>
      if k.state ≠ .failed then armRefuse s.now 0x01 i 0 s
      else
        let w := (s.slotW k.unit k.slot 0).toNat
        let s := s.setSlotW k.unit k.slot 0 (BitVec.ofNat 32 (putBits (Nat.land w (2 ^ 32 - 1 - 0x60000000)) 27 24 0))
        armFinish s.now 0 i k.rinfo (some i) none s

/-- ARM_WITHDRAW (R440): routes are diverted; once the slot is not active the task's slot, memory, mappings and context are released. Given again while it waits. -/
def armWithdraw (s : State) : State :=
  match s.armHead 2 with
  | none => s
  | some c =>
    match s.armNamed c true with
    | .error e => armRefuse s.now e (cmdId c.cmd) 0 s
    | .ok (i, k) =>
      let s := s.setTask i { k with state := .withdrawing }
      if dJob k.words then
        let s := jobStop k.unit k.slot s
        if s.jobEn k.unit k.slot then s else armFinish s.now 0 i (armInfo 0) none (some i) s
      else if s.slotActive k.unit k.slot then s
      else
        let s := s.setSlotW k.unit k.slot 0 0#32
        let s := k.mems.foldl (fun u m => m.wipe (writeLeaves k.tenant m 0 u)) s
        let s := s.setTask i { k with state := .withdrawing, mems := [], slot := 63 }
        let s := freeContext k.unit k.ctx (s.setTask i { k with state := .withdrawing, mems := [], slot := 63, ctx := 7 })
        armFinish s.now 0 i (armInfo 0) none (some i) s

/-! ## SUBMIT (R417, R432-R434) -/

/-- Delivery of event `id` to a consumer of tenant `t` (code 0x05 of R417): the rules of each range. -/
def State.deliverable (s : State) (id t : Nat) : Bool :=
  if t = 0 then true
  else if id < 0x600 then s.chOwner (id / 32) == t
  else if id < 0x6EC then s.f (Reg.CALIPER2.TABOWN ((id - 0x600) / 32)) 31 31 == 1 && s.f (Reg.CALIPER2.TABOWN ((id - 0x600) / 32)) 8 0 == t
  else if 0x700 ≤ id ∧ id < 0x760 then s.maqOwner ((id - 0x700) / 8) == t
  else if 0x760 ≤ id ∧ id < 0x76C then s.maqOwner (id - 0x760) == t
  else if id = 0x780 ∨ id = 0x790 ∨ id = 0x7A0 ∨ id = 0x7B0 ∨ id = 0x7C0 ∨ id = 0x7C1 then true
  else if id = 0x7F6 ∨ id = 0x7F7 then s.f (Reg.ETH.page (id - 0x7F6) + 4) 8 0 == t
  else if id = 0x7FA then s.f (Reg.GPIO.page + 4) 8 0 == t
  else decide (0x800 ≤ id) && s.swOwner id == t

/-- Number of the lowest free task ID (R414). -/
def State.freeId (s : State) : Option Nat := (List.range 4096).find? (fun i => (s.task i).isNone)

/-- A new task. -/
def newTask (t : Nat) (d : List Word) (unit slot ctx : Nat) (mems : List ArmMem) (r : Nat) : Task :=
  ⟨t, d, unit, slot, ctx, mems, .placing, 0, r, 0, 0, 0, false, false, 0, false, unit, 0, false⟩

/-- SUBMIT of a Maquette job, after the common checks (R434). -/
def submitJob (t id : Nat) (d : List Word) (s : State) : State :=
  let at_ := s.now + 256
  let p := dw d 2 / 4
  let free := (List.range 32).find? (fun k => !s.jobEn p k && !s.arm.tasks.any (fun q => dJob q.2.words && q.2.unit == p && q.2.slot == k))
  match (if s.maqOwner p = t then free else none) with
  | none => armRefuse at_ 0x0B 0 8 s
  | some k =>
    let err := Reg.MAQ.page p + 0x18
    let s1 := s.setReg (Reg.MAQ.JBASE p k) (BitVec.ofNat 32 (dw d 1))
    let s2 := jobEnable p k s1
    if !s2.jobEn p k then
      let probe := jobEnable p k (s1.setReg err 0#32)
      armRefuse at_ 0x0C 0 (probe.f err 19 0) s2
    else
      let jobs := (s.arm.tasks.filter (fun q => dJob q.2.words && q.2.unit == p)).map (·.2.words)
      if 55705 < (d :: jobs).foldl (fun a j => a + jUtil j) 0 then armRefuse at_ 0x0D 0 0 s
      else
        let k' := newTask t d p k 0 [] 0
        armFinish at_ 0 id k'.rinfo (some id) none (s2.setTask id k')

/-- The choice of R430: the first candidate that admits the task and has room, or the code that refuses it. -/
def State.placeOf (s : State) (t : Nat) (d : List Word) : Except Nat (Nat × Nat × Nat × List ArmMem × Nat) :=
  let ok := (s.candidates t d).filterMap (fun e => (s.admits e t d).map (fun r => (e, r)))
  match ok.findSome? (fun p => (s.roomOn p.1 t d).map (fun x => (p.1, x.1, x.2.1, x.2.2, p.2))) with
  | some x => .ok x
  | none => if ok.isEmpty then .error 0x07 else .error 0x08

/-- The mapping checks of R417: code and the offset of the word, for 0x09 and then 0x0A. -/
def mapChecks (t : Nat) (d : List Word) (s : State) : Option (Nat × Nat) × State :=
  let r := dRing d
  let offOf := fun (m : ArmMem) => if m.x then 0x0C else 4 * (((dBufs d).find? (fun p => bufVa p.2 == m.va)).getD (11, 0)).1
  let c9 := (dMems d).foldl (fun (a : Option Nat × State) m =>
    match a.1 with
    | some _ => a
    | none => (match slotsFree t m a.2 with
      | (true, u) => (none, u)
      | (false, u) => (some (offOf m), u))) (none, s)
  match c9.1 with
  | some o => (some (0x09, o), c9.2)
  | none =>
    let shared := ((dBufs d).filter (fun p => bufPlace p.2 == 3)).map (fun p =>
      (4 * p.1, bufVa p.2, bufSize p.2, fun (e : Nat) => leafReads e r && (!bufW p.2 || leafWrites e r)))
    let code : Nat × Nat × Nat × (Nat → Bool) :=
      if dCached d then (0x0C, dRunva d, dCodeSize d, fun e => leafRuns e r && !entDev e)
      else (0x10, dSrcva d, dCodeSize d, fun e => leafReads e r && (s.memAt (entPA e)).isSome)
    let ca := ([code] ++ shared).foldl (fun (a : Option Nat × State) q =>
      match a.1 with
      | some _ => a
      | none => (match mappedGo t q.2.2.2 q.2.1 (q.2.2.1 / 1024) a.2 with
        | (true, u) => (none, u)
        | (false, u) => (some q.1, u))) (none, c9.2)
    (ca.1.map (fun o => (0x0A, o)), ca.2)

/-- SUBMIT of an engine task, after the common checks (R417 from 0x10 and 0x07 on, R432). -/
def submitTask (t id : Nat) (d : List Word) (s : State) : State :=
  let cands := s.candidates t d
  let base := s.now + 64 * cands.length + 16 * (cands.foldl (fun a e => a + (s.hardOn e).length) 0) + 256
  let e := bitsOf (dw d 9) 6 0
  if dPine d ∧ (!bitOf (s.f (Reg.ARM2.TQUOTA t) 31 20) (e / 8) ∨ s.retired e ∨ !s.en (Reg.ENG.page e)) then armRefuse base 0x10 0 0x24 s
  else match s.placeOf t d with
    | .error c => armRefuse base c 0 0 s
    | .ok (e, n, x, mems, r) =>
      match mapChecks t d s with
      | (some (c, o), s) => armRefuse base c 0 o s
      | (none, s) =>
        if (s.arm.templates.lookup t).isNone then armRefuse base 0x0F 0 0 s
        else
          let s := mems.foldl (fun u m => m.wipe u) s
          let code := mems.find? (fun m => m.x)
          let cp : Bool × State := match code with
            | some m => copyIn t (dSrcva d) m.pa (m.size / 1024) s
            | none => (true, s)
          let time := base + mems.foldl (fun a m => a + m.wipeTime) 0 + (match code with
            | some m => m.size / 32
            | none => 0) + 48 * mems.length
          if !cp.1 then armRefuse time 0x11 0 0 (mems.foldl (fun u m => m.wipe u) cp.2)
          else
            let s := fillContext e x t cp.2
            let s := mems.foldl (fun u m => writeLeaves t m (armLeaf m (dRing d)) u) s
            let s := fillSlot e n x d 0 false s
            let k := newTask t d e n x mems r
            armFinish time 0 id k.rinfo (some id) none (s.setTask id k)

/-- ARM_SUBMIT (R417): the checks common to both types, then the type's own. -/
def armSubmit (s : State) : State :=
  match s.armHead 1 with
  | none => s
  | some c =>
    let d := c.stage
    let t := c.tenant
    let at_ := s.now + 256
    let mine := s.arm.tasks.filter (fun p => p.2.tenant == t)
    let need := dMems d
    let have_ := s.heldMems t
    match descWordBad d (c.ring == 0 && t == 0) with
    | some w => armRefuse at_ 0x01 0 (4 * w) s
    | none =>
      if c.ring ≠ 0 ∧ cmdTenant c.cmd ≠ 0 then armRefuse at_ 0x02 0 0 s
      else match (if s.f (Reg.ARM2.TQUOTA t) 12 0 ≤ mine.length then none else s.freeId) with
        | none => armRefuse at_ 0x03 0 0 s
        | some id =>
          if s.f (Reg.ARM3.TMEM t) 31 16 * 16384 < poolBytes (have_ ++ need) ∧ poolBytes need ≠ 0 ∨
              s.f (Reg.ARM3.TMEM t) 15 0 * 1024 < engBytes (have_ ++ need) ∧ engBytes need ≠ 0 then armRefuse at_ 0x04 0 0 s
          else if (dTrigs d).any (fun i => !s.deliverable i t) then armRefuse at_ 0x05 0 0x20 s
          else if bitOf (dw d 10) 31 ∧ s.swOwner (bitsOf (dw d 10) 11 0) ≠ t then armRefuse at_ 0x06 0 0x28 s
          else if dJob d then submitJob t id d s else submitTask t id d s

/-! ## Moving work (R435, R437) -/

/-- The task that the Armature would move next from engine `e`: in ID order from a slow engine, largest first under R427. -/
def State.nextMove (s : State) (e : Nat) : Option (Nat × Task) :=
  if (s.tasksOn e).any (fun p => p.2.state == .migrating) then none
  else
    let slow := (s.tasksOn e).filter (fun p => p.2.floats && s.slowFor p.2.words e && (s.destOf p.2).isSome)
    match slow with
    | p :: _ => some p
    | [] =>
      if 62259 < sumUtil (s.loadOn e) ∧ (s.loadOn e).any dHard then (s.firmBySize e).find? (fun p => (s.destOf p.2).isSome) else none

/-- MIGRATION_START: the routes of the task are diverted (R437 step 1). -/
def migrationStart (e : Nat) (s : State) : State :=
  match s.nextMove e with
  | some (i, k) => s.setTask i { k with state := .migrating, held := 0, lost := false, from_ := e, since := s.now, waited := s.slotActive e k.slot }
  | none => s

/-- Copy one range to its new place, KiB by KiB; every word that reads cleanly is in place (R437 step 3, R439). -/
def copyMem (t : Nat) (a b : Nat) : Nat → State → Bool × State
  | 0, s => (true, s)
  | n + 1, s =>
    match s.memAt a, s.memAt b with
    | some (k, i, _), some (k', i', _) =>
      let r := (List.range 128).foldl (fun (x : Bool × State) j =>
        match memRead (armRq t 8) k i (a + 8 * j) 8 x.2 with
        | (some v, u) => (x.1, (memWrite (armRq t 8) k' i' (b + 8 * j) 8 v u).2)
        | (none, u) => (false, u)) (true, s)
      let q := copyMem t (a + 1024) (b + 1024) n r.2
      (r.1 && q.1, q.2)
    | _, _ => (false, s)

/-- MIGRATION_DONE: steps 2-6 of R437 for the migrating task of engine `e`, once its slot is not active. Where no engine qualifies any more the task goes on in its old place with the events held. -/
def migrationDone (e : Nat) (s : State) : State :=
  match (s.tasksOn e).find? (fun p => p.2.state == .migrating) with
  | none => s
  | some (i, k) =>
    if s.slotActive e k.slot then s.setTask i { k with waited := true }
    else
      let cnt := s.slotF e k.slot 27 24 + k.held
      let lost := k.lost || s.slotF e k.slot 29 29 == 1 || decide (15 < cnt)
      let cnt := satN 15 cnt
      match s.destOf k with
      | none =>
        let s := s.setTask i { k with state := .running, held := 0, lost := false }
        if k.held = 0 then s else slotEvent e k.slot k.held s
      | some (e', n, x, mems) =>
        let size := k.mems.foldl (fun a m => a + m.size) 0
        let s := s.moveTo ((if k.waited then s.now else k.since) + ceilDiv size 32 + 48 * mems.length + 64)
        let s := s.setSlotF e k.slot 31 31 0
        let cp := (k.mems.zip mems).foldl (fun (a : Bool × State) q =>
          let r := copyMem k.tenant q.1.pa q.2.pa (q.1.size / 1024) a.2
          (a.1 && r.1, r.2)) (true, mems.foldl (fun u m => m.wipe u) s)
        let s := fillContext e' x k.tenant cp.2
        let s := mems.foldl (fun u m => writeLeaves k.tenant m (armLeaf m (dRing k.words)) u) s
        let s := fillSlot e' n x k.words cnt lost s
        let k' := { k with unit := e', slot := n, ctx := x, mems := mems, held := 0, lost := false, migr := satN 65535 (k.migr + 1) }
        let s := s.setSlotW e k.slot 0 0#32
        let s := k.mems.foldl (fun u m => m.wipe u) s
        if cp.1 then
          let s := freeContext e k.ctx ((slotOn e' n s).setTask i { k' with state := .running })
          (armReport i 2 e e' ((s.now - k.since) / 16) s).setStatBit Reg.ARM1.page 1
        else
          let s := s.setSlotW e' n 0 (Nat.lor (s.slotW e' n 0).toNat 0x40000003 |> BitVec.ofNat 32)
          let s := freeContext e k.ctx (s.setTask i { k' with state := .failed, fcause := 3 })
          (armReport i 4 e e' 3 s).setStatBit Reg.ARM1.page 2

/-! ## What engines tell the Armature -/

/-- The engine task that holds slot `n` of engine `e`. -/
def State.taskAt (s : State) (e n : Nat) : Option (Nat × Task) :=
  if 96 ≤ e then none else (s.tasksOn e).find? (fun p => p.2.slot == n)

/-- A placed slot has failed (R439). -/
def armFailed (e n cause : Nat) (s : State) : State :=
  match s.taskAt e n with
  | none => s
  | some (i, k) =>
    if k.state = .withdrawing then s
    else (armReport i 4 e e cause (s.setTask i { k with state := .failed, fcause := cause })).setStatBit Reg.ARM1.page 2

/-- RETE of an activation released at edge `rel`: the judgement of R431. -/
def armJudge (e n rel : Nat) (s : State) : State :=
  match s.taskAt e n with
  | none => s
  | some (i, k) =>
    if (dHard k.words || dFirm k.words) ∧ rel + dDeadline k.words < s.now then
      let first := !k.missRep
      let s := s.setTask i { k with miss := satN 65535 (k.miss + 1), missRep := true }
      if first then armReport i 5 e e 0 s else s
    else s

/-- Event `id` with a tag reaches the task inputs of the engines that `at_` accepts (R62, R63, R432, R437, R439). -/
def armRoute (id : Nat) (tag : Option Nat) (at_ : Nat → Bool) (s : State) : State :=
  s.arm.tasks.foldl (fun u p =>
    let k := p.2
    let n := ((dTrigs k.words).filter (fun i => i == id)).length
    let hears : Bool := k.tenant == 0 || tag.isNone || tag == some k.tenant
    if dJob k.words || n == 0 || !at_ k.unit || !hears then u
    else match k.state with
      | .running => slotEvent k.unit k.slot n u
      | .migrating => u.setTask p.1 { k with held := satN 15 (k.held + n), lost := k.lost || decide (15 < k.held + n) }
      | _ => u) s

/-! ## Registers of ARM[1] -/

/-- A write of POOL[p] (R444). -/
def poolWrite (p v : Nat) (s : State) : State :=
  let b := bitsOf v 15 8 * 16384
  let e := b + bitsOf v 7 0 * 16384
  let out := s.arm.tasks.any (fun k => k.2.mems.any (fun m => m.kind == 3 && m.unit == p && (decide (m.off < b) || decide (e < m.off + m.size))))
  if out then s.capture Reg.ARM1.page 0x78 (0x60 + 4 * p) else s.swStore (Reg.ARM1.POOL p) (BitVec.ofNat 32 (v % 65536))

/-- ARM[1].STATUS as read (R444). -/
def State.armStatus (s : State) : Word := BitVec.ofNat 32 (b2n (!s.arm.queue.isEmpty) * 2 ^ 31 + s.arm.tasks.length)

/-- ENGLOAD[e] as read (R444). -/
def State.engLoad (s : State) (e : Nat) : Word :=
  let ctxs := ((List.range 7).filter (fun x => s.b (Reg.ENG.CTXCFG e x) 31)).length
  BitVec.ofNat 32 (b2n (s.engSlow e) * 2 ^ 31 + b2n (!(s.hardOn e).isEmpty) * 2 ^ 30 + (s.tasksOn e).length * 2 ^ 24 + ctxs * 2 ^ 20 + sumUtil (s.hardOn e) % 65536)

/-- REP0-REP2 as read: the head record (R445). -/
def State.repHead (s : State) : RepRec := s.arm.reports.headD ⟨0#32, 0#32, 0#32, 0#32⟩

end Sys2Proof.Machine
end

