-- ==== Sys2Proof/Machine/Tenants.lean ====
section
/-! DEFINITION. Tenants: the reference scan (R449, R451), device-wide episodes (R456-R459). -/

namespace Sys2Proof.Machine

/-! ## Device-wide episodes -/

/-- Edge 1 of an announcement: DWREC and SEQ (R457). -/
def dwSettle (s : State) : State :=
  match s.dwPend with
  | none => s
  | some d =>
    if s.now ≤ d.at_ then s
    else
      let s := s.setReg Reg.DEVICE.DWREC0 (BitVec.ofNat 32 (d.cause * 2 ^ 24 + (s.f Reg.DEVICE.DWREC0 15 0 + 1) % 65536))
      let s := s.setReg Reg.DEVICE.DWREC1 (BitVec.ofNat 32 (s.timeNs d.at_))
      let s := s.setReg Reg.DEVICE.DWREC2 (BitVec.ofNat 32 (s.timeSec d.at_))
      { s.setReg Reg.DEVICE.DWREC3 (BitVec.ofNat 32 (d.detail % 65536)) with dwPend := none }

/-- A cause is detected at this edge (R456, R457). -/
def dwCause (cause detail : Nat) (level : Bool) (s : State) : State :=
  let s := dwSettle s
  let bit := cause - 1
  if level ∧ s.b Reg.DEVICE.DWSTAT bit then s
  else
    let s := s.hwSet Reg.DEVICE.DWSTAT (BitVec.ofNat 32 (2 ^ (16 + bit)))
    let s := s.setF Reg.DEVICE.DWSTAT 31 31 1
    let s := if level then s.setF Reg.DEVICE.DWSTAT bit bit 1 else s
    let lv := if level then 2 ^ bit else 0
    match s.dwPend with
    | some d =>
      if cause < d.cause then { s with dwPend := some ⟨d.at_, cause, detail, Nat.lor d.levels lv⟩ }
      else { s with dwPend := some { d with levels := Nat.lor d.levels lv } }
    | none => ({ s with dwPend := some ⟨s.now, cause, detail, lv⟩ }).fly 0x7C0 (s.now + 6) .all none

/-- A level cause stops being active (R456). -/
def dwLevelEnd (cause : Nat) (s : State) : State := s.setF Reg.DEVICE.DWSTAT (cause - 1) (cause - 1) 0

/-- DW_END: a ring-0 write of DWEND.END (R458). A cause of the same edge begins a new episode. -/
def dwEnd (s : State) : State :=
  let s := dwSettle s
  let fresh := match s.dwPend with
    | some d => d.levels
    | none => 0
  if Nat.land (s.f Reg.DEVICE.DWSTAT 4 0) (31 - Nat.land fresh 31) ≠ 0 then s.capture Reg.DEVICE.page 0x7B 0x58
  else
    let s := if s.dwPend.isSome then s else s.setF Reg.DEVICE.DWSTAT 31 31 0
    let s := s.setF Reg.DEVICE.DWREC0 15 0 (s.f Reg.DEVICE.DWREC0 15 0 + 1)
    s.fly 0x7C1 (s.now + 5) .all none

/-! ## The reference scan (R451) -/

/-- Field `hi:lo` of some register of a list names `t`. -/
def State.someNames (s : State) (t hi lo : Nat) (l : List Nat) : Bool := l.any (fun a => s.f a hi lo == t)
/-- The same among the registers whose bit 31 is set. -/
def State.someValid (s : State) (t hi lo : Nat) (l : List Nat) : Bool := l.any (fun a => s.b a 31 && s.f a hi lo == t)

/-- Addresses `f i k` for `i < n`, `k < m`. -/
def addrs2 (n m : Nat) (f : Nat → Nat → Nat) : List Nat := (List.range n).flatMap (fun i => (List.range m).map (f i))

/-- The pages of kind assignable (R45, R46). -/
def assignablePages : List Nat :=
  addrs2 48 12 Reg.chanPage ++ (List.range 12).map Reg.MAQ.page ++ (List.range 2).map Reg.ETH.page ++ [Reg.GPIO.page]

/-- FOUND of CHECKRES for tenant `t` (R451). -/
def State.scanFound (s : State) (t : Nat) : Nat :=
  let line := s.someNames t 24 16 (addrs2 4 8 Reg.LINE.TSCTL) || s.someNames t 24 16 (addrs2 4 8 Reg.LINE.TSDEST) ||
    s.someNames t 20 12 (addrs2 4 32 Reg.LINE.RSCTL) || s.someNames t 20 12 (addrs2 4 32 Reg.LINE.RSNOTE) ||
    s.someNames t 28 20 (addrs2 4 8 Reg.LINE.MTCFG) || s.someNames t 28 20 (addrs2 4 8 Reg.LINE.MRCFG)
  let classes := [
    s.someNames t 8 0 (assignablePages.map (· + 4)),
    s.someValid t 8 0 ((List.range 128).map Reg.CALIPER2.TABOWN) || s.someValid t 8 0 ((List.range 48).map Reg.CALIPER2.GRANT),
    s.someNames t 8 0 ((List.range 64).map Reg.EVT.SWOWN),
    s.someValid t 8 0 (addrs2 96 8 Reg.ENG.CTXCFG),
    s.arm.tasks.any (fun p => p.2.tenant == t),
    s.b (Reg.MMU.ROOT t) 31,
    s.reg (Reg.ARM2.TQUOTA t) != 0#32 || s.reg (Reg.ARM3.TMEM t) != 0#32,
    s.f (Reg.FABRIC.SHARE t) 8 0 != 0 || s.someValid t 29 21 (addrs2 8 32 Reg.MBOX.CFG) || s.someValid t 20 12 (addrs2 8 32 Reg.MBOX.CFG) ||
      s.someValid t 8 0 (addrs2 4 256 Reg.DBELL.DBCFG) || s.someValid t 8 0 ((List.range 64).map Reg.LOCK.LOCKCFG),
    (List.range 64).any (fun i => s.b (Reg.LINEKEY.KCTL i) 31 && !s.b (Reg.LINEKEY.KCTL i) 30 && s.f (Reg.LINEKEY.KCTL i) 8 0 == t) || line,
    s.someValid t 8 0 (addrs2 96 11 Reg.PERF.OWN),
    s.f Reg.HSPI.CFG 8 0 == t || (s.b Reg.DEBUG.SESSION 31 && s.f Reg.DEBUG.SESSION 8 0 == t)]
  (classes.zip (List.range 11)).foldl (fun n p => n + b2n p.1 * 2 ^ p.2) 0

/-- A scan is issued: CHECK.GO, or a write that clears TCFG[t].VALID and waits with its value (R449, R451). -/
def scanIssue (t : Nat) (remove : Option Word) (s : State) : State :=
  { s.setF Reg.TENANT.CHECKRES 31 31 1 with scans := s.scans ++ [⟨t, s.now + 2048, remove⟩] }

/-- SCAN_DONE: the first scan completes (R449, R451). -/
def scanDone (s : State) : State :=
  match s.scans with
  | [] => s
  | c :: r =>
    let s := s.moveTo c.due
    let found := s.scanFound c.tenant
    let s := { s.setReg Reg.TENANT.CHECKRES (BitVec.ofNat 32 (b2n (!r.isEmpty) * 2 ^ 31 + found)) with scans := r }
    match c.remove with
    | none => s
    | some v =>
      if found = 0 then s.swStore (Reg.TENANT.TCFG c.tenant) v
      else s.capture Reg.TENANT.page 0x7A (0x400 + 4 * c.tenant)

/-- A write to a TENANT register; true where the page holds it until a scan ends (R449, R451, R462). -/
def tenantWrite (o v : Nat) (s : State) : Bool × State :=
  if o = 0x40 then
    let s := s.swStore Reg.TENANT.CHECK (BitVec.ofNat 32 (v % 512))
    (false, if bitOf v 31 then scanIssue (v % 512) none s else s)
  else if 0x400 ≤ o ∧ o < 0xC00 then
    let t := (o - 0x400) / 4
    let a := Reg.TENANT.TCFG t
    let new := Nat.land v 0xC0000001
    if t = 0 then (false, s.swStore a (BitVec.ofNat 32 (putBits new 31 31 1)))
    else if s.b a 31 ∧ !bitOf v 31 then (true, scanIssue t (some (BitVec.ofNat 32 new)) s)
    else (false, s.swStore a (BitVec.ofNat 32 new))
  else (false, s)

end Sys2Proof.Machine
end

