-- ==== Sys2Proof/Machine/Pedestal.lean ====
section
/-! DEFINITION. The Pedestal's voter (R494-R496, R500-R503), exchange (R497-R499) and rebuild (R505-R508). The comparator, which performs accesses, is in PedVote. -/

namespace Sys2Proof.Machine

def State.setPed (s : State) (p : PedSt) : State := { s with ped := p }
/-- Copy `k` is in the vote. -/
def State.inVote (s : State) (k : Nat) : Bool := s.b Reg.PEDESTAL.STATUS (16 + k)
/-- The copies in the vote, ascending. -/
def State.voters (s : State) : List Nat := (List.range 3).filter (fun k => s.inVote k)
def State.pedAct (s : State) (k : Nat) : Option Act := (s.core (96 + k)).cur
/-- Copy `k` is held in WAIT (R351). -/
def State.inWait (s : State) (k : Nat) : Bool := s.waitHeld (96 + k)

/-! ## The voted outputs (R500-R503) -/

/-- Some cause holds the voter in SAFE HOLD. -/
def State.holdCause (s : State) : Bool :=
  decide (s.voters.length < 2) || s.ped.stalled || s.b Reg.PEDESTAL.STATUS 28 || s.ped.broken.isSome || s.ped.fresh

/-- A word of latches, voted bit by bit (R500). -/
def vote3 (l : List Nat) : Nat :=
  match l with
  | [a, b, c] => Nat.lor (Nat.land a b) (Nat.lor (Nat.land a c) (Nat.land b c))
  | [a, b] => Nat.land a b
  | _ => 0
def State.voted (s : State) : Nat × Nat :=
  if s.b Reg.PEDESTAL.STATUS 31 then (0, 0)
  else (vote3 (s.voters.map (fun k => (s.copy k).req0.toNat)), vote3 (s.voters.map (fun k => (s.copy k).req1.toNat)))

/-- The outputs follow the vote: PSOUT one edge later, the slices and the SAFE pair's fall two edges later (R502, R503). -/
def pedOuts (s : State) : State :=
  let v := s.voted
  let o0 := (s.reg Reg.PEDESTAL.PSOUT0).toNat
  let o1 := (s.reg Reg.PEDESTAL.PSOUT1).toNat
  if v.1 = o0 ∧ v.2 = o1 then s
  else
    let s := s.moveTo (s.now + 1)
    let s := (s.setReg Reg.PEDESTAL.PSOUT0 (BitVec.ofNat 32 v.1)).setReg Reg.PEDESTAL.PSOUT1 (BitVec.ofNat 32 v.2)
    let s := if bitOf v.2 31 ∧ ¬bitOf o1 31 then s.setPed { s.ped with safeA := true, safeAt := some (s.now + 40000) } else s
    let s := s.moveTo (s.now + 1)
    let s := (List.range 48).foldl (fun t c =>
      let new := if c < 32 then bitOf v.1 c else bitOf v.2 (c - 32)
      let old := if c < 32 then bitOf o0 c else bitOf o1 (c - 32)
      if new = old then t else psenSet c new t) s
    if bitOf o1 31 ∧ ¬bitOf v.2 31 then s.setPed { s.ped with safeA := false, safeAt := none } else s

/-- Enter SAFE HOLD: the latches clear (R501). -/
def safeHold (s : State) : State :=
  let s := (List.range 3).foldl (fun t k => t.setCopy k { t.copy k with req0 := 0#32, req1 := 0#32 }) s
  let s := if s.b Reg.PEDESTAL.STATUS 31 then s else (s.setF Reg.PEDESTAL.STATUS 31 31 1).setStatBit Reg.PEDESTAL.page 1
  pedOuts s
/-- SAFE HOLD ends when its cause has gone (R501). -/
def holdCheck (s : State) : State :=
  if s.holdCause then s else pedOuts (s.setF Reg.PEDESTAL.STATUS 31 31 0)

/-- Copy `k` loads its own latch (R492, R500, R501). -/
def psreqWrite (k which v : Nat) (s : State) : State :=
  if s.voters.length < 2 ∨ s.ped.broken.isSome then s
  else
    let c := s.copy k
    let s := s.setCopy k (if which = 0 then { c with req0 := BitVec.ofNat 32 v } else { c with req1 := BitVec.ofNat 32 (Nat.land v 0x8000FFFF) })
    let some_ := vote3 (s.voters.map (fun j => (s.copy j).req0.toNat)) ≠ 0 ∨ vote3 (s.voters.map (fun j => (s.copy j).req1.toNat)) ≠ 0
    let s := if s.ped.fresh ∧ some_ then holdCheck (s.setPed { s.ped with fresh := false }) else s
    pedOuts s

/-- SAFE_TOGGLE (R503). -/
def safeToggle (s : State) : State :=
  match s.ped.safeAt with
  | none => s
  | some t =>
    let s := s.moveTo t
    s.setPed { s.ped with safeA := !s.ped.safeA, safeAt := some (t + 40000) }
/-- The levels of SAFEA and SAFEB (R503). -/
def State.safePair (s : State) : Bool × Bool :=
  match s.ped.safeAt with
  | none => (false, false)
  | some _ => (s.ped.safeA, !s.ped.safeA)

/-! ## Rebuild (R505) -/

/-- A copy as after reset. -/
def copyReset (k : Nat) (s : State) : State := (s.setCopy k { CopySt.idle with issued := (s.copy k).issued }).setCore (96 + k) Core.idle

/-- Start the rebuild of the lowest waiting copy, if none runs and a source exists. -/
def rebuildNext (s : State) : State :=
  match s.ped.rebuild, s.voters with
  | none, src :: _ =>
    match (List.range 3).find? (fun k => s.ped.waiting.contains k) with
    | none => (s.setF Reg.PEDESTAL.STATUS 29 29 0).setF Reg.PEDESTAL.STATUS 27 26 0
    | some k =>
      let s := copyReset k s
      let s := (s.setF Reg.PEDESTAL.STATUS 29 29 1).setF Reg.PEDESTAL.STATUS 27 26 k
      s.setPed { s.ped with rebuild := some ⟨k, src, 1, s.now + 128, none⟩, waiting := s.ped.waiting.filter (fun j => j != k) }
  | _, _ => s

/-- The Pedestal restarts (R506). -/
def pedRestart (s : State) : State :=
  let s := (s.setF Reg.PEDESTAL.STATUS 28 28 1).setStatBit Reg.PEDESTAL.page 3
  let s := (List.range 3).foldl (fun t k => copyReset k t) s
  let s := (s.setF Reg.PEDESTAL.STATUS 29 29 0).setF Reg.PEDESTAL.STATUS 27 26 0
  s.setPed { s.ped with queue := [], base := 0, batches := [], lastTarget := 0, rebuild := none, waiting := [], broken := none, stalled := false,
                        copies := s.ped.copies.map (fun c => { c with issued := 0 }), clearAt := some s.now, rom := true }

/-- The record of a departure (R494, R495); `k` = 3 stands for every copy. -/
def voteRecord (k cause : Nat) (s : State) : State :=
  let fr := s.takeFree 0x1704
  let ic := if k = 3 then fr.1 else (s.copy k).ic
  let s := if k = 3 then fr.2 else s
  let s := s.setReg Reg.PEDESTAL.LASTOUT (BitVec.ofNat 32 (cause * 2 ^ 28 + k * 2 ^ 24))
  let s := s.setReg Reg.PEDESTAL.LASTIC (BitVec.ofNat 32 ic)
  dwCause 4 (if k = 3 then 0xFF else k) false (s.setStatBit Reg.PEDESTAL.page 0)

/-- What follows a departure: SAFE HOLD, restart or rebuild (R500, R505, R506). -/
def voteAfter (gone : List Nat) (s : State) : State :=
  let s := if s.voters.length < 2 then safeHold s else pedOuts s
  let s := match s.ped.rebuild with
    | some r =>
      if gone.contains r.src then
        s.setPed { s.ped with rebuild := none, waiting := r.copy :: s.ped.waiting }
      else s
    | none => s
  if s.voters.isEmpty then pedRestart s
  else
    let again := gone.filter (fun k => s.b Reg.PEDESTAL.CTRL 31 && !s.b Reg.PEDESTAL.CTRL (16 + k))
    rebuildNext (s.setPed { s.ped with waiting := s.ped.waiting ++ again })

/-- Copy `k` leaves the vote (R494, R495). -/
def voteOut (k cause : Nat) (s : State) : State :=
  if s.inVote k then
    let s := s.setF Reg.PEDESTAL.STATUS (16 + k) (16 + k) 0
    let s := s.cntAdd Reg.PEDESTAL.OUTCNT (8 * k + 7) (8 * k) 1 true
    voteAfter [k] (voteRecord k cause s)
  else s
/-- No agreement is possible: every copy leaves (R494). -/
def voteAll (s : State) : State :=
  let l := s.voters
  let s := l.foldl (fun t k => (t.setF Reg.PEDESTAL.STATUS (16 + k) (16 + k) 0).cntAdd Reg.PEDESTAL.OUTCNT (8 * k + 7) (8 * k) 1 true) s
  voteAfter l (voteRecord 3 8 s)

/-- RESYNC.GO (R505, R511). -/
def resyncGo (v : Nat) (s : State) : State :=
  let k := bitsOf v 1 0
  if k = 3 ∨ (bitOf v 31 ∧ (s.inVote k ∨ s.b Reg.PEDESTAL.CTRL (16 + k))) then s.capture Reg.PEDESTAL.page 0x8A 0x6C
  else
    let s := s.swStore Reg.PEDESTAL.RESYNC (BitVec.ofNat 32 k)
    if bitOf v 31 then rebuildNext (s.setPed { s.ped with waiting := if s.ped.waiting.contains k ∨ s.ped.rebuild.any (fun r => r.copy == k) then s.ped.waiting else s.ped.waiting ++ [k] }) else s

/-- RESYNC_COPY: step 1 has ended and the copying begins. -/
def resyncCopy (s : State) : State :=
  match s.ped.rebuild with
  | some r =>
    if r.step = 1 then
      let s := s.moveTo r.due
      s.setPed { s.ped with rebuild := some { r with step := 2, due := r.due + 131072 } }
    else s
  | none => s

/-- The target count of the exchange (R497). -/
def State.fixTarget (s : State) : Nat :=
  let t := match s.voters.find? (fun k => s.inWait k) with
    | some k => (s.copy k).ic
    | none => s.voters.foldl (fun m k => max m (s.copy k).ic) 0 + s.f Reg.PEDESTAL.EXCFG 15 0
  max t s.ped.lastTarget

/-- The source's memory becomes the copy's, word by word (R505 step 2): the code words that are not CLEAN are read; false when one of them is uncorrectable. -/
def pedCopyMem (src k : Nat) (s : State) : Bool × State :=
  let a := 0xD0000000 + src * 0x80000
  let b := 0xD0000000 + k * 0x80000
  let bad := (s.synds.map (·.1)).filter (fun x => decide (a ≤ x) && decide (x < a + 0x80000))
  let r := bad.foldl (fun (t : Bool × State) x =>
    match wordRead ⟨0, 97 + src, 1⟩ .ped src x t.2 with
    | (some d, u) => (t.1, wordStore false 4 x d u)
    | (none, u) => (false, u)) (true, s)
  if r.1 then
    let s := memClear b (b + 0x80000) r.2
    (true, (s.mem.filter (fun m => decide (a ≤ m.1) && decide (m.1 < a + 0x80000))).foldl (fun t m => t.setByte (m.1 - a + b) m.2) s)
  else r

/-- RESYNC_FREEZE: the copying has ended and the freeze target is fixed; once every copy in the vote has committed bundle T, the state is copied for 1,024 CCLK. -/
def resyncFreeze (s : State) : State :=
  match s.ped.rebuild with
  | some r =>
    if r.step = 2 then
      let s := s.moveTo r.due
      match pedCopyMem r.src r.copy s with
      | (true, s) =>
        let t := s.fixTarget
        s.setPed { s.ped with rebuild := some { r with step := 3, target := some t }, lastTarget := t }
      | (false, s) => voteOut r.src 5 s
    else if r.step = 3 ∧ s.voters.all (fun k => r.target == some (s.copy k).ic) then
      s.setPed { s.ped with rebuild := some { r with step := 4, due := s.now + 1024 } }
    else s
  | none => s

/-- RESYNC_CHECK: the comparison, 16 CCLK after the freeze, and the return to the vote. -/
def resyncCheck (s : State) : State :=
  match s.ped.rebuild with
  | some r =>
    if r.step = 4 then
      let s := s.moveTo r.due
      let s := (s.setCopy r.copy (s.copy r.src)).setCore (96 + r.copy) { s.core (96 + r.src) with halted := none }
      let s := s.moveTo (s.now + 16)
      let same := s.voters.all (fun k => (s.copy k).sig == (s.copy r.copy).sig && (s.copy k).ic == (s.copy r.copy).ic)
      let s := (s.setPed { s.ped with rebuild := none })
      let s := (s.setF Reg.PEDESTAL.STATUS 29 29 0).setF Reg.PEDESTAL.STATUS 27 26 0
      if same then
        let s := (s.setF Reg.PEDESTAL.STATUS (16 + r.copy) (16 + r.copy) 1).setStatBit Reg.PEDESTAL.page 2
        let s := if s.ped.broken = some r.copy then (s.setPed { s.ped with broken := none }).setF Reg.PEDESTAL.STATUS 30 30 0 else s
        rebuildNext (if s.b Reg.PEDESTAL.STATUS 31 then holdCheck s else pedOuts s)
      else rebuildNext (voteRecord r.copy 7 (s.cntAdd Reg.PEDESTAL.OUTCNT (8 * r.copy + 7) (8 * r.copy) 1 true))
    else s
  | none => s

/-! ## The exchange (R497) -/

/-- Some slot of a copy in the vote waits for event `id`. -/
def State.pedWants (s : State) (id : Nat) : Bool :=
  s.voters.any (fun k => (List.range 16).any (fun n => s.slotF (96 + k) n 16 16 == 1 && s.slotF (96 + k) n 11 0 == id))
/-- An event reaches the Pedestal at this edge. -/
def pedEvent (id : Nat) (s : State) : State :=
  if s.pedWants id then
    let at_ := alignUp 2 s.now
    match s.ped.batches.reverse with
    | b :: r => if b.at_ = at_ ∧ b.target.isNone then s.setPed { s.ped with batches := (({ b with ids := b.ids ++ [id] }) :: r).reverse } else s.setPed { s.ped with batches := s.ped.batches ++ [⟨[id], at_, none, []⟩] }
    | [] => s.setPed { s.ped with batches := [⟨[id], at_, none, []⟩] }
  else s
/-- Replace the first element that satisfies `f`. -/
def updFirst {α : Type} (f : α → Bool) (g : α → α) : List α → List α
  | [] => []
  | a :: l => if f a then g a :: l else a :: updFirst f g l
/-- EXCHANGE_BATCH: the first batch without one gets its target. -/
def exchangeBatch (s : State) : State :=
  match s.ped.batches.find? (fun b => b.target.isNone) with
  | none => s
  | some b =>
    let s := s.moveTo (b.at_ + 4)
    let t := s.fixTarget
    s.setPed { s.ped with batches := updFirst (fun x => x.target.isNone) (fun x => { x with target := some t }) s.ped.batches, lastTarget := t }
/-- The batch copy `k` has to apply next. -/
def State.pedBatch (s : State) (k : Nat) : Option Batch := s.ped.batches.find? (fun b => b.target.isSome && !b.applied.contains k)
/-- BATCH_APPLY: copy `k` applies the batch after bundle T. -/
def batchApply (k : Nat) (s : State) : State :=
  match s.pedBatch k with
  | none => s
  | some b =>
    if s.inVote k ∧ b.target = some (s.copy k).ic then
      let s := b.ids.foldl (fun t id => (List.range 16).foldl (fun u n =>
        if u.slotF (96 + k) n 16 16 = 1 ∧ u.slotF (96 + k) n 11 0 = id then slotEvent (96 + k) n 1 u else u) t) s
      let s := s.setPed { s.ped with batches := updFirst (fun x => x.target.isSome && !x.applied.contains k) (fun x => { x with applied := k :: x.applied }) s.ped.batches }
      s.setPed { s.ped with batches := s.ped.batches.filter (fun x => !(x.target.isSome && s.voters.all (fun j => x.applied.contains j))) }
    else s
/-- Copy `k` must hold its next bundle: a batch or a freeze at its count, the lead of R498, no memory yet, or halted in the boot ROM. -/
def State.pedHolds (s : State) (k : Nat) : Bool :=
  let ic := (s.copy k).ic
  let atT := fun (t : Option Nat) => t.any (fun x => decide (x ≤ ic))
  (s.inVote k && ((s.pedBatch k).any (fun b => atT b.target) || s.ped.rebuild.any (fun r => atT r.target) ||
    s.voters.any (fun j => decide ((s.copy j).ic + s.f Reg.PEDESTAL.EXCFG 31 16 ≤ ic)))) || s.ped.rom || s.ped.rebuild.any (fun r => r.copy == k)

/-! ## Timeouts and debug -/

/-- CHECKPOINT_TIMEOUT (R496). -/
def checkpointTimeout (s : State) : State :=
  let us := s.f Reg.PEDESTAL.CKTO 15 0
  if us ≠ 0 ∧ ¬s.voters.isEmpty ∧ ¬s.ped.stalled ∧ ¬s.ped.rom then
    let s := s.moveTo (s.ped.ckptAt + us * 800)
    safeHold ((s.setPed { s.ped with stalled := true }).setStatBit Reg.PEDESTAL.page 5)
  else s

/-- LAG_TIMEOUT (R494): the first performed access that a copy in the vote has not issued. -/
def lagTimeout (s : State) : State :=
  let late := fun (i : Nat) => s.voters.find? (fun k => decide ((s.copy k).issued ≤ s.ped.base + i))
  match (List.range s.ped.queue.length).find? (fun i => ((lget ⟨[], none⟩ s.ped.queue i).done).isSome && (late i).isSome) with
  | none => s
  | some i =>
    match (lget ⟨[], none⟩ s.ped.queue i).done, late i with
    | some (_, _, t), some k => voteOut k 3 (s.moveTo (t + 2 * s.f Reg.PEDESTAL.CMPTO 15 0))
    | _, _ => s

/-- The debug port halts, steps or writes copy `k` (R508). -/
def pedBreak (k : Nat) (s : State) : State :=
  let s := voteOut k 6 s
  let s := s.setPed { s.ped with broken := some k }
  let s := (s.setF Reg.PEDESTAL.STATUS 30 30 1).setStatBit Reg.PEDESTAL.page 4
  safeHold s

/-- An uncorrectable error on copy `k`'s own memory (R494). -/
def pedEcc (k : Nat) (s : State) : State := voteOut k 5 s

/-- A checkpoint was performed (R496, R501, R506). -/
def checkpointDone (tag : Option Nat) (s : State) : State :=
  let s := s.setPed { s.ped with ckptAt := s.now, stalled := false }
  let s := s.setF Reg.PEDESTAL.STATUS 28 28 0
  let s := match tag with
    | some v => s.setReg Reg.PEDESTAL.CKPT (BitVec.ofNat 32 v)
    | none => s
  if s.b Reg.PEDESTAL.STATUS 31 then holdCheck s else s

/-- A write to a block register of PEDESTAL by a requester that is not a copy writing its own registers (R509, R511). -/
def pedWrite (o v : Nat) (s : State) : State :=
  let pg := Reg.PEDESTAL.page
  let st := s.swStore (pg + o) (BitVec.ofNat 32 v)
  if o = 0x48 ∨ o = 0x4C ∨ (0x100 ≤ o ∧ o < 0x200) then s.capture pg 0x88 o
  else if o = 0x40 then (if 1 < popcount 3 (bitsOf v 18 16) then s.capture pg 0x8B o else st)
  else if o = 0x5C then (if v < 1024 then s.capture pg 0x89 o else st)
  else if o = 0x60 then (if bitsOf v 15 0 = 0 then s.capture pg 0x89 o else st)
  else if o = 0x68 then (if bitsOf v 31 16 = 0 ∨ bitsOf v 15 0 = 0 then s.capture pg 0x89 o else st)
  else if o = 0x6C then resyncGo v s
  else if o = 0x58 then s
  else st

/-- A copy writes register `k` of its slot `n` (R499, R511). -/
def pedSlotWrite (copy n k v : Nat) (s : State) : State :=
  let e := 96 + copy
  if k = 1 then s.setSlotW e n 1 (BitVec.ofNat 32 (Nat.land v 0xFFFFFFFC))
  else if k = 2 then s.setSlotW e n 2 (BitVec.ofNat 32 v)
  else if k = 3 then s.setSlotW e n 3 (BitVec.ofNat 32 (Nat.land v 0xFFFFFFF0))
  else
    let old := (s.slotW e n 0).toNat
    let kept := Nat.land old 0x6000F000
    let kept := kept - Nat.land kept (Nat.land v 0x60000000)
    let s := s.setSlotW e n 0 (BitVec.ofNat 32 (Nat.land v 0x8FFD0FFF + kept))
    if bitsOf old 27 24 = 0 ∧ bitsOf v 27 24 ≠ 0 then
      s.setCore e { s.core e with arrived := (n, s.now) :: (s.core e).arrived.filter (fun p => p.1 != n) }
    else s

/-- Word of the PEDESTAL page as read by a requester that is not a copy (R499, R511). -/
def State.pedReg (s : State) (o : Nat) : Option Word :=
  if 0x80 ≤ o ∧ o < 0x98 then
    let ic := (s.copy ((o - 0x80) / 8)).ic
    some (BitVec.ofNat 32 (if o % 8 = 0 then ic % 2 ^ 32 else ic / 2 ^ 32 % 65536))
  else
    let k := s.voters.headD 0
    if o = 0x48 then some (s.copy k).req0
    else if o = 0x4C then some (s.copy k).req1
    else if 0x100 ≤ o ∧ o < 0x200 then
      let n := (o - 0x100) / 16
      let r := o % 16 / 4
      let w := s.slotW (96 + k) n r
      some (if r = 0 then BitVec.ofNat 32 (putBits w.toNat 28 28 (b2n (s.slotActive (96 + k) n))) else w)
    else none
/-- The same for copy `k` reading its own registers (R499). -/
def State.pedOwnReg (s : State) (k o : Nat) : Option Word :=
  if o = 0x48 then some (s.copy k).req0
  else if o = 0x4C then some (s.copy k).req1
  else if 0x100 ≤ o ∧ o < 0x200 then
    let n := (o - 0x100) / 16
    let r := o % 16 / 4
    let w := s.slotW (96 + k) n r
    some (if r = 0 then BitVec.ofNat 32 (putBits w.toNat 28 28 (b2n (s.slotActive (96 + k) n))) else w)
  else none

end Sys2Proof.Machine
end

