-- ==== Sys2Proof/Machine/Comparators.lean ====
section
/-! DEFINITION. The comparators: latches, counts and routing (R122-R127), settling (R120), thresholds and ramps (R128-R130), CFG writes (R131-R135). -/

namespace Sys2Proof.Machine

def State.cmp (s : State) (c : Nat) : CmpSt := (s.ch c).cmp
def State.setCmp (s : State) (c : Nat) (p : CmpSt) : State := s.setCh c { s.ch c with cmp := p }

/-- CFG[n] of the comparators. -/
def State.cmpCfg (s : State) (c n : Nat) : Nat := (s.reg (Reg.CMP.CFG c n)).toNat

/-- Comparator `n` runs (R116). -/
def State.cmpRuns (s : State) (c n : Nat) : Bool := bitOf (s.cmpCfg c n) 0 && !s.off (Reg.CMP.page c)

/-- STATUS.WATCHOK (R135). -/
def State.watchOk (s : State) (c : Nat) : Bool := s.b (Reg.CMP.STATUS c) 31

/-- Remember RAW and WATCHOK before a change, for reads of the next 2 CCLK (R122, R135). -/
def cmpRemember (c : Nat) (s : State) : State :=
  let k := s.cmp c
  s.setCmp c { k with hist := (k.hist.filter (fun h => decide (s.now < h.1 + 2))) ++ [(s.now, (s.reg (Reg.CMP.RAW c)).toNat, s.watchOk c)] }

/-- RAW and WATCHOK as they stood 2 CCLK ago (R122, R135). -/
def State.cmpSeen (s : State) (c : Nat) : Nat × Bool :=
  match (s.cmp c).hist.filter (fun h => decide (s.now < h.1 + 2)) with
  | [] => ((s.reg (Reg.CMP.RAW c)).toNat, s.watchOk c)
  | h :: _ => h.2

/-- Settle time of a SPEED in CCLK (R119). -/
def settleTime (speed : Nat) : Nat :=
  match speed with
  | 0 => 80
  | 1 => 320
  | 2 => 6400
  | _ => 128000

/-- LEGEND is in effect (R125). -/
def State.legEndOn (s : State) (c n : Nat) : Bool :=
  decide (n < 3) && bitOf (s.cmpCfg c n) 10 && s.mode c == 2 && s.legOn c n && s.legMode c n == 2

/-- The direction of comparator `n` is routed to a trip or a leg end (R126, R127). -/
def State.cmpRouted (s : State) (c n : Nat) (upper : Bool) : Bool :=
  if upper then bitOf (s.cmpCfg c n) 8 || s.legEndOn c n else bitOf (s.cmpCfg c n) 9

/-- Latch bits that went from 0 to 1 raise CMP_WIN or SHOCK (R126). -/
def cmpLatched (c : Nat) (bits : Nat) (s : State) : State :=
  (List.range 10).foldl (fun t i =>
    if bitOf bits i then
      let n := i % 5
      if n = 4 then t.chanEvent c 27
      else if t.cmpRouted c n (decide (i < 5)) then t else t.chanEvent c 28
    else t) s

/-- The latch and the events of one 0-to-1 transition (R123, R126). -/
def cmpLatch (c n : Nat) (upper : Bool) (s : State) : State :=
  let i := if upper then n else 5 + n
  let was := s.b (Reg.CMP.page c + 0xC) i
  let s := s.setStatBit (Reg.CMP.page c) i
  if was then s else cmpLatched c (2 ^ i) s

/-- COMPARATOR_CROSSING: a synchronised output goes from 0 to 1 (R120, R122-R127). -/
def cmpRise (c n : Nat) (upper : Bool) (s : State) : State :=
  let i := if upper then n else 5 + n
  if s.cmpRuns c n ∧ ¬s.b (Reg.CMP.STATUS c) (16 + n) ∧ ¬s.b (Reg.CMP.RAW c) i then
    let s := cmpRemember c s
    let s := s.setF (Reg.CMP.RAW c) i i 1
    let s := if upper then s.cntAdd (Reg.CMP.CROSS c n) 15 0 1 true else s.cntAdd (Reg.CMP.CROSS c n) 31 16 1 true
    cmpLegEnd c n (tripJudge c false (cmpLatch c n upper s))
  else s

/-- SYNC_OUTPUT_FALL: a synchronised output goes from 1 to 0 (R122, R124). -/
def cmpFall (c n : Nat) (upper : Bool) (s : State) : State :=
  let i := if upper then n else 5 + n
  if s.b (Reg.CMP.RAW c) i then tripJudge c false ((cmpRemember c s).setF (Reg.CMP.RAW c) i i 0) else s

/-- Both outputs of comparator `n` are held at 0 (R116, R120). -/
def cmpSilence (c n : Nat) (s : State) : State :=
  if s.b (Reg.CMP.RAW c) n ∨ s.b (Reg.CMP.RAW c) (5 + n) then
    ((cmpRemember c s).setF (Reg.CMP.RAW c) n n 0).setF (Reg.CMP.RAW c) (5 + n) (5 + n) 0
  else s

/-- Comparator `n` starts to settle (R120). -/
def cmpSettle (c n : Nat) (s : State) : State :=
  let s := cmpSilence c n s
  let k := s.cmp c
  let s := s.setCmp c { k with settle := lput k.settle n (some (s.now + settleTime (bitsOf (s.cmpCfg c n) 5 4))) }
  s.setF (Reg.CMP.STATUS c) (16 + n) (16 + n) 1

/-- Comparator `n` neither runs nor settles. -/
def cmpStopOne (c n : Nat) (s : State) : State :=
  let s := cmpSilence c n s
  let k := s.cmp c
  (s.setCmp c { k with settle := lput k.settle n none }).setF (Reg.CMP.STATUS c) (16 + n) (16 + n) 0

/-- SETTLE_END (R120). -/
def cmpSettleEnd (c n : Nat) (s : State) : State :=
  match lget none (s.cmp c).settle n with
  | none => s
  | some t =>
    let s := s.moveTo t
    let k := s.cmp c
    (s.setCmp c { k with settle := lput k.settle n none }).setF (Reg.CMP.STATUS c) (16 + n) (16 + n) 0

/-- The DACs take THR[n] at the next ACLK edge (R128). -/
def cmpTake (c n : Nat) (s : State) : State :=
  let k := s.cmp c
  s.setCmp c { k with dac := lput k.dac n (s.f (Reg.CMP.THR c n) 9 0, s.f (Reg.CMP.THR c n) 25 16, nextEdge 8 s.now) }

/-- The ramp of comparator `n` may run (R129). -/
def State.rampOn (s : State) (c n : Nat) : Bool := bitOf (s.cmpCfg c n) 11 && s.mode c == 2 && s.legOn c n

/-- The HI level of comparator `n` now: the ramp accumulator's upper bits, or the DAC's level (R128, R129). -/
def State.hiLevel (s : State) (c n : Nat) : Nat :=
  match lget none (s.cmp c).ramp n with
  | some r => (r.start * 4096 - (s.now / 8 - r.from_ / 8) * r.slope) / 4096
  | none => (lget (0, 0, 0) (s.cmp c).dac n).2.1

/-- Ramps that may no longer run stop, and their HI DAC takes THR (R129). -/
def rampCheck (c : Nat) (s : State) : State :=
  [0, 1, 2].foldl (fun t n =>
    if (lget none (t.cmp c).ramp n).isSome && !t.rampOn c n then
      cmpTake c n (t.setCmp c { t.cmp c with ramp := lput (t.cmp c).ramp n none })
    else t) s

/-- Error code of a CFG[n] write, if it is refused (R132, R133). -/
def State.cmpCfgRefused (s : State) (c n v : Nat) : Option Nat :=
  let o := s.cmpCfg c n
  let blind := bitsOf o 5 4 ≠ bitsOf v 5 4 ∨ bitsOf o 19 15 ≠ bitsOf v 19 15 ∨ (bitOf o 0 ∧ ¬bitOf v 0)
  let routed := bitsOf o 9 8 ≠ 0 ∨ bitsOf v 9 8 ≠ 0
  if s.outCond c ∧ routed ∧ blind then some 0x1A
  else if n = 4 ∧ ¬bitOf o 23 ∧ bitOf v 23 ∧ ¬s.watchOk c then some 0x1B
  else if n = 4 ∧ bitOf v 23 ∧ bitsOf v 5 4 ≠ 3 then some 0x1C
  else none

/-- CMP_CFG_WRITE: the whole word `v` written to CFG[n] (R120, R131, R132). `v` holds writable bits only. -/
def cmpCfgWrite (c n v : Nat) (s : State) : State :=
  match s.cmpCfgRefused c n v with
  | some code => s.capture (Reg.CMP.page c) code (0x40 + 4 * n)
  | none =>
    let o := s.cmpCfg c n
    let s := s.setReg (Reg.CMP.CFG c n) (BitVec.ofNat 32 v)
    let s := s.setF (Reg.CMP.STATUS c) n n (b2n (bitsOf v 19 15 != 0))
    let settle := (!bitOf o 0 && bitOf v 0) || (bitOf v 0 && (bitsOf o 5 4 != bitsOf v 5 4 || bitsOf o 19 15 != bitsOf v 19 15))
    let s := if !bitOf v 0 then cmpStopOne c n s else if settle then cmpSettle c n s else s
    cmpLegEnd c n (tripJudge c false (rampCheck c s))

/-- THRESHOLD_WRITE: the whole word `v` written to THR[n] (R128). -/
def cmpThrWrite (c n v : Nat) (s : State) : State := cmpTake c n (s.setReg (Reg.CMP.THR c n) (BitVec.ofNat 32 v))

/-- The monitor of VAON changes state on every channel (R135). -/
def cmpWatchOk (v : Bool) (s : State) : State :=
  (List.range 48).foldl (fun t c => if t.watchOk c == v then t else (cmpRemember c t).setF (Reg.CMP.STATUS c) 31 31 (b2n v)) s

end Sys2Proof.Machine
end

