-- ==== Sys2Proof/Machine/BlockMem.lean ====
section
/-! DEFINITION. Memory accesses of the line ports, the Ethernet ports, the host and the boot flash: reads and writes of bytes at a physical address (R44, R393-R395, R406). -/

namespace Sys2Proof.Machine

/-- The answer to a block's read. -/
inductive MemAns where
  | val (v : Nat)
  /-- The LPDDR4 region is not filled yet (R406). -/
  | wait
  /-- Uncorrectable (R395). -/
  | bad
  /-- No memory there (R44). -/
  | absent
deriving DecidableEq, Repr

/-- `n` bytes at `pa` lie in one instance of a memory. -/
def State.memSpan (s : State) (pa n : Nat) : Option (MemKind × Nat) :=
  match s.memAt pa with
  | none => none
  | some (k, i, b) => if pa + n ≤ b + s.memSize k then some (k, i) else none

/-- The first byte of a span whose LPDDR4 region is not filled (R406). -/
def State.unfilled (s : State) (pa n : Nat) : Option Nat :=
  if s.dramFilled (dramRegion pa) then
    if n ≠ 0 ∧ ¬s.dramFilled (dramRegion (pa + n - 1)) then some (pa + n - 1) else none
  else some pa

/-- A block reads `n` bytes. -/
def blkRead (rq : MemRq) (pa n : Nat) (s : State) : MemAns × State :=
  match s.memSpan pa n with
  | none => (.absent, s)
  | some (k, i) =>
    match (if k = .dram then s.unfilled pa n else none) with
    | some a => (.wait, dramWait a s)
    | none =>
      match memRead rq k i pa n s with
      | (some v, s) => (.val v, s)
      | (none, s) => (.bad, s)

/-- A block writes `n` bytes: `val` when every byte was written. -/
def blkWrite (rq : MemRq) (pa n v : Nat) (s : State) : MemAns × State :=
  match s.memSpan pa n with
  | none => (.absent, s)
  | some (k, i) =>
    if k = .rom then (.absent, s)
    else
      match (if k = .dram then s.unfilled pa n else none) with
      | some a => (.wait, dramWait a s)
      | none =>
        match memWrite rq k i pa n v s with
        | (true, s) => (.val v, s)
        | (false, s) => (.bad, s)

end Sys2Proof.Machine
end

