-- ==== Sys2Proof/Machine/Position.lean ====
section
/-! DEFINITION. The position unit (R137-R158) and the serial absolute interface (R159-R167). -/

namespace Sys2Proof.Machine

def State.pos (s : State) (c : Nat) : PosSt := (s.ch c).pos
def State.setPos (s : State) (c : Nat) (p : PosSt) : State := s.setCh c { s.ch c with pos := p }
def State.ssi (s : State) (c : Nat) : SsiSt := (s.ch c).ssi
def State.setSsi (s : State) (c : Nat) (p : SsiSt) : State := s.setCh c { s.ch c with ssi := p }

/-- CFG.MODE: 0 INCREMENTAL, 1 SERIAL, 2 COMBINED (R137). -/
def State.posMode (s : State) (c : Nat) : Nat := s.f (Reg.POS.CFG c) 1 0
/-- A count of 0 stands for 2^32 (R146). -/
def countMod (w : Nat) : Nat := if w = 0 then 2 ^ 32 else w
def State.wrap (s : State) (c : Nat) : Nat := countMod (s.reg (Reg.POS.WRAP c)).toNat
def State.mcount (s : State) (c : Nat) : Nat := countMod (s.reg (Reg.POS.MCOUNT c)).toNat
def State.posDir (s : State) (c : Nat) : Bool := s.b (Reg.POS.CFG c) 3
/-- POSITION as a number. -/
def State.position (s : State) (c : Nat) : Nat := (s.reg (Reg.POS.POSITION c)).toNat
/-- An integer negated when DIR is 1 (R146). -/
def dirInt (d : Bool) (i : Int) : Int := if d then -i else i

/-- The next hold edge: the grid of R138, at or after the 2,000th ACLK edge after EN went to 1. -/
def State.nextHold (s : State) (c : Nat) : Option Nat :=
  let p := s.pos c
  match p.lastHold with
  | some h => some (h + 400)
  | none => p.enAt.map (fun e =>
      let t := nextEdge 8 e + 1999 * 8
      let g := s.rel + 8 * s.f (Reg.POS.CFG c) 29 24
      if t ≤ g then g - (g - t) / 400 * 400 else g + (t - g + 399) / 400 * 400)

/-- POSITION_HOLD: both converters hold SIN and COS (signed codes) and Q is latched (R138, R139). -/
def posHold (c : Nat) (sin cos : Int) (s : State) : State :=
  if s.runs (Reg.POS.page c) ∧ s.posMode c ≠ 1 then
    match s.nextHold c with
    | none => s
    | some t =>
      let s := s.moveTo t
      let p := s.pos c
      s.setPos c { p with lastHold := some t, held := some ⟨t, satS 12 sin, satS 12 cos, p.q⟩ }
  else s

/-- QUADRANT_STEP: the filtered detectors now show quadrant `k` (R143). -/
def posQuad (c k : Nat) (s : State) : State :=
  let p := s.pos c
  let k := k % 4
  if s.runs (Reg.POS.page c) ∧ s.posMode c ≠ 1 then
    let d := (k + 4 - p.quad) % 4
    let q := if d = 1 then p.q + 1 else if d = 3 then p.q - 1 else p.q
    let s := (s.setPos c { p with quad := k, q := q }).setReg (Reg.POS.QCOUNT c) (BitVec.ofNat 32 (ux 32 q))
    if d = 2 then s.setStatBit (Reg.POS.page c) 2 else s
  else s.setPos c { p with quad := k }

/-- F of R142: the exactly rounded fraction of a line period, or a value at most 1 step from it (log 7). -/
def posFrac (sn cs : Int) : Nat :=
  ux 12 (rnd (atan2Turn sn cs) 60 + clampI (-1) 1 (Config.dev 0x142 sn cs))

/-- The corrected values s and c (R141). -/
def State.posCorr (s : State) (c : Nat) (h : PosHold) : Int × Int :=
  let k := s.reg (Reg.POS.CORR c)
  (h.sin - sx 8 (bitsOf k.toNat 15 8), divRound ((h.cos - sx 8 (bitsOf k.toNat 7 0)) * (bitsOf k.toNat 31 16 : Nat)) 16384)

/-- One sample judged and merged (R141-R145): m >> 8, whether the amplitude is out of the window, whether Q and F disagree by two, the incremental count. -/
def State.posMerge (s : State) (c : Nat) (h : PosHold) : Nat × Bool × Bool × Int :=
  let v := s.posCorr c h
  let amp := ((v.1 * v.1 + v.2 * v.2).toNat) / 256
  let out := s.f (Reg.POS.CFG c) 11 4 != 0 && (decide (amp < s.f (Reg.POS.AMPWIN c) 15 0) || decide (s.f (Reg.POS.AMPWIN c) 31 16 < amp))
  let f := posFrac v.1 v.2
  let k := (((f / 1024 : Nat) : Int) - h.q) % 4
  if out then (amp, true, false, h.q * 1024 + 512)
  else if k = 2 then (amp, false, true, h.q * 1024 + 512)
  else (amp, false, false, (if k = 1 then h.q + 1 else if k = 3 then h.q - 1 else h.q) * 1024 + (f % 1024 : Nat))

/-- The compare of R154-R156 for a change `dp` from `prev`. -/
def posCompare (c : Nat) (prev : Nat) (dp : Int) (s : State) : State :=
  let ctl := Reg.POS.CMPCTL c
  let en := bitOf ((s.log.sw.lookup ctl).getD (s.reg ctl)).toNat 0
  if en then
    let w : Int := s.wrap c
    let cv := Reg.POS.CMPVAL c
    let t : Int := ((s.log.sw.lookup cv).getD (s.reg cv)).toNat
    let st := sx 32 (s.reg (Reg.POS.CMPSTEP c)).toNat
    let d := (t - (prev : Nat)) % w
    let hit := if 0 ≤ st then decide (1 ≤ d) && decide (d ≤ dp)
               else (decide (1 ≤ w - d) && decide (w - d ≤ -dp)) || (decide (d = 0) && decide (dp < 0))
    if hit then
      let s := s.chanEvent c 22
      if st = 0 then s.hwUpd ctl 0 0 0
      else
        let e := if 0 ≤ st then d else if d = 0 then 0 else w - d
        let n := 1 + ((dp.natAbs : Int) - e) / (st.natAbs : Int)
        let s := s.hwUpd cv 31 0 (ux 32 ((t + n * st) % w))
        if 1 < n then (s.cntAdd ctl 31 16 (n - 1).toNat true).setStatBit (Reg.POS.page c) 4 else s
    else s
  else s

/-- What one update would give without presets: new POSITION, REV, MOTANG, the change, and whether the COMBINED load set them. -/
structure PosNew where
  pos : Nat
  rev : Nat
  mot : Nat
  dp : Int
  loaded : Bool
deriving DecidableEq, Repr

/-- One update edge: presets and homing (R150, R152, R153), outputs, angle to the Chisel (R147), compare (R154). `hold` is the edge the values describe. -/
def posApply (c : Nat) (n : PosNew) (hold : Nat) (s : State) : State :=
  let p := s.pos c
  let prev := s.position c
  let due : Option Nat → Bool := fun o => match o with
    | some e => decide (e < s.now)
    | none => false
  let load := due p.load
  let mload := due p.mload
  let home := if load then none else p.homing
  let mot := s.b (Reg.POS.ZCTL c) 2
  let pos := if load then (s.reg (Reg.POS.POSSET c)).toNat % s.wrap c
    else match home with
      | some (z, _) => (((s.reg (Reg.POS.ZSET c)).toNat + n.pos : Int) - (z : Nat)) % (s.wrap c : Nat) |>.toNat
      | none => n.pos
  let rev := if load then s.f (Reg.POS.LOADCTL c) 31 16 else if home.isSome then 0 else n.rev
  let mang := if mload then (s.reg (Reg.POS.MOTSET c)).toNat % s.mcount c
    else match home with
      | some (_, z) => if mot then ((((s.reg (Reg.POS.MOTSET c)).toNat + n.mot : Int) - (z : Nat)) % (s.mcount c : Nat)).toNat else n.mot
      | none => n.mot
  let s := s.setReg (Reg.POS.POSITION c) (BitVec.ofNat 32 pos)
  let s := s.setF (Reg.POS.REV c) 15 0 rev
  let s := s.setReg (Reg.POS.MOTANG c) (BitVec.ofNat 32 mang)
  let s := if home.isSome then s.hwUpd (Reg.POS.ZCTL c) 0 0 0 else s
  let seat := load || home.isSome || n.loaded
  let out : PosOut := ⟨s.now, prev, pos, n.dp, seat, match p.outs with
    | [] => 0
    | o :: _ => o.at_⟩
  let s := s.setPos c { s.pos c with
    load := if load then none else p.load, mload := if mload then none else p.mload, homing := none,
    angle := mang * 65536 / s.mcount c, angleHold := hold, outs := if seat || n.dp != 0 then out :: p.outs.take 1 else p.outs }
  if seat then s else posCompare c prev n.dp s

/-- POSITION and REV moved by `di` (R146). -/
def State.posMoved (s : State) (c : Nat) (di : Int) : Nat × Nat :=
  let w : Int := s.wrap c
  let t : Int := (s.position c : Nat) + di
  let r : Int := (s.f (Reg.POS.REV c) 15 0 : Nat)
  ((t % w).toNat, ux 16 (if w ≤ t then r + 1 else if t < 0 then r - 1 else r))

/-- X of R166: the value nearest `cv` that agrees with `r` modulo 4,096, the lower on a tie. -/
def nearestLine (cv r : Int) : Int :=
  let d := (cv - r) % 4096
  if d ≤ 2048 then cv - d else cv - d + 4096

/-- The position sample nearest a latch edge, the earlier on a tie (R166). -/
def nearerRef (latch : Nat) (a : Option PosRec) (b : PosRec) : Option PosRec :=
  match a with
  | none => some b
  | some r => if ((b.hold : Int) - latch).natAbs < ((r.hold : Int) - latch).natAbs then some b else some r

/-- The COMBINED load or check at an update edge (R166, R167): the outputs of this update. -/
def posCombined (c : Nat) (i : Int) (n : PosNew) (s : State) : State × PosNew :=
  match (s.pos c).absWord with
  | none => (s, n)
  | some a =>
    if a.at_ < s.now then
      let s := s.setPos c { s.pos c with absWord := none }
      match a.ref with
      | none => (s, n)
      | some r =>
      if r.usable then
        let m : Int := s.mcount c
        let x := nearestLine a.c (dirInt (s.posDir c) r.count % 4096) % m
        if s.b (Reg.POS.REV c) 31 then
          ((if x = (r.motang : Nat) then s else s.setStatBit (Reg.POS.page c) 6), n)
        else
          let v := ((x + dirInt (s.posDir c) (i - r.count)) % m).toNat
          let s := (s.setF (Reg.POS.REV c) 31 31 1).setStatBit (Reg.POS.page c) 5
          (s, { n with mot := v, pos := v % s.wrap c, rev := if s.f (Reg.SSI.FIELD c) 20 16 = 0 then 0 else a.mt, loaded := true })
      else (s, n)
    else (s, n)

/-- SPEED from the counts of the samples since enable (R149). -/
def State.posSpeed (s : State) (c : Nat) (hist : List Int) : Int :=
  let k := s.f (Reg.POS.CFG c) 15 12
  let n := 2 ^ k
  if hist.length ≤ n then 0
  else dirInt (s.posDir c) (asr ((lget 0 hist 0 - lget 0 hist n) * 65536) k)

/-- POSITION_UPDATE: 30 ACLK after the hold edge everything the sample gives changes (R139-R149). -/
def posUpdate (c : Nat) (s : State) : State :=
  if s.runs (Reg.POS.page c) then
    match (s.pos c).held with
    | none => s
    | some h =>
      let s := s.moveTo (h.hold + 240)
      let pg := Reg.POS.page c
      let m := s.posMerge c h
      let i := m.2.2.2
      let s := s.setReg (Reg.POS.SAMPLE c) (BitVec.ofNat 32 (ux 12 h.sin * 65536 + ux 12 h.cos))
      let s := s.setF (Reg.POS.AMPNOW c) 15 0 m.1
      let s := if m.2.2.1 then s.setStatBit pg 2 else s
      let run := if m.2.1 then (s.pos c).ampRun + 1 else 0
      let s := if m.2.1 ∧ run = s.f (Reg.POS.CFG c) 11 4 then (s.setStatBit pg 1).chanEvent c 29 else s
      let p := s.pos c
      let di := match p.hist with
        | [] => 0
        | a :: _ => dirInt (s.posDir c) (i - a)
      let hist := (i :: p.hist).take 1025
      let sp := s.posSpeed c hist
      let mv := s.posMoved c di
      let mang := (((s.reg (Reg.POS.MOTANG c)).toNat + di) % (s.mcount c : Nat)).toNat
      let s := s.setReg (Reg.POS.SPEED c) (BitVec.ofNat 32 (ux 32 sp))
      let s := if 53687091 < sp.natAbs then s.setStatBit pg 3 else s
      let rec_ : PosRec := ⟨h.hold, i, !m.2.1 && !m.2.2.1, mang⟩
      let s := s.setPos c { p with held := none, ampRun := run, hist := hist }
      let s := match (s.pos c).absWord with
        | none => s
        | some a => s.setPos c { s.pos c with absWord := some { a with ref := nearerRef a.latch a.ref rec_ } }
      let s := match (s.ssi c).latch with
        | none => s
        | some l => s.setSsi c { s.ssi c with ref := nearerRef l (s.ssi c).ref rec_ }
      let r := posCombined c i ⟨mv.1, mv.2, mang, di, false⟩ s
      let s := posApply c r.2 h.hold r.1
      s.setPos c { s.pos c with last := some { rec_ with motang := (s.reg (Reg.POS.MOTANG c)).toNat } }
  else s

/-- POS_ZMK: a synchronised zero-mark edge; `rising` is its direction (R151, R152). -/
def posZmk (c : Nat) (rising : Bool) (s : State) : State :=
  let s := s.setPin c 3 rising
  if s.runs (Reg.POS.page c) ∧ rising ≠ s.b (Reg.POS.ZCTL c) 1 then
    let z := s.position c
    let s := s.setReg (Reg.POS.ZLATCH c) (BitVec.ofNat 32 z)
    let p := s.pos c
    let s := if s.b (Reg.POS.ZCTL c) 0 ∧ p.homing.isNone then s.setPos c { p with homing := some (z, (s.reg (Reg.POS.MOTANG c)).toNat) } else s
    (s.setStatBit (Reg.POS.page c) 0).chanEvent c 23
  else s

/-- A write of 1 to LOAD or MLOAD (R150). -/
def posLoad (c : Nat) (s : State) : State := s.setPos c { s.pos c with load := some s.now }
def posMload (c : Nat) (s : State) : State := s.setPos c { s.pos c with mload := some s.now }

/-- Error code of a write to a POS register under R169, if it is refused. `o` is the offset. -/
def State.posRefused (s : State) (c o v : Nat) : Option Nat :=
  let st := sx 32 v
  if o = 0x40 then (if bitsOf v 1 0 = 3 ∨ 49 < bitsOf v 29 24 ∨ 10 < bitsOf v 15 12 then some 0x20 else none)
  else if o = 0x4C ∨ o = 0x50 then (if 1 ≤ v ∧ v ≤ 4095 then some 0x21 else none)
  else if o = 0x70 ∨ o = 0x84 ∨ o = 0x8C then (if v < s.wrap c then none else some 0x22)
  else if o = 0x74 then (if st.natAbs < s.wrap c then none else some 0x22)
  else if o = 0x88 then (if v < s.mcount c then none else some 0x22)
  else none

/-- Bits of a 64-bit word of `n` bits, most significant first. -/
def wordBits (n w : Nat) : List Bool := (List.range n).map (fun k => bitOf w (n - 1 - k))

/-- The CRC of R161. -/
def ssiCrc (l poly init : Nat) (bits : List Bool) : Nat :=
  bits.foldl (fun r b =>
    let fb := b != bitOf r (l - 1)
    let t := (r * 2) % 2 ^ l
    if fb then Nat.xor t (poly % 2 ^ l) else t) (init % 2 ^ l)

/-- The class of a completed word: 1 OK, 2 CRCERR, 3 ERRBIT (R161, R162). -/
def State.ssiClass (s : State) (c word : Nat) : Nat :=
  let k := (s.reg (Reg.SSI.CRC c)).toNat
  let len := s.f (Reg.SSI.FRAME c) 14 8
  let l := bitsOf k 4 0
  let crc := ssiCrc l (bitsOf k 31 16) (s.f (Reg.SSI.CRCINIT c) 15 0) ((wordBits len word).take (len - l))
  let rx := Nat.xor (word % 2 ^ l) (if bitOf k 5 then 2 ^ l - 1 else 0)
  if l ≠ 0 ∧ rx ≠ crc then 2
  else if bitOf k 15 ∧ bitOf word (bitsOf k 13 8) = bitOf k 14 then 3
  else 1

/-- A transaction starts at this edge (R160, R163). -/
def ssiStart (c : Nat) (s : State) : State :=
  let d := s.f (Reg.SSI.CLK c) 11 0
  let latch := s.now + s.f (Reg.SSI.FRAME c) 3 0 * 2 * d
  let s := s.setSsi c { s.ssi c with latch := some latch, recovUntil := none, pend := false, ref := (s.pos c).last }
  (s.setF (Reg.SSI.RESULT c) 31 31 1).setF (Reg.SSI.RESULT c) 30 30 0

/-- A trigger of the serial interface, from an event, software or COMBINED enable (R163). -/
def ssiTrigger (c : Nat) (s : State) : State :=
  let x := s.ssi c
  if !s.runs (Reg.SSI.page c) || x.trigAt == some s.now then s
  else
    let s := s.setSsi c { x with trigAt := some s.now }
    if !s.b (Reg.SSI.RESULT c) 31 then ssiStart c s
    else if x.pend then (s.cntAdd (Reg.SSI.DROP c) 31 0 1 false).setStatBit (Reg.SSI.page c) 3
    else (s.setSsi c { s.ssi c with pend := true }).setF (Reg.SSI.RESULT c) 30 30 1

/-- The serial position of an OK word and its effect in SERIAL mode (R149, R165). -/
def ssiSerial (c latch : Nat) (s : State) : State :=
  let v := (s.reg (Reg.SSI.ABS c)).toNat * 2 ^ s.f (Reg.SSI.FIELD c) 27 24
  let w := s.wrap c
  let pn := v % w
  let x := s.ssi c
  let diff := fun (p : Nat) => (((pn : Int) - p + (w / 2 : Nat)) % (w : Nat)) - (w / 2 : Nat)
  let dp := match x.prev with
    | some (p, _) => diff p
    | none => 0
  let sp := match x.prev with
    | some (_, l) => let n := (divRound ((latch : Int) - l) 400).toNat; divRound (dp * 65536) ((if n = 0 then 1 else n : Nat) : Int)
    | none => 0
  let rev := if s.f (Reg.SSI.FIELD c) 20 16 ≠ 0 then s.f (Reg.SSI.MT c) 15 0 else (s.posMoved c dp).2
  let s := s.setReg (Reg.POS.SPEED c) (BitVec.ofNat 32 (ux 32 sp))
  let s := s.setSsi c { x with prev := some (pn, latch) }
  posApply c ⟨pn, rev, v % s.mcount c, dp, false⟩ latch s

/-- SSI_WORD: a word `w` whose start bit was sampled at falling edge `k` (1, 2, …) after the latch edge (R160-R162, R165, R166). -/
def ssiWord (c : Nat) (w : DWord) (k : Nat) (s : State) : State :=
  match (s.ssi c).latch with
  | none => s
  | some latch =>
    let d := s.f (Reg.SSI.CLK c) 11 0
    let dl := s.f (Reg.SSI.CLK c) 25 16
    let len := s.f (Reg.SSI.FRAME c) 14 8
    if k = 0 ∨ (s.f (Reg.SSI.FRAME c) 31 24 + 1) * 800 < k * (2 * d) + dl then s
    else
      let last := (k + len) * (2 * d) + dl
      let s := s.moveTo (latch + last + 4)
      let pg := Reg.SSI.page c
      let word := w.toNat % 2 ^ len
      let cl := s.ssiClass c word
      let s := (s.setReg (Reg.SSI.WORD_LO c) (BitVec.ofNat 32 word)).setReg (Reg.SSI.WORD_HI c) (BitVec.ofNat 32 (word / 2 ^ 32))
      let s := s.setF (Reg.SSI.RESULT c) 2 0 cl
      let fin := latch + ((last / d + 1) / 2 * 2 + 1) * d
      let s := s.setSsi c { s.ssi c with latch := none, recovUntil := some (fin + s.f (Reg.SSI.FRAME c) 23 16 * 800) }
      let s :=
        if cl = 2 then (s.cntAdd (Reg.SSI.CRCCNT c) 31 0 1 false).setStatBit pg 0
        else if cl = 3 then s.setStatBit pg 1
        else
          let f := (s.reg (Reg.SSI.FIELD c)).toNat
          let lsb := bitsOf f 5 0
          let pl := bitsOf f 13 8
          let mt := word / 2 ^ (lsb + pl) % 2 ^ bitsOf f 20 16
          let s := (s.setReg (Reg.SSI.ABS c) (BitVec.ofNat 32 (word / 2 ^ lsb % 2 ^ pl))).setReg (Reg.SSI.MT c) (BitVec.ofNat 32 mt)
          let sh := bitsOf f 27 24
          if s.runs (Reg.POS.page c) then
            if s.posMode c = 1 then ssiSerial c latch s
            else if s.posMode c = 2 then
              let cv := (s.reg (Reg.SSI.ABS c)).toNat * 2 ^ sh + (if sh = 0 then 0 else 2 ^ (sh - 1))
              s.setPos c { s.pos c with absWord := some ⟨cv, mt, s.now, latch, (s.ssi c).ref⟩ }
            else s
          else s
      s.chanEvent c 24

/-- SSI_TIMEOUT (R160). -/
def ssiTimeout (c : Nat) (s : State) : State :=
  match (s.ssi c).latch with
  | none => s
  | some latch =>
    let s := s.moveTo (latch + (s.f (Reg.SSI.FRAME c) 31 24 + 1) * 800)
    let s := s.setF (Reg.SSI.RESULT c) 2 0 4
    let s := s.setSsi c { s.ssi c with latch := none, recovUntil := some (s.now + s.f (Reg.SSI.FRAME c) 23 16 * 800) }
    ((s.cntAdd (Reg.SSI.TOUTCNT c) 31 0 1 false).setStatBit (Reg.SSI.page c) 2).chanEvent c 24

/-- SSI_RECOVERY_END: a pended trigger starts the next transaction (R163). -/
def ssiRecovered (c : Nat) (s : State) : State :=
  match (s.ssi c).recovUntil with
  | none => s
  | some t =>
    let s := s.moveTo t
    let pend := (s.ssi c).pend
    let s := (s.setSsi c { s.ssi c with recovUntil := none }).setF (Reg.SSI.RESULT c) 31 31 0
    if pend then ssiStart c s else s

/-- The register whose fields refuse EN under R164, by offset. -/
def State.ssiInvalid (s : State) (c : Nat) : Option Nat :=
  let d := s.f (Reg.SSI.CLK c) 11 0
  let fr := (s.reg (Reg.SSI.FRAME c)).toNat
  let k := (s.reg (Reg.SSI.CRC c)).toNat
  let f := (s.reg (Reg.SSI.FIELD c)).toNat
  let len := bitsOf fr 14 8
  if d < 25 ∨ 4000 < d then some 0x40
  else if len < 1 ∨ 64 < len ∨ 8 < bitsOf fr 3 0 then some 0x44
  else if 16 < bitsOf k 4 0 ∨ len ≤ bitsOf k 4 0 ∨ (bitOf k 15 ∧ len ≤ bitsOf k 13 8) then some 0x48
  else if bitsOf f 13 8 < 1 ∨ 32 < bitsOf f 13 8 ∨ len < bitsOf f 5 0 + bitsOf f 13 8 + bitsOf f 20 16 ∨ 16 < bitsOf f 20 16 ∨ 10 < bitsOf f 27 24 then some 0x50
  else none

/-- SSI EN cleared: the transaction is aborted at once (R159). -/
def ssiStop (c : Nat) (s : State) : State :=
  let s := s.setSsi c { s.ssi c with latch := none, recovUntil := none, pend := false }
  s.setF (Reg.SSI.RESULT c) 31 30 0

/-- POS EN goes to 1 (R138, R143, R146, R149, R163, R166). -/
def posStart (c : Nat) (s : State) : State :=
  let p := s.pos c
  let serial := s.posMode c == 1
  let s := s.setPos c { p with
    enAt := some s.now, held := none, lastHold := none, hist := [], ampRun := 0, homing := none, absWord := none, last := none,
    q := if serial then p.q else p.quad }
  let s := if serial then s else s.setReg (Reg.POS.QCOUNT c) (BitVec.ofNat 32 p.quad)
  let s := s.setReg (Reg.POS.SPEED c) 0#32
  let s := s.setSsi c { s.ssi c with prev := none, ref := none }
  if s.posMode c = 2 then
    ssiTrigger c ((s.setF (Reg.POS.REV c) 31 31 0).setF (Reg.POS.page c + 0xC) 5 5 0)
  else s

/-- POS EN goes to 0: sampling stops (R137, R149). -/
def posStop (c : Nat) (s : State) : State :=
  s.setPos c { s.pos c with enAt := none, held := none, lastHold := none, hist := [], absWord := none }

end Sys2Proof.Machine
end

