-- ==== Sys2Proof/Machine/CalTable.lean ====
section
/-! DEFINITION. The Caliper's event table: entries (R234, R235, R238, R239), judgement (R236, R237), actions (R240, R241). -/

namespace Sys2Proof.Machine

def entCtl (n : Nat) : Nat := Reg.CALTAB.CTL (n / 256) (n % 256)
def entTarget (n : Nat) : Nat := Reg.CALTAB.TARGET (n / 256) (n % 256)
def entStep (n : Nat) : Nat := Reg.CALTAB.STEP (n / 256) (n % 256)
def State.ent (s : State) (n : Nat) : EntSt := tget (fun _ => EntSt.idle) s.cal.ents n
def State.setEnt (s : State) (n : Nat) (e : EntSt) : State := { s with cal := { s.cal with ents := tput (fun _ => EntSt.idle) s.cal.ents n e } }
def State.entEn (s : State) (n : Nat) : Bool := s.b (entCtl n) 31
def State.entSrc (s : State) (n : Nat) : Nat := s.f (entCtl n) 22 16
def State.entBack (s : State) (n : Nat) : Bool := s.b (entCtl n) 29

/-- The entry a CALTAB register belongs to. -/
def entOf (a : Nat) : Option Nat :=
  if Reg.CALTAB.page 0 ≤ a ∧ a < Reg.CALTAB.page 16 then
    let o := a % 4096
    if 0x40 ≤ o ∧ o < 0x40 + 12 * 256 then some ((a - Reg.CALTAB.page 0) / 4096 * 256 + (o - 0x40) / 12) else none
  else none

/-- Every enabled entry. -/
def State.entries (s : State) : List Nat :=
  s.regs.filterMap (fun r => match entOf r.1 with
    | some n => if r.1 = entCtl n ∧ bitOf r.2.toNat 31 then some n else none
    | none => none)

/-- The tenant of an entry's block; T0 while the block is not assigned (R234). -/
def State.entOwner (s : State) (n : Nat) : Nat :=
  let o := Reg.CALIPER2.TABOWN (n / 32)
  if s.b o 31 then s.f o 8 0 else 0

/-- An access to entry `n` is allowed (R234). -/
def State.entOk (s : State) (rq : Rq) (n : Nat) : Bool :=
  rq.ring == 0 || (s.b (Reg.CALIPER2.TABOWN (n / 32)) 31 && s.f (Reg.CALIPER2.TABOWN (n / 32)) 8 0 == rq.tenant)

/-- Channel `c` is usable as a source by tenant `t` (R235). -/
def State.srcOk (s : State) (c t : Nat) : Bool :=
  s.chOwner c == t || (s.b (Reg.CALIPER2.GRANT c) 31 && s.f (Reg.CALIPER2.GRANT c) 8 0 == t)

/-- The wrap of source `src` (R224). -/
def State.srcWrap (s : State) (src : Nat) : Nat :=
  if src < 48 then s.wrap src else if src < 64 then s.angWrap (src - 48) else 4000000000

/-- The entry would be refused with these three words (R235). -/
def State.entRefused (s : State) (n ctl target step : Nat) : Bool :=
  let t := s.entOwner n
  let src := bitsOf ctl 22 16
  let w := s.srcWrap src
  bitOf ctl 31 &&
    (decide (64 < src) || (decide (src < 48) && !s.srcOk src t)
     || (!bitOf ctl 30 && decide (235 < bitsOf ctl 7 0))
     || (bitOf ctl 30 && (decide (3 < bitsOf ctl 7 0) || decide (47 < bitsOf ctl 13 8) || s.chOwner (bitsOf ctl 13 8) != t))
     || (src == 64 && bitOf ctl 29)
     || (decide (src < 64) && (decide (w ≤ target) || decide (w ≤ step)))
     || (src == 64 && (decide (1000000000 ≤ bitsOf target 29 0) || decide (4000000000 ≤ step))))

/-- A value in stamp format as the linear time of R226. -/
def stampLinear (w : Nat) : Nat := w / 2 ^ 30 * 1000000000 + w % 2 ^ 30
/-- The inverse of `stampLinear`. -/
def linearStamp (v : Nat) : Nat := v / 1000000000 * 2 ^ 30 + v % 1000000000

/-- The source's value in the entry's units at the current edge (R224, R226); a position as the Caliper has received it (R158). -/
def State.srcValue (s : State) (src : Nat) : Nat :=
  if src < 48 then
    match (s.pos src).outs with
    | o :: _ => if s.now < o.at_ + 5 then o.prev else o.new
    | [] => s.position src
  else if src < 64 then s.angle (src - 48) s.now
  else (s.nsAt (s.now / 8 * 8) % 4000000000).toNat

/-- TARGET in the source's linear units. -/
def State.entTarg (s : State) (n : Nat) : Nat :=
  let t := (s.reg (entTarget n)).toNat
  if s.entSrc n = 64 then stampLinear t else t

/-- Seat entry `n` at the source's value now (R238). -/
def entSeat (n : Nat) (s : State) : State :=
  s.setEnt n ⟨s.now, s.srcValue (s.entSrc n) == s.entTarg n⟩

/-- Reseat every enabled entry on source `src` (R238, R246). -/
def reseat (src : Nat) (s : State) : State :=
  s.entries.foldl (fun t n => if t.entSrc n = src then entSeat n t else t) s

/-- One judged update (R236): the edge of judgement, the raise edge, the arrival edge, |Δ| and the distance e to the target. -/
structure Hit where
  judge : Nat
  raise : Nat
  arrive : Nat
  delta : Nat
  dist : Nat
  /-- The edge up to which the source is judged after this. -/
  upTo : Nat
deriving DecidableEq, Repr

/-- R236 and R240 for one position update `o` and entry `n`. -/
def State.hitPos (s : State) (n : Nat) (o : PosOut) : Option Hit :=
  let e := s.ent n
  let w : Int := s.wrap (s.entSrc n)
  let t : Int := s.entTarg n
  if o.reseat ∨ o.at_ + 5 ≤ e.from_ then none
  else
    let d := (t - (o.prev : Nat)) % w
    let r := (o.at_ + 6 + 3 + 7) / 8 * 8 - 3
    if s.entBack n then
      let seated := e.eq && decide (o.lastMove + 5 ≤ e.from_)
      if (1 ≤ w - d ∧ w - d ≤ -o.dp) ∨ (d = 0 ∧ o.dp < 0 ∧ !seated) then
        some ⟨o.at_ + 6, r, r + 3, o.dp.natAbs, (if d = 0 then 0 else w - d).toNat, o.at_ + 5⟩
      else none
    else if 1 ≤ d ∧ d ≤ o.dp then some ⟨o.at_ + 6, r, r + 3, o.dp.natAbs, d.toNat, o.at_ + 5⟩
    else none

/-- Drop the first `n` edges of a list of runs. -/
def runDrop : List (Nat × Int) → Nat → List (Nat × Int)
  | [], _ => []
  | (m, i) :: r, n => if n < m then (m - n, i) :: r else runDrop r (n - m)

/-- The first edge of the runs at which a value `v` (2^-16 counts, modulo `w` counts) hits the target `t` (R236): edges from the start, |Δ| and distance e in counts. -/
def runHit (w t : Nat) (back eq : Bool) : List (Nat × Int) → Nat → Nat → Option (Nat × Nat × Nat)
  | [], _, _ => none
  | (m, i) :: r, v, k =>
    let f := v % 65536
    let x := v / 65536
    let next := fun _ : Unit => runHit w t back eq r ((((v : Int) + i * m) % ((w : Int) * 65536)).toNat) (k + m)
    if 0 < i ∧ back = false then
      let d0 := (t + w - x % w) % w
      let d := if d0 = 0 then w else d0
      let q := ceilDiv (d * 65536 - f) i.toNat
      if q ≤ m then
        let a := (f + (q - 1) * i.toNat) / 65536
        some (k + q, (f + q * i.toNat) / 65536 - a, d - a)
      else next ()
    else if i < 0 ∧ back = true then
      let j := i.natAbs
      let d0 := (x + w - t % w) % w
      let d := if d0 = 0 ∧ eq = true then w else d0
      let q := (f + (d - 1) * 65536) / j + 1
      if q ≤ m then
        let down := fun (n : Nat) => (65535 - f + n * j) / 65536
        some (k + q, down q - down (q - 1), d - down (q - 1))
      else next ()
    else next ()

/-- R236 and R240 for a line angle. -/
def State.hitAngle (s : State) (n : Nat) : Option Hit :=
  let k := s.entSrc n - 48
  let e := s.ent n
  let a := s.ang k
  let j0 := a.at_ / 8
  let start := max (e.from_ / 8) j0
  let v := s.ang16 k (start * 8)
  (runHit (s.angWrap k) (s.entTarg n) (s.entBack n) e.eq (runDrop (s.angRuns k) (start - j0)) v 0).map
    (fun h => let t := (start + h.1) * 8; ⟨t - 3, t - 3, t, h.2.1, h.2.2, t⟩)

/-- R236 and R240 for device time. -/
def State.hitTime (s : State) (n : Nat) : Option Hit :=
  let e := s.ent n
  let start := max (e.from_ / 8 * 8) (s.time.at_ / 8 * 8)
  let l := if start < s.time.at_ then s.nsAt s.time.at_ else s.nsAt start
  let d0 := ((s.entTarg n : Int) - l) % 4000000000
  let d := if d0 = 0 then 4000000000 else d0
  let j := firstAt (fun j => s.timeAt (j * 8)) ((l + d) * nsUnit) 34 (start / 8 + 1)
  let p := max l (s.nsAt ((j - 1) * 8))
  some ⟨j * 8 - 3, j * 8 - 3, j * 8, (s.nsAt (j * 8) - p).toNat, (l + d - p).toNat, j * 8⟩

/-- The next hit of enabled entry `n`. -/
def State.nextHit (s : State) (n : Nat) : Option Hit :=
  let src := s.entSrc n
  if src < 48 then (s.pos src).outs.reverse.findSome? (fun o => s.hitPos n o)
  else if src < 64 then s.hitAngle n
  else if src = 64 then s.hitTime n
  else none

/-- TARGET, MISS and EN after a hit (R237); a write of the same edge stands (R239). -/
def entAdvance (n : Nat) (h : Hit) (s : State) : State :=
  let st := (s.reg (entStep n)).toNat
  if st = 0 then s.hwUpd (entCtl n) 31 31 0
  else
    let k := 1 + (h.delta - h.dist) / st
    let w := s.srcWrap (s.entSrc n)
    let t := s.entTarg n
    let v := if s.entBack n then (((t : Int) - (k * st : Nat)) % (w : Int)).toNat else (t + k * st) % w
    let s := s.hwUpd (entTarget n) 31 0 (if s.entSrc n = 64 then linearStamp v else v)
    if 1 < k then s.hwSet (entCtl n) 0x10000000#32 else s

/-- The action of a hit (R241). -/
def entAct (n : Nat) (h : Hit) (s : State) : State :=
  let ctl := (s.reg (entCtl n)).toNat
  if bitOf ctl 30 then
    let c := bitsOf ctl 13 8
    let v := s.reg (Reg.CALIPER3.REFVAL (4 * c + bitsOf ctl 7 0))
    let s := s.moveTo h.arrive
    if s.b (Reg.CHISEL.CFG c) 18 ∧ ¬s.off (Reg.CHISEL.page c) then
      let last := tget (fun _ => (0, 0)) s.cal.refs c
      if last.1 = h.arrive ∧ n < last.2 then s
      else { s.swStore (Reg.CHISEL.REF c) v with cal := { s.cal with refs := tput (fun _ => (0, 0)) s.cal.refs c (h.arrive, n) } }
    else s
  else
    let f : Flight := ⟨0x600 + bitsOf ctl 7 0, h.arrive, .all, some (s.entOwner n)⟩
    if s.flight.contains f then s else { s with flight := s.flight ++ [f] }

/-- CALIPER_HIT of entry `n` (R236-R241). -/
def calHit (n : Nat) (s : State) : State :=
  if s.entEn n then
    match s.nextHit n with
    | none => s
    | some h =>
      let s := s.moveTo h.judge
      let s := s.setEnt n ⟨h.upTo, false⟩
      let act := entAct n h
      act (entAdvance n h s)
  else s

/-- Entry registers of block `b` return to reset (R234). -/
def tabReset (b : Nat) (s : State) : State :=
  (List.range 32).foldl (fun t k =>
    let n := 32 * b + k
    (((t.setReg (entCtl n) 0#32).setReg (entTarget n) 0#32).setReg (entStep n) 0#32).setEnt n EntSt.idle) s

/-- Entries no longer permitted for channel `c` are disabled and marked LOST (R239). -/
def calLost (c : Nat) (s : State) : State :=
  s.entries.foldl (fun t n =>
    let o := t.entOwner n
    let ctl := (t.reg (entCtl n)).toNat
    if (bitsOf ctl 22 16 = c ∧ !t.srcOk c o) ∨ (bitOf ctl 30 ∧ bitsOf ctl 13 8 = c ∧ t.chOwner c ≠ o) then
      (t.setF (entCtl n) 31 31 0).hwSet (entCtl n) 0x08000000#32
    else t) s

/-- SECOND_BOUNDARY (R243, R245, R246). -/
def calSecond (s : State) : State × Bool :=
  let r := timeSecond s
  (if r.2 then reseat 64 r.1 else r.1, r.2)

/-- A slot of the line for angle `k` at this ACLK edge; a jump reseats its entries (R229, R238). -/
def calSlot (k a : Nat) (r t : Int) (s : State) : State :=
  let x := angSlot k a r t s
  if x.2 then reseat (48 + k) x.1 else x.1

/-- The boundary of CALIPER[1] at this edge (R231). -/
def calBoundary (s : State) : State := angChange (fun t => t.boundary Reg.CALIPER1.page) s

/-- CALIPER_BOUNDARY: TIME_NS reaches a multiple of 250,000 (R231). The caller knows that no line cycle runs. -/
def calQuarter (s : State) : State :=
  let s := s.moveTo s.quarterEdge
  let s := s.setTime { s.time with slot := s.time.slot + 1 }
  calBoundary s

end Sys2Proof.Machine
end

