-- ==== Sys2Proof/Machine/Line.lean ====
section
/-! DEFINITION. One line port on one segment (chapter 18): frames and keys (R516-R525), the cycle (R526-R530), slots (R531-R533), message channels (R536-R538), bridges (R539), stamps and offsets (R540-R542), angle records (R544, R545), the register checks of R551 and R552. -/

namespace Sys2Proof.Machine

def State.setLine (s : State) (l : LineSt) : State := { s with line := l }
def State.port (s : State) (p : Nat) : LinePort := tget (fun _ => LinePort.idle) s.line.ports p
def State.setPort (s : State) (p : Nat) (x : LinePort) : State := s.setLine { s.line with ports := tput (fun _ => LinePort.idle) s.line.ports p x }

/-! ## Frames (R516-R519) -/

def Frm.typ (f : Frm) : Nat := bitsOf f.h0 31 28
def Frm.ksel (f : Frm) : Nat := bitsOf f.h0 27 27
def Frm.ack (f : Frm) : Bool := bitOf f.h0 26
def Frm.bc (f : Frm) : Bool := bitOf f.h0 25
def Frm.ddev (f : Frm) : Nat := bitsOf f.h0 23 12
def Frm.sdev (f : Frm) : Nat := bitsOf f.h0 11 0
def Frm.dten (f : Frm) : Nat := bitsOf f.h1 31 23
def Frm.sten (f : Frm) : Nat := bitsOf f.h1 22 14
def Frm.hop (f : Frm) : Nat := bitsOf f.h1 13 12
def Frm.kgen (f : Frm) : Nat := bitsOf f.h1 10 10
def Frm.len (f : Frm) : Nat := bitsOf f.h1 9 0
def Frm.seq (f : Frm) : Nat := f.h2

def Frm.head (f : Frm) : List Nat := leBytes f.h0 4 ++ leBytes f.h1 4 ++ leBytes f.h2 4
/-- The body as sent, with its CRC (R517, R519). -/
def Frm.body (f : Frm) : List Nat :=
  let b := f.head ++ f.pay ++ f.tag
  b ++ leBytes (crc32 b) 4
/-- A body of at least 24 bytes as a frame (R517). -/
def parseFrm (b : List Nat) : Frm :=
  { h0 := leNat (b.take 4), h1 := leNat ((b.drop 4).take 4), h2 := leNat ((b.drop 8).take 4),
    pay := (b.drop 12).take (b.length - 24), tag := (b.drop (b.length - 12)).take 8 }
/-- TAG: the leftmost 64 bits of the CMAC over header and payload with HOP 0 (R519). -/
def frmTag (key : List Nat) (h0 h1 h2 : Nat) (pay : List Nat) : List Nat :=
  (aesCmac key (leBytes h0 4 ++ leBytes (putBits h1 13 12 0) 4 ++ leBytes h2 4 ++ pay)).take 8
def Frm.tagOk (key : List Nat) (f : Frm) : Bool := frmTag key f.h0 f.h1 f.h2 f.pay == f.tag

/-! ## Keys (R521) -/

def State.devNum (s : State) : Nat := s.f Reg.LINEKEY.DEVID 11 0
def State.lineKey (s : State) (i : Nat) : List Nat := tget (fun _ => List.replicate 16 0) s.line.keys i
/-- Entry `i` is valid and belongs to the owner that KSEL and STEN name. -/
def State.keyOwned (s : State) (ksel sten i : Nat) : Bool :=
  s.b (Reg.LINEKEY.KCTL i) 31 && (if ksel = 0 then s.b (Reg.LINEKEY.KCTL i) 30 else !s.b (Reg.LINEKEY.KCTL i) 30 && s.f (Reg.LINEKEY.KCTL i) 8 0 == sten)
def State.rxKey (s : State) (ksel sten gen : Nat) : Option Nat :=
  (List.range 64).find? (fun i => s.keyOwned ksel sten i && s.f (Reg.LINEKEY.KCTL i) 29 29 == gen)
def State.txKey (s : State) (ksel sten : Nat) : Option Nat :=
  (List.range 64).find? (fun i => s.keyOwned ksel sten i && s.b (Reg.LINEKEY.KCTL i) 28)

/-- What a frame of this device says, before SEQ, GEN and TAG. -/
structure FrmSpec where
  typ : Nat
  ksel : Nat
  ack : Bool
  bc : Bool
  ddev : Nat
  dten : Nat
  sten : Nat
  hop : Nat
  pay : List Nat
deriving DecidableEq, Repr

/-- The frame under key entry `i`, with the sequence counter's value (R517, R519, R520). -/
def frameUnder (i : Nat) (q : FrmSpec) (s : State) : Frm × State :=
  let h0 := q.typ * 2 ^ 28 + q.ksel * 2 ^ 27 + b2n q.ack * 2 ^ 26 + b2n q.bc * 2 ^ 25 + q.ddev % 4096 * 2 ^ 12 + s.devNum
  let h1 := q.dten % 512 * 2 ^ 23 + q.sten % 512 * 2 ^ 14 + q.hop * 2 ^ 12 + s.f (Reg.LINEKEY.KCTL i) 29 29 * 2 ^ 10 + q.pay.length
  let n := s.line.txSeq
  ({ h0 := h0, h1 := h1, h2 := n, pay := q.pay, tag := frmTag (s.lineKey i) h0 h1 n q.pay },
    s.setLine { s.line with txSeq := if n = 0xFFFFFFFF then 1 else n + 1 })
/-- The frame under its owner's sending key, if there is one (R521). -/
def frameOf (q : FrmSpec) (s : State) : Option (Frm × State) :=
  match s.txKey q.ksel q.sten with
  | some i => some (frameUnder i q s)
  | none => none

/-! ## Times -/

/-- CCLK in a baud: 20 ns, or 640 ns at the watch rate (R515). -/
def State.lineBaud (s : State) (p : Nat) : Nat := if s.b (Reg.LINE.CFG p) 0 then 512 else 16
/-- TIMING.GAP in CCLK. -/
def State.lineGap (s : State) (p : Nat) : Nat := s.f (Reg.LINE.TIMING p) 7 0 * s.lineBaud p
def State.lineRuns (s : State) (p : Nat) : Bool := s.runs (Reg.LINE.page p)
def State.lineFull (s : State) (p : Nat) : Bool := s.lineRuns p && !s.b (Reg.LINE.CFG p) 0
/-- The port may send and accept: a port at the full rate does neither while CLOCK is active (R580). -/
def State.lineTalks (s : State) (p : Nat) : Bool := s.lineRuns p && !(s.lineFull p && s.b Reg.CLK.STATUS 30)
/-- The cycle length in ns (R526). -/
def State.lineL (s : State) (p : Nat) : Int := (s.f (Reg.LINE.CFG p) 31 16 : Nat) * 1000
/-- The first edge at or after a device time in ns. -/
def State.nsEdge (s : State) (t : Int) : Nat := firstAt s.timeAt (t * nsUnit) 34 s.time.at_
/-- The next cycle start of a port (R526, R530). -/
def State.nextTc (s : State) (p : Nat) : Int :=
  let l := s.lineL p
  match (s.port p).tc with
  | some t => t + l
  | none => if l = 0 then s.nsAt s.now + 1 else (s.nsAt s.now / l + 1) * l
/-- A device time as a stamp word (R225). -/
def stampWord (t : Int) : Nat := (t / nsUnit / 1000000000 % 4 * 2 ^ 30 + t / nsUnit % 1000000000).toNat
/-- The device time in ns nearest to now that a stamp word names. -/
def State.stampTime (s : State) (w : Nat) : Int :=
  let sec := s.nsAt s.now / 1000000000
  (sec + signedMod ((w / 2 ^ 30 : Nat) - sec) 4) * 1000000000 + (w % 2 ^ 30 : Nat)
/-- TXLAT and RXLAT (UQ8.4 ns) in 2^-42 ns (R540). -/
def State.txLat (s : State) (p : Nat) : Int := (s.f (Reg.LINE.LAT p) 27 16 : Nat) * 2 ^ 38
def State.rxLat (s : State) (p : Nat) : Int := (s.f (Reg.LINE.LAT p) 11 0 : Nat) * 2 ^ 38

/-! ## Events and counters -/

/-- Raise line event `k` (R550); CYC reaches consumers of every tenant. -/
def lineEvent (p k : Nat) (s : State) : State := s.raiseDev (0x780 + 16 * p + k) (if k = 0 then none else some 0)
/-- A cause with its PAGE_STAT bit: bit k - 1 of event k (R550, R551). -/
def lineCause (p k : Nat) (s : State) : State := lineEvent p k (s.setStatBit (Reg.LINE.page p) (k - 1))
def lineCount (a : Nat) (s : State) : State := s.cntAdd a 31 0 1 true

/-! ## Sending -/

/-- Launch a frame at edge `at_` (R516, R534, R540). -/
def lineLaunch (p at_ : Nat) (f : Frm) (s : State) : State :=
  let body := f.body
  let e := at_ + (35 + 10 * body.length) * s.lineBaud p
  let x := s.port p
  s.setPort p { x with
    tx := some ⟨body, at_, s.timeAt (at_ + 28 * s.lineBaud p) + s.txLat p⟩, txEnd := e,
    idleAt := max x.idleAt (if f.ack && !f.bc then e + 2 * s.lineGap p + 5040 else e) }

/-- Build and launch; nothing without a key. The flag says that it was sent. -/
def lineSendAt (p at_ : Nat) (q : FrmSpec) (s : State) : Bool × State :=
  match frameOf q s with
  | some (f, s) => (true, lineLaunch p at_ f s)
  | none => (false, s)

/-- The record of angle `k` for the reference instant `t` (ns), while it is VALID (R544). -/
def angleRecord (k : Nat) (t : Int) (s : State) : List Nat :=
  let st := Reg.CALIPER1.LSTAT k
  if s.b st 31 then
    let e := s.now / 8 * 8
    let w : Int := (s.angWrap k : Nat) * 65536
    let a := ((s.ang16 k e : Nat) + openDiv 0x544 (s.angRate k * (t * nsUnit - s.timeAt e)) (10 * nsUnit)) % w
    [k + 64 * s.f st 30 30, 0, 0, 0] ++ leBytes (stampWord (t * nsUnit)) 4 ++ leBytes a.toNat 6 ++ [0, 0] ++ leBytes (s.reg (Reg.CALIPER1.RATE k)).toNat 4
  else []
/-- The records of a mask, ascending (R544). -/
def angleRecords (mask : Nat) (t : Int) (s : State) : List Nat := (List.range 16).flatMap (fun k => if bitOf mask k then angleRecord k t s else [])

/-- The head's CYCLE frame of cycle `t` (R527, R528): its reference edge is the one nearest to T_c at the cable. -/
def cycleSend (p : Nat) (t : Int) (s : State) : State :=
  let recs := angleRecords (s.f (Reg.LINE.ROLE p) 31 16) t s
  let sec := (t / 1000000000).toNat
  let pay := leBytes (sec % 2 ^ 32) 4 ++ leBytes (sec / 2 ^ 32 % 65536) 2 ++ leBytes (s.f (Reg.LINE.CFG p) 31 16) 2 ++ leBytes (t % 1000000000).toNat 4 ++
    [recs.length / 20, s.f Reg.CALIPER0.DSTAT 30 30 + 2 * s.f Reg.CALIPER0.DSTAT 31 31, 0, 0] ++ recs
  let want := t * nsUnit - s.txLat p
  let e1 := firstAt s.timeAt want 34 s.time.at_
  let e := if want - s.timeAt (e1 - 1) ≤ s.timeAt e1 - want then e1 - 1 else e1
  (lineSendAt p (e - 448) ⟨1, 0, false, true, 0, 0, 0, 0, pay⟩ s).2

/-- The memory requester of a slot or channel (R538). -/
def lineRq (p tenant kind : Nat) : MemRq := ⟨tenant, 116 + p, kind⟩

/-- Halt a slot or channel whose control word is at `ctl` and whose HALT bit is bit `h` of the word at `hw` (R538). -/
def lineHalt (p ctl hw h : Nat) (s : State) : State := lineCause p 8 ((s.setF ctl 31 31 0).setF hw h h 1)

/-- Time from T_c to the launch of slot `k` in ns (R531). -/
def State.slotAt (s : State) (p k : Nat) : Int := 20 * (s.f (Reg.LINE.TSTIME p k) 16 0 : Nat) - 560

/-- SLOT_READ_START (R531): for the first cycle whose read instant has not passed and that has no read yet. -/
def slotReadStart (p k : Nat) (s : State) : State :=
  let x := s.port p
  match x.tc with
  | none => s
  | some tc =>
    let when_ := fun (t : Int) => s.nsEdge (t + s.slotAt p k - 4000)
    let free := fun (t : Int) => !x.reads.any (fun r => r.slot == k && r.tc == t) && decide (s.now ≤ when_ t)
    match [tc, tc + s.lineL p].find? free with
    | none => s
    | some t =>
      let ctl := Reg.LINE.TSCTL p k
      let s := s.moveTo (when_ t)
      if s.lineFull p ∧ s.b ctl 31 then
        let half := bitsOf ((s.log.sw.lookup ctl).getD (s.reg ctl)).toNat 29 29
        let n := s.f (Reg.LINE.TSDEST p k) 8 0
        let pa := s.f (Reg.LINE.TSBUF p k) 29 0 * 1024 + 512 * half
        let r := blkRead (lineRq p (s.f ctl 24 16) 1) pa n s
        let d := match r.1 with
          | .val v => some (leBytes v n)
          | _ => none
        let s := if r.1 = .bad then lineHalt p ctl ctl 28 r.2 else r.2
        s.setPort p { s.port p with reads := (s.port p).reads ++ [⟨k, t, d⟩] }
      else s

/-- SLOT_LAUNCH (R531). -/
def slotLaunch (p k : Nat) (s : State) : State :=
  match (s.port p).reads.find? (fun r => r.slot == k) with
  | none => s
  | some r =>
    let s := s.moveTo (s.nsEdge (r.tc + s.slotAt p k))
    let s := s.setPort p { s.port p with reads := (s.port p).reads.filter (fun y => !(y.slot == k && y.tc == r.tc)) }
    let ctl := Reg.LINE.TSCTL p k
    if s.lineTalks p ∧ s.b ctl 31 then
      let miss := fun (s : State) => lineCause p 2 (lineCount (Reg.LINE.SLOTMISS p) s)
      match r.data with
      | none => miss s
      | some d =>
        let recs := angleRecords (s.f ctl 15 0) (r.tc + 20 * (s.f (Reg.LINE.TSTIME p k) 16 0 : Nat)) s
        let q : FrmSpec := ⟨2, s.f ctl 30 30, false, true, 0, s.f (Reg.LINE.TSDEST p k) 24 16, s.f ctl 24 16, 0, [recs.length / 20, 0, 0, 0] ++ recs ++ d⟩
        match lineSendAt p s.now q s with
        | (true, s) => s
        | (false, s) => miss s
    else s

/-! ## Receiving -/

/-- SEQ is newer than `last` (R524). -/
def seqNewer (seq last : Nat) : Bool :=
  let d := (seq + 2 ^ 32 - last) % 2 ^ 32
  decide (1 ≤ d) && decide (d < 2 ^ 31)
def State.lineLast (s : State) (d : Nat) : Nat := tget (fun _ => 0) s.line.last d
def State.enrolled (s : State) (d : Nat) : Bool := s.b (Reg.LINEKEY.ENROL (d / 32)) (d % 32)

/-- A stranger (R523). -/
def lineStranger (p : Nat) (f : Frm) (s : State) : State :=
  let s := lineCount (Reg.LINE.STRANGER p) s
  let s := s.setReg (Reg.LINE.STRLAST p) (BitVec.ofNat 32 (2 ^ 31 + f.sten * 2 ^ 12 + f.sdev))
  let x := s.port p
  if x.strange then s else lineCause p 4 (s.setPort p { x with strange := true })

/-- Schedule an answer. -/
def lineAnswer (p : Nat) (a : Ans) (s : State) : State := s.setPort p { s.port p with ans := (s.port p).ans ++ [a] }
/-- The acknowledgement of a frame whose last baud was at edge `e` (R535). -/
def lineAck (p e : Nat) (f : Frm) (s : State) : State := if f.ack && !f.bc then lineAnswer p ⟨.ack, e + s.lineGap p, f, 0⟩ s else s

/-- Put a forwarded frame into the queue of the other port, with HOP incremented; a full queue counts at the receiving port (R539). The flag says that it was taken. -/
def lineForward1 (p d : Nat) (f : Frm) (s : State) : Bool × State :=
  let x := s.port d
  if 16 ≤ x.fwd.length then (false, lineCount (Reg.LINE.FWDDROP p) s)
  else (true, s.setPort d { x with fwd := x.fwd ++ [{ f with h1 := putBits f.h1 13 12 (f.hop + 1) }] })

/-- The ports an accepted frame is forwarded to (R539). -/
def State.forwardTo (s : State) (p : Nat) (f : Frm) : List Nat :=
  if [1, 2, 4, 5, 6].contains f.typ then []
  else
    let up := fun q => s.b (Reg.LINE.CFG q) 2
    let down := fun q => s.b (Reg.LINE.CFG q) 3
    let leaf := fun q => s.b (Reg.LINE.LEAFMAP q (f.ddev / 32)) (f.ddev % 32)
    if up p then (List.range 4).filter (fun d => down d && (if f.bc then decide (f.hop < 2) else leaf d))
    else if down p then (List.range 4).filter (fun u => up u && (if f.bc then decide (f.hop < 2) else !leaf p))
    else []

/-- Forward (R539); a frame taken over is acknowledged (R535). -/
def lineForward (p e : Nat) (f : Frm) (s : State) : State :=
  let r := (s.forwardTo p f).foldl (fun (a : Bool × State) d => let t := lineForward1 p d f a.2; (a.1 || t.1, t.2)) (false, s)
  if r.1 then lineAck p e f r.2 else r.2

/-- Discarded at step 11 (R522). -/
def lineDrop (p : Nat) (s : State) : State := lineCount (Reg.LINE.RXDROP p) s

/-- The angle records an accepted frame carries, in the bytes `l` (R545); used at the next ACLK edge (R229). The flag says that one was taken. -/
def lineAngles (p sdev : Nat) : Nat → List Nat → State → Bool × State
  | 0, _, s => (false, s)
  | n + 1, l, s =>
    let k := lget 0 l 0 % 16
    let rx := Reg.LINEKEY.ANGRX k
    let mine := s.b rx 31 && s.f rx 17 16 == p && s.f rx 11 0 == sdev && !bitOf (lget 0 l 0) 6
    let s := if mine then
        let s := s.moveTo (nextEdge 8 s.now)
        let s := calSlot k (leNat ((l.drop 8).take 6)) (sx 32 (leNat ((l.drop 16).take 4))) (s.stampTime (leNat ((l.drop 4).take 4)) * nsUnit) s
        s.setPort p { s.port p with angs := k :: (s.port p).angs }
      else s
    let r := lineAngles p sdev n (l.drop 20) s
    (mine || r.1, r.2)

/-- Raise a receive slot's or channel's NOTIFY event (R533, R537). -/
def lineNotify (id : Nat) (s : State) : State := s.raiseSw id

/-- The receive slot of an ISO frame (R533). -/
def State.rxSlot (s : State) (p : Nat) (f : Frm) : Option Nat :=
  (List.range 32).find? (fun k => s.b (Reg.LINE.RSCTL p k) 31 && s.f (Reg.LINE.RSCTL p k) 11 0 == f.sdev && s.f (Reg.LINE.RSCTL p k) 20 12 == f.sten)

/-- Take the head of the inbox when it is of type `t`. -/
def inboxTake (p t : Nat) (s : State) : Option (RxRec × State) :=
  match (s.port p).inbox with
  | [] => none
  | r :: rest => if r.frm.typ = t then some (r, s.setPort p { s.port p with inbox := rest }) else none

/-- ISO_RECEIVE (R533, R545). -/
def isoReceive (p : Nat) (s : State) : State :=
  match inboxTake p 2 s with
  | none => s
  | some (r, s) =>
    let f := r.frm
    let n := lget 0 f.pay 0
    let a := lineAngles p f.sdev (min n ((f.pay.length - 4) / 20)) (f.pay.drop 4) s
    let s := a.2
    match s.rxSlot p f with
    | none => if a.1 then s else lineDrop p s
    | some k =>
      let st := Reg.LINE.RSSTAT p k
      let q := s.f st 15 0
      let d := leBytes (stampWord r.stamp) 4 ++ f.pay.drop (4 + 20 * n)
      let pa := s.f (Reg.LINE.RSBUF p k) 29 0 * 1024 + 512 * ((q + 1) % 2)
      match blkWrite (lineRq p (s.f (Reg.LINE.RSNOTE p k) 20 12) 1) pa d.length (leNat d) s with
      | (.val _, s) =>
        let s := (s.setF st 15 0 ((q + 1) % 65536)).setF st 31 31 0
        let s := s.setPort p { s.port p with stored := k :: (s.port p).stored }
        if s.b (Reg.LINE.RSNOTE p k) 31 then lineNotify (s.f (Reg.LINE.RSNOTE p k) 11 0) s else s
      | (.bad, s) => lineHalt p (Reg.LINE.RSCTL p k) st 30 s
      | (_, s) => lineDrop p s

/-- The receive channel of a frame (R537). -/
def State.rxChan (s : State) (p dten : Nat) : Option Nat :=
  (List.range 8).find? (fun j => s.b (Reg.LINE.MRCFG p j) 31 && s.f (Reg.LINE.MRCFG p j) 28 20 == dten)

/-- Write a frame into its receive channel's ring (R537); false where it is dropped under step 11. -/
def msgStore (p : Nat) (r : RxRec) (s : State) : Bool × State :=
  match s.rxChan p r.frm.dten with
  | none => (false, s)
  | some j =>
    let cfg := Reg.LINE.MRCFG p j
    let base := s.f (Reg.LINE.MRBASE p j) 29 0 * 1024
    let rq := lineRq p (s.f cfg 28 20) 1
    match blkRead rq base 8 s with
    | (.val v, s) =>
      let pi := v % 2 ^ 32
      let ci := v / 2 ^ 32
      let n := 2 ^ s.f cfg 19 16
      if (pi + 2 ^ 32 - ci) % 2 ^ 32 = n then (false, s)
      else
        let d := r.frm.head ++ leBytes (stampWord r.stamp) 4 ++ r.frm.pay
        match blkWrite rq (base + 1024 * (1 + pi % n)) d.length (leNat d) s with
        | (.val _, s) =>
          let s := (blkWrite rq base 4 ((pi + 1) % 2 ^ 32) s).2
          (true, lineNotify (s.f cfg 11 0) s)
        | (.bad, s) => (false, lineHalt p cfg cfg 30 s)
        | (_, s) => (false, s)
    | (.bad, s) => (false, lineHalt p cfg cfg 30 s)
    | (_, s) => (false, s)

/-- MSG_RECEIVE (R535, R537). -/
def msgReceive (p : Nat) (s : State) : State :=
  match inboxTake p 3 s with
  | none => s
  | some (r, s) =>
    match msgStore p r s with
    | (true, s) => lineAck p r.endAt r.frm s
    | (false, s) => lineDrop p s

/-- The member's CYCLE window (R529): the offset, or none when the frame's CYCUS differs (R529, R541). -/
def State.cycleTheta (s : State) (p : Nat) (r : RxRec) : Option Int :=
  let l := r.frm.pay
  if leNat ((l.drop 6).take 2) = s.f (Reg.LINE.CFG p) 31 16 then
    let sec : Int := (leNat (l.take 4) + leNat ((l.drop 4).take 2) * 2 ^ 32 : Nat)
    let th := (sec * 1000000000 + (leNat ((l.drop 8).take 4) : Nat)) * nsUnit
    some (openDiv 0x541 (r.stamp - (th + (s.f (Reg.LINE.DELAY p) 23 0 : Nat) * 2 ^ 38)) nsUnit)
  else none

/-- A member accepts CYCLE (R529, R541, R545). -/
def cycleTake (p : Nat) (r : RxRec) (s : State) : State :=
  let x := s.port p
  let s := s.setPort p { x with cycAt := some r.stamp, misses := 0, headDev := r.frm.sdev }
  let s := (s.setF (Reg.LINE.STATUS p) 29 29 1).setF (Reg.LINE.STATUS p) 31 31 0
  match s.cycleTheta p r with
  | none => lineCount (Reg.LINE.FMTERR p) s
  | some th =>
    let s := if s.b (Reg.LINE.ROLE p) 1 ∧ s.f Reg.CALIPER0.DISC 1 0 = 1 then timeOffset th s else s
    (lineAngles p r.frm.sdev (min (lget 0 r.frm.pay 12) ((r.frm.pay.length - 16) / 20)) (r.frm.pay.drop 16) s).2

/-- CYCLE_MISS (R529). The flag says that HEADLOSS was set. -/
def cycleMiss (p : Nat) (s : State) : Bool × State :=
  match (s.port p).tc with
  | none => (false, s)
  | some t =>
    let half := s.lineL p * nsUnit / 2
    if s.lineFull p ∧ ¬(s.port p).headNow ∧ ¬(s.port p).judged then
      let s := s.moveTo (firstAt s.timeAt (t * nsUnit + half) 34 s.time.at_)
      let x := s.port p
      let seen : Bool := match x.cycAt with
        | some a => decide (t * nsUnit + (s.f (Reg.LINE.DELAY p) 23 0 : Nat) * 2 ^ 38 - half ≤ a)
        | none => false
      let s := s.setPort p { x with judged := true }
      if seen then (false, s)
      else
        let s := lineCause p 1 ((lineCount (Reg.LINE.CYCMISS p) s).setF (Reg.LINE.STATUS p) 29 29 0)
        let s := s.setPort p { s.port p with misses := x.misses + 1 }
        if x.misses + 1 = 8 then (true, lineCause p 6 (s.setF (Reg.LINE.STATUS p) 31 31 1)) else (false, s)
    else (false, s)

/-! ## Delay (R542) -/

/-- DLYREQ_RECEIVE: the head schedules its answer. -/
def dlyreqReceive (p : Nat) (s : State) : State :=
  match inboxTake p 5 s with
  | none => s
  | some (r, s) => if (s.port p).headNow then lineAnswer p ⟨.dlyrsp, r.endAt + s.lineGap p, r.frm, r.stamp⟩ s else lineDrop p s

/-- A stamp with its fraction of a ns (R542). -/
def stamp48 (t : Int) : List Nat := leBytes (stampWord t) 4 ++ leBytes ((t % nsUnit) / 2 ^ 26).toNat 2 ++ [0, 0]
/-- Such a stamp as a device time near now. -/
def State.stamp48Time (s : State) (l : List Nat) : Int := s.stampTime (leNat (l.take 4)) * nsUnit + (leNat ((l.drop 4).take 2) : Nat) * 2 ^ 26

/-- Take the first scheduled answer of a kind. -/
def ansTake (p : Nat) (k : AnsKind) (s : State) : Option (Ans × State) :=
  match (s.port p).ans.find? (fun a => a.kind == k) with
  | none => none
  | some a => some (a, s.setPort p { s.port p with ans := (s.port p).ans.erase a })

/-- DLYRSP_SEND. -/
def dlyrspSend (p : Nat) (s : State) : State :=
  match ansTake p .dlyrsp s with
  | none => s
  | some (a, s) =>
    let s := s.moveTo a.due
    let t3 := s.timeAt (a.due + 28 * s.lineBaud p) + s.txLat p
    if s.lineTalks p then (lineSendAt p a.due ⟨6, 0, false, false, a.dest.sdev, 0, 0, 0, stamp48 a.t2 ++ stamp48 t3⟩ s).2 else s

/-- ACK_SEND (R535): under the key of the frame acknowledged. -/
def ackSend (p : Nat) (s : State) : State :=
  match ansTake p .ack s with
  | none => s
  | some (a, s) =>
    let s := s.moveTo a.due
    if s.lineTalks p then
      match s.rxKey a.dest.ksel a.dest.sten a.dest.kgen with
      | none => s
      | some i =>
        let r := frameUnder i ⟨4, a.dest.ksel, false, false, a.dest.sdev, a.dest.sten, a.dest.dten, 0, leBytes a.dest.seq 4⟩ s
        lineLaunch p a.due r.1 r.2
    else s

/-- DLYRSP_RECEIVE: the first D is taken, later ones by an eighth of the difference (R542). -/
def dlyrspReceive (p : Nat) (s : State) : State :=
  match inboxTake p 6 s with
  | none => s
  | some (r, s) =>
    match (s.port p).dly with
    | none => lineDrop p s
    | some (t1, by_) =>
      if r.endAt ≤ by_ then
        let t2 := s.stamp48Time r.frm.pay
        let t3 := s.stamp48Time (r.frm.pay.drop 8)
        let dnew := openDiv 0x542 ((t2 - t1) + (r.stamp - t3)) (2 * 2 ^ 38)
        let reg := Reg.LINE.DELAY p
        let d : Int := (s.f reg 23 0 : Nat)
        let v := if s.b reg 31 then d + openDiv 0x1542 (dnew - d) 8 else dnew
        let s := s.setReg reg (BitVec.ofNat 32 (2 ^ 31 + ux 24 v))
        s.setPort p { s.port p with dly := none }
      else lineDrop p s

/-- DLYRSP_TIMEOUT. -/
def dlyrspTimeout (p : Nat) (s : State) : State :=
  match (s.port p).dly with
  | none => s
  | some (_, by_) =>
    let s := s.moveTo by_
    s.setPort p { s.port p with dly := none }

/-- DLYREQ_DUE: a member with a valid head queues a DLYREQ (R542). -/
def dlyreqDue (p : Nat) (s : State) : State :=
  let x := s.port p
  if s.lineFull p ∧ ¬x.headNow ∧ x.dlyCnt = 0 ∧ x.cycAt.isSome ∧ ¬s.b (Reg.LINE.STATUS p) 31 then
    match frameOf ⟨5, 0, false, false, x.headDev, 0, 0, 0, []⟩ s with
    | none => s
    | some (f, s) => s.setPort p { s.port p with own := (s.port p).own ++ [f], dlyCnt := max 1 (s.f (Reg.LINE.CONT p) 23 16) }
  else s

/-! ## POLL and PRESENT at an awake port (R548) -/

/-- CCLK from the last baud of a POLL to its answer. -/
def pollDelay (bc : Bool) (pidx : Nat) : Nat := 25600 + (if bc then pidx * 204800 else 0)
/-- POLL_RECEIVE at an awake port. -/
def pollReceive (p : Nat) (s : State) : State :=
  match inboxTake p 7 s with
  | none => s
  | some (r, s) =>
    lineAnswer p ⟨.present, r.endAt + pollDelay r.frm.bc (s.f (Reg.LINE.CFG p) 13 8), r.frm, 0⟩ (lineAck p r.endAt r.frm s)
/-- A shock record is pending (R136). -/
def State.shockHeld (s : State) : Bool := s.b Reg.PWR.WAKEREC0 31 && (s.reg Reg.PWR.WAKEMASK_LO != 0#32 || s.reg Reg.PWR.WAKEMASK_HI != 0#32)
/-- PRESENT_SEND of an awake port. -/
def presentSend (p : Nat) (s : State) : State :=
  match ansTake p .present s with
  | none => s
  | some (a, s) =>
    let s := s.moveTo a.due
    if s.lineTalks p then (lineSendAt p a.due ⟨8, 0, false, false, a.dest.sdev, 0, 0, 0, [0, b2n s.shockHeld, 0, 0]⟩ s).2 else s
/-- PRESENT_RECEIVE: into T0's message channel (R546). -/
def presentReceive (p : Nat) (s : State) : State :=
  match inboxTake p 8 s with
  | none => s
  | some (r, s) =>
    match msgStore p { r with frm := { r.frm with h1 := putBits r.frm.h1 31 23 0 } } s with
    | (true, s) => lineAck p r.endAt r.frm s
    | (false, s) => lineDrop p s

/-! ## Transmit message channels (R536) -/

/-- TYPE may be sent by a channel of tenant `t` at this port's rate (R518, R536, R546). -/
def State.mtxType (s : State) (p t typ : Nat) : Bool :=
  if s.b (Reg.LINE.CFG p) 0 then t == 0 && (typ == 7 || typ == 9) else typ == 3 || (t == 0 && (typ == 0xA || typ == 0xB))

/-- Complete entry CI of a channel: STATUS, then CI (R536). -/
def mtxComplete (p j status : Nat) (s : State) : State :=
  let cfg := Reg.LINE.MTCFG p j
  let base := s.f (Reg.LINE.MTBASE p j) 29 0 * 1024
  let rq := lineRq p (s.f cfg 28 20) 1
  match blkRead rq (base + 4) 4 s with
  | (.val ci, s) =>
    let s := (blkWrite rq (base + 1024 * (1 + ci % 2 ^ s.f cfg 19 16) + 7) 1 status s).2
    (blkWrite rq (base + 4) 4 ((ci + 1) % 2 ^ 32) s).2
  | (.bad, s) => lineHalt p cfg cfg 30 s
  | (_, s) => s

/-- What a look at channel `j` found. -/
inductive MtxLook where
  | empty
  /-- An entry that completes with status 0x04. -/
  | refused
  | entry (q : FrmSpec)
deriving DecidableEq, Repr

/-- Read the next entry of a channel (R536). -/
def mtxLook (p j : Nat) (s : State) : MtxLook × State :=
  let cfg := Reg.LINE.MTCFG p j
  if s.b cfg 31 then
    let base := s.f (Reg.LINE.MTBASE p j) 29 0 * 1024
    let t := s.f cfg 28 20
    let rq := lineRq p t 1
    let stop := fun (a : MemAns) (s : State) => (MtxLook.empty, if a = .bad then lineHalt p cfg cfg 30 s else s)
    match blkRead rq base 8 s with
    | (.val v, s) =>
      if v % 2 ^ 32 = v / 2 ^ 32 then (.empty, s)
      else
        let at_ := base + 1024 * (1 + v / 2 ^ 32 % 2 ^ s.f cfg 19 16)
        match blkRead rq at_ 8 s with
        | (.val h, s) =>
          let w := h % 2 ^ 32
          let n := bitsOf (h / 2 ^ 32) 9 0
          if ¬s.mtxType p t (bitsOf w 8 5) ∨ bitsOf w 4 0 ≠ 0 ∨ 512 < n ∨ (bitOf w 31 ∧ bitOf w 30) ∨ (s.txKey (s.f cfg 29 29) t).isNone then (.refused, s)
          else
            match blkRead rq (at_ + 16) n s with
            | (.val d, s) =>
              (.entry ⟨bitsOf w 8 5, s.f cfg 29 29, bitOf w 30, bitOf w 31, if bitOf w 31 then 0 else bitsOf w 20 9, bitsOf w 29 21, t, 0, leBytes d n⟩, s)
            | (a, s) => stop a s
        | (a, s) => stop a s
    | (a, s) => stop a s
  else (.empty, s)

/-- Round robin over the channels from `j` on: the first entry; refused entries complete on the way (R534, R536). -/
def mtxPick (p : Nat) : Nat → Nat → State → Option (Nat × FrmSpec) × State
  | 0, _, s => (none, s)
  | n + 1, j, s =>
    match mtxLook p (j % 8) s with
    | (.empty, s) => mtxPick p n (j + 1) s
    | (.refused, s) => mtxPick p n (j + 1) (mtxComplete p (j % 8) 4 s)
    | (.entry q, s) => (some (j % 8, q), s)

/-- The next contention frame of a port: its own, forwarded ones, then the channels (R534). -/
def contPick (p : Nat) (s : State) : Option Cont × State :=
  let x := s.port p
  let be := s.f (Reg.LINE.CONT p) 3 0
  match x.own with
  | f :: rest => (some ⟨.own, f, be, 0, none⟩, s.setPort p { x with own := rest })
  | [] =>
    match x.fwd with
    | f :: rest => (some ⟨.fwd, f, be, 0, none⟩, s.setPort p { x with fwd := rest })
    | [] =>
      match mtxPick p 8 x.rr s with
      | (some (j, q), s) =>
        match frameOf q s with
        | some (f, s) => (some ⟨.mtx j, f, be, 0, none⟩, s)
        | none => (none, mtxComplete p j 4 s)
      | (none, s) => (none, s)

/-- The frame with its acknowledgement fits into the window at the current edge (R526, R534). -/
def State.windowFits (s : State) (p : Nat) (f : Frm) : Bool :=
  if s.b (Reg.LINE.CFG p) 0 then true
  else
    match (s.port p).tc with
    | none => false
    | some t =>
      let e := s.now + (35 + 10 * f.body.length) * 16 + (if f.ack && !f.bc then s.lineGap p + 5040 else 0)
      decide ((t + (s.f (Reg.LINE.TIMING p) 26 16 : Nat) * 1000) * nsUnit ≤ s.timeAt s.now) &&
        decide (s.timeAt e ≤ (t + s.lineL p - 560 - 20 * (s.f (Reg.LINE.TIMING p) 7 0 : Nat)) * nsUnit)

/-- The contention frame is done. -/
def contDone (p status : Nat) (c : Cont) (s : State) : State :=
  let s := s.setPort p { s.port p with cont := none }
  match c.src with
  | .mtx j => mtxComplete p j status (s.setPort p { s.port p with rr := (j + 1) % 8 })
  | _ => s

/-! ## Register checks (R526, R532, R551, R552) -/

/-- A base in plinth SRAM or LPDDR4 (R44, R532). -/
def State.bufOk (s : State) (base : Nat) : Bool :=
  let pa := base * 1024
  (decide (0x80000000 ≤ pa) && decide (pa < 0x81800000)) || (decide (0x1000000000 ≤ pa) && decide (pa < 0x1000000000 + s.dramUsable))

/-- The checks of R532 for slot registers ctl, time, dest, in the port's settings. -/
def State.slotRefused (s : State) (p ctl time dest : Nat) : Bool :=
  let n := 4 + 20 * popcount 16 (bitsOf ctl 15 0) + bitsOf dest 8 0
  let start : Int := (bitsOf time 16 0 : Nat)
  bitOf ctl 31 && (decide (512 < n) || decide (start < 28) ||
    decide (s.lineL p - 560 - 20 * (s.f (Reg.LINE.TIMING p) 7 0 : Nat) < 20 * start - 560 + 20 * (275 + 10 * (n : Int))))

/-- Setting EN of a slot or channel clears its HALT (R538). -/
def lineEnable (ctl hw h v : Nat) (s : State) : State := if bitOf v 31 then s.setF hw h h 0 |>.setF ctl 31 31 1 else s

/-- A write to block register `o` of LINE[p] (R551): `v` is the stored word. -/
def lineWrite (p o v : Nat) (s : State) : State :=
  let base := Reg.LINE.page p
  let a := base + o
  let w := BitVec.ofNat 32 v
  let ro := (s.reg a).toNat
  let cap := fun (c : Nat) => s.capture base c o
  if o = 0x40 ∨ o = 0x48 ∨ o = 0x4C ∨ o = 0x50 then
    if s.en base then cap 2
    else if o = 0x40 then
      if ¬[125, 200, 250, 400, 500, 625, 1000, 1250, 2000].contains (bitsOf v 31 16) ∨ (bitOf v 3 ∧ bitOf v 2) ∨ (bitOf v 0 ∧ p ≠ 0) then cap 0x90
      else s.swStore a w
    else if o = 0x48 then (if bitsOf v 7 0 < 50 then cap 0x93 else s.swStore a w)
    else if o = 0x4C then (if 10 < bitsOf v 7 4 ∨ bitsOf v 7 4 < bitsOf v 3 0 then cap 0x93 else s.swStore a w)
    else s.swStore a w
  else if o = 0x44 then
    if bitOf v 1 ∧ (List.range 4).any (fun q => q != p && s.b (Reg.LINE.ROLE q) 1) then cap 0x94 else s.swStore a w
  else if 0x100 ≤ o ∧ o < 0x180 then
    let k := (o - 0x100) / 16
    let r := o % 16
    let ctl := (s.reg (Reg.LINE.TSCTL p k)).toNat
    let time := (s.reg (Reg.LINE.TSTIME p k)).toNat
    let dest := (s.reg (Reg.LINE.TSDEST p k)).toNat
    let buf := (s.reg (Reg.LINE.TSBUF p k)).toNat
    let bad := if r = 0 then s.slotRefused p v time dest else if r = 4 then s.slotRefused p ctl v dest else if r = 8 then s.slotRefused p ctl time v else false
    if bad then cap 0x91
    else if (r = 12 ∧ ¬s.bufOk (bitsOf v 29 0)) ∨ (r = 0 ∧ bitOf v 31 ∧ ¬s.bufOk (bitsOf buf 29 0)) then cap 0x92
    else if r = 0 then s.swStore a (BitVec.ofNat 32 (if bitOf v 31 then putBits v 28 28 0 else putBits v 28 28 (bitsOf ro 28 28)))
    else s.swStore a w
  else if 0x200 ≤ o ∧ o < 0x400 then
    let k := (o - 0x200) / 16
    let r := o % 16
    if r = 4 ∧ bitsOf v 11 0 < 0x800 then cap 0x93
    else if r = 8 ∧ ¬s.bufOk (bitsOf v 29 0) then cap 0x92
    else if r = 0 ∧ bitOf v 31 then (s.setF (Reg.LINE.RSSTAT p k) 30 30 0).swStore a w
    else s.swStore a w
  else if 0x400 ≤ o ∧ o < 0x500 then
    if o % 16 = 4 then (if s.bufOk (bitsOf v 29 0) then s.swStore a w else cap 0x92)
    else if bitsOf v 19 16 = 0 ∨ 10 < bitsOf v 19 16 ∨ (0x480 ≤ o ∧ bitsOf v 11 0 < 0x800) then cap 0x93
    else s.swStore a (BitVec.ofNat 32 (if bitOf v 31 then putBits v 30 30 0 else putBits v 30 30 (bitsOf ro 30 30)))
  else s.swStore a w

/-- KCMD.GO (R552). -/
def keyCommand (v : Nat) (s : State) : State :=
  let i := bitsOf v 5 0
  let k := Reg.LINEKEY.KCTL i
  let no := fun (s : State) => s.capture Reg.LINEKEY.page 0x98 0x44
  if bitsOf v 30 29 = 0 then
    let clash := (List.range 64).any (fun j => j != i && s.b (Reg.LINEKEY.KCTL j) 31 && s.f (Reg.LINEKEY.KCTL j) 29 29 == s.f k 29 29 &&
      (if s.b k 30 then s.b (Reg.LINEKEY.KCTL j) 30 else !s.b (Reg.LINEKEY.KCTL j) 30 && s.f (Reg.LINEKEY.KCTL j) 8 0 == s.f k 8 0))
    if clash then no s
    else
      let key := (List.range 4).flatMap (fun m => leBytes (s.reg (Reg.LINEKEY.KEYIN m)).toNat 4)
      let s := s.setLine { s.line with keys := tput (fun _ => List.replicate 16 0) s.line.keys i key }
      let s := s.setF k 31 31 1
      (List.range 4).foldl (fun t m => t.setReg (Reg.LINEKEY.KEYIN m) 0#32) s
  else if bitsOf v 30 29 = 1 then
    let s := s.setLine { s.line with keys := tput (fun _ => List.replicate 16 0) s.line.keys i (List.replicate 16 0) }
    (s.setF k 31 31 0).setF k 28 28 0
  else no s

/-- A write to KCTL[i] (R521, R552). -/
def kctlWrite (i v : Nat) (s : State) : State :=
  let k := Reg.LINEKEY.KCTL i
  let old := (s.reg k).toNat
  if bitOf old 31 ∧ (bitsOf v 30 29 ≠ bitsOf old 30 29 ∨ bitsOf v 8 0 ≠ bitsOf old 8 0) then s.capture Reg.LINEKEY.page 0x98 (0x80 + 4 * i)
  else
    let s := s.swStore k (BitVec.ofNat 32 (putBits v 31 31 (bitsOf old 31 31)))
    if bitOf v 28 then
      (List.range 64).foldl (fun t j =>
        if j ≠ i ∧ t.f (Reg.LINEKEY.KCTL j) 30 30 = bitsOf v 30 30 ∧ (bitOf v 30 ∨ t.f (Reg.LINEKEY.KCTL j) 8 0 = bitsOf v 8 0) then
          t.setF (Reg.LINEKEY.KCTL j) 28 28 0
        else t) s
    else s

/-- A write to ENROL[w]: LAST of a newly enrolled device is cleared (R524). -/
def enrolWrite (w v : Nat) (s : State) : State :=
  let old := (s.reg (Reg.LINEKEY.ENROL w)).toNat
  let s := s.swStore (Reg.LINEKEY.ENROL w) (BitVec.ofNat 32 v)
  s.setLine { s.line with last := s.line.last.filter (fun e => !(e.1 / 32 == w && bitOf v (e.1 % 32) && !bitOf old (e.1 % 32))) }

/-- A write to DEVID: a new number clears every LAST (R524). -/
def devidWrite (v : Nat) (s : State) : State :=
  let s' := s.swStore Reg.LINEKEY.DEVID (BitVec.ofNat 32 v)
  if bitsOf v 11 0 = s.devNum then s' else s'.setLine { s'.line with last := [] }

/-- A write to ANGRX[k] (R552). -/
def angrxWrite (k v : Nat) (s : State) : State :=
  if s.b (Reg.LINE.CFG (bitsOf v 17 16)) 0 then s.capture Reg.LINEKEY.page 0x99 (0x180 + 4 * k)
  else s.swStore (Reg.LINEKEY.ANGRX k) (BitVec.ofNat 32 v)

end Sys2Proof.Machine
end

