-- ==== Sys2Proof/Machine/Systems.lean ====
section
/-! DEFINITION. Systems of many devices (chapter 19): formation (R556-R563, R565, R566), barrier, snapshot and reset (R568-R573), and the port events that feed them: cycle starts (R527), received frames (R522), the contention window (R534, R535). -/

namespace Sys2Proof.Machine

/-! ## Who is who -/

/-- Enabled ports at the full rate. -/
def State.fullPorts (s : State) : List Nat := (List.range 4).filter (fun p => s.lineFull p)
def State.portUp (s : State) (p : Nat) : Bool := s.b (Reg.LINE.CFG p) 2
def State.portDown (s : State) (p : Nat) : Bool := s.b (Reg.LINE.CFG p) 3
def State.headPorts (s : State) : List Nat := s.fullPorts.filter (fun p => (s.port p).role == .head)
/-- The root head: a head that is not DOWN, on a device without an UP port (R553). -/
def State.rootPort (s : State) : Option Nat :=
  if s.fullPorts.any (fun p => s.portUp p) then none else s.headPorts.find? (fun p => !s.portDown p)
/-- The DOWN ports that head leaves. -/
def State.leafPorts (s : State) : List Nat := s.fullPorts.filter (fun p => s.portDown p)
/-- The member port that faces the root. -/
def State.upPort (s : State) : Option Nat := s.fullPorts.find? (fun p => (s.port p).role == .member)
def State.phase (s : State) : Nat := s.f Reg.LINEKEY.SYSSTAT 27 24
def State.setPhase (s : State) (n : Nat) : State := s.setF Reg.LINEKEY.SYSSTAT 27 24 n
def State.formed (s : State) : Bool := s.b Reg.LINEKEY.SYSSTAT 31
/-- The port of DISC and SYS events (R575). -/
def State.sysPort (s : State) : Nat :=
  match (List.range 4).find? (fun p => s.b (Reg.LINE.ROLE p) 1) with
  | some p => p
  | none => s.rootPort.getD 0
def discEvent (s : State) : State := lineEvent s.sysPort 9 s
def sysEvent (s : State) : State := lineEvent s.sysPort 10 s
def sysLate (s : State) : State := lineCount Reg.LINEKEY.SYSLATE s

/-! ## DISC frames (R555) -/

def discPay (op a1 a2 : Nat) (data : List Nat) : List Nat := [op, a1] ++ leBytes a2 2 ++ data
def Frm.op (f : Frm) : Nat := lget 0 f.pay 0
def Frm.arg1 (f : Frm) : Nat := lget 0 f.pay 1
def Frm.arg2 (f : Frm) : Nat := leNat ((f.pay.drop 2).take 2)
def Frm.data (f : Frm) : List Nat := f.pay.drop 4
/-- A local broadcast, a local frame to a device, a system-wide broadcast. -/
def discLocal (op a1 a2 : Nat) : FrmSpec := ⟨0xA, 0, false, true, 0, 0, 0, 2, discPay op a1 a2 []⟩
def discTo (ack : Bool) (dev op a1 a2 : Nat) (data : List Nat) : FrmSpec := ⟨0xA, 0, ack, false, dev, 0, 0, 2, discPay op a1 a2 data⟩
def discAll (op a1 a2 : Nat) (data : List Nat) : FrmSpec := ⟨0xA, 0, false, true, 0, 0, 0, 0, discPay op a1 a2 data⟩

/-- Queue a frame of the device itself for the window of port `p` (R534). -/
def queueOwn (p : Nat) (q : FrmSpec) (s : State) : State :=
  match frameOf q s with
  | some (f, s) => s.setPort p { s.port p with own := (s.port p).own ++ [f] }
  | none => s
/-- A frame of the root on every port it heads. -/
def queueRoot (q : FrmSpec) (s : State) : State := s.headPorts.foldl (fun t p => queueOwn p q t) s

/-! ## Keys (R563) -/

/-- Owner word of key entry `i`: tenant, SYS, GEN. -/
def State.ownerWord (s : State) (i : Nat) : Nat :=
  let k := Reg.LINEKEY.KCTL i
  (if s.b k 30 then 0 else s.f k 8 0) + s.f k 30 30 * 2 ^ 9 + s.f k 29 29 * 2 ^ 10
def State.kcv (s : State) (i : Nat) : List Nat := (aesCmac (s.lineKey i) (List.replicate 16 0)).take 4
/-- The entries used for sending. -/
def State.txEntries (s : State) : List Nat := (List.range 64).filter (fun i => s.b (Reg.LINEKEY.KCTL i) 31 && s.b (Reg.LINEKEY.KCTL i) 28)
def State.keychk (s : State) : FrmSpec :=
  let l := s.txEntries
  discAll 7 l.length 0 (l.flatMap (fun i => leBytes (s.ownerWord i) 2 ++ s.kcv i))
/-- Entry `i` appears in a KEYCHK list with equal GEN and KCV. -/
def State.keyListed (s : State) (i : Nat) : Nat → List Nat → Bool
  | 0, _ => false
  | n + 1, l => (leNat (l.take 2) == s.ownerWord i && (l.drop 2).take 4 == s.kcv i) || s.keyListed i n (l.drop 6)

/-- What a port's answers of phase 5 add up to: covered, failing, lowest failing. -/
def sumAns (l : List KeyAns) : Nat × Nat × Nat := l.foldl (fun a k => (a.1 + k.covered, a.2.1 + k.nfail, min a.2.2 k.first)) (0, 0, 0xFFFF)
def State.leafAns (s : State) : List KeyAns := s.leafPorts.flatMap (fun p => (s.port p).keyAns)
/-- Every device of the leaf rosters has answered (R563). -/
def State.leavesAnswered (s : State) : Bool := s.leafPorts.all (fun p => (s.port p).roster.all (fun d => (s.port p).keyAns.any (fun k => k.dev == d)))
/-- This device's KEYRES: covered, failing, lowest failing (R563). -/
def State.keyres (s : State) : Nat × Nat × Nat :=
  let a := sumAns s.leafAns
  let bad : Bool := s.line.keyOk != some true
  (1 + a.1, a.2.1 + b2n bad, if bad then min s.devNum a.2.2 else a.2.2)
def State.keyresSpec (s : State) (ack : Bool) (dev : Nat) : FrmSpec :=
  let r := s.keyres
  discTo ack dev 8 (s.f Reg.CALIPER0.DSTAT 30 30 + 2 * b2n (decide (r.2.1 = 0))) r.1 (leBytes r.2.2 2 ++ leBytes r.2.1 2)
/-- The device may answer KEYRES (R563). -/
def State.keyresReady (s : State) : Bool := s.b Reg.CALIPER0.DSTAT 30 && s.line.keyOk.isSome && s.leavesAnswered

/-- FORMED on this device (R563). -/
def becomeFormed (s : State) : State :=
  let s := (s.setPhase 6).setF Reg.LINEKEY.SYSSTAT 31 31 1
  discEvent (s.setReg Reg.LINEKEY.FORMTIME (BitVec.ofNat 32 (satN 0xFFFFFFFF ((s.now - s.line.formAt) / 800000))))

/-! ## Phases (R556) -/

/-- Devices in the system as the root counts them, and L (R561). -/
def State.rootCount (s : State) (p : Nat) : Nat :=
  1 + (s.port p).roster.length + (s.port p).regs.foldl (fun n r => n + r.2.length) 0 + s.leafPorts.foldl (fun n q => n + (s.port q).roster.length) 0
def State.rootLevels (s : State) (p : Nat) : Nat := if s.leafPorts.isEmpty && !(s.port p).regs.any (fun r => !r.2.isEmpty) then 1 else 2
def rootLoad (p : Nat) (s : State) : State :=
  let s := ((s.setF Reg.LINEKEY.SYSSTAT 12 0 (s.rootCount p)).setF Reg.LINEKEY.SYSSTAT 21 20 (s.rootLevels p)).setF Reg.LINEKEY.SYSSTAT 30 30 1
  s.setReg Reg.LINEKEY.SYSROOT (BitVec.ofNat 32 (2 ^ 31 + s.devNum))
def rootFrame (s : State) : State := queueRoot (discAll 6 (s.f Reg.LINEKEY.SYSSTAT 21 20) (s.f Reg.LINEKEY.SYSSTAT 12 0) []) s

/-- A port's roll call is over: a head's roster is complete and its bridges are registered; a member has answered (R556). -/
def State.rolled (s : State) (p : Nat) : Bool :=
  let x := s.port p
  match x.role with
  | .head => x.complete && (s.rootPort != some p || x.bridges.all (fun d => x.regs.any (fun r => r.1 == d)))
  | .member => x.joined
  | _ => false

/-- A late member queues its KEYRES (R565). -/
def lateKeyres (s : State) : State :=
  s.fullPorts.foldl (fun t p =>
    let x := t.port p
    if x.role = .member ∧ x.late ∧ ¬x.keySent ∧ t.keyresReady then
      queueOwn p (t.keyresSpec true x.headDev) (t.setPort p { x with keySent := true })
    else t) s

/-- The root counts its answers (R563). -/
def rootKeys (p : Nat) (s : State) : State :=
  let a := sumAns ((s.port p).keyAns ++ s.leafAns)
  if s.f Reg.LINEKEY.SYSSTAT 12 0 ≤ 1 + a.1 ∧ ¬s.b Reg.LINEKEY.SYSSTAT 28 then
    if a.2.1 = 0 then
      (if (s.port p).keySent then s
       else queueRoot (discAll 9 0 (s.f Reg.LINEKEY.SYSSTAT 12 0) []) (s.setPort p { s.port p with keySent := true }))
    else (s.setF Reg.LINEKEY.SYSSTAT 28 28 1).setReg Reg.LINEKEY.KEYRES (BitVec.ofNat 32 (a.2.1 * 65536 + a.2.2 % 4096))
  else s

/-- One look at the conditions that end a phase (R556). -/
def formStep (s : State) : State :=
  match s.phase with
  | 1 => if s.fullPorts.all (fun p => (s.port p).role == .head || (s.port p).role == .member) then s.setPhase 2 else s
  | 2 =>
    if s.fullPorts.all s.rolled then
      match s.rootPort with
      | some p => rootFrame (rootLoad p (s.setPhase 3))
      | none => s.setPhase 3
    else s
  | 4 => if s.b Reg.CALIPER0.DSTAT 30 then s.setPhase 5 else s
  | 5 =>
    match s.rootPort with
    | some p => rootKeys p s
    | none => lateKeyres s
  | _ => s
/-- The phases advance as far as they can at this edge. -/
def formAdvance (s : State) : State := formStep (formStep (formStep s))

/-- A port starts the election (R557). -/
def LinePort.enter (x : LinePort) (up : Bool) (now : Nat) : LinePort :=
  { x with
    role := if up then .member else .cand, waitAt := max now x.idleAt, collided := 0, group := 0, turned := false, quiet := 0, added := false,
    roster := [], bridges := [], complete := false, regs := [], polls := [], turn := none, joined := false, late := false, keySent := false, keyAns := [] }

/-- SYSCTL.FORM (R556, R575). -/
def formGo (s : State) : State :=
  let ph := s.phase
  if ¬s.b Reg.LINEKEY.DEVID 31 ∨ (s.txKey 0 0).isNone ∨ (List.range 4).all (fun p => !s.en (Reg.LINE.page p)) ∨ (1 ≤ ph ∧ ph ≤ 5) then
    s.capture Reg.LINEKEY.page 0x9A 0x404
  else
    let s := s.setReg Reg.LINEKEY.SYSSTAT 0x01000000#32
    let s := s.setLine { s.line with formAt := s.now, keyOk := none, rep := 0 }
    formAdvance (s.fullPorts.foldl (fun t p => t.setPort p ((t.port p).enter (t.portUp p) t.now)) s)
/-- SYSCTL.ABORT. -/
def formAbort (s : State) : State :=
  let s := (List.range 4).foldl (fun t p => t.setPort p { t.port p with turn := none, role := if (t.port p).role = .cand ∨ (t.port p).role = .claimed then .none else (t.port p).role }) s
  s.setPhase 0
/-- SYSCTL.KEYCHK: the root runs phase 5 again (R563). -/
def keychkRerun (s : State) : State :=
  if s.b Reg.LINEKEY.SYSSTAT 30 then
    let s := ((s.setPhase 5).setF Reg.LINEKEY.SYSSTAT 31 31 0).setF Reg.LINEKEY.SYSSTAT 28 28 0
    let s := s.setLine { s.line with keyOk := some true }
    let s := s.headPorts.foldl (fun t p => t.setPort p { t.port p with keyAns := [], keySent := false }) s
    queueRoot s.keychk s
  else s
/-- A write to SYSCTL. -/
def sysctlWrite (v : Nat) (s : State) : State :=
  let s := if bitOf v 29 then formAbort s else s
  let s := if bitOf v 31 then formGo s else s
  if bitOf v 30 then keychkRerun s else s

/-! ## Election (R557) -/

def State.portClass (s : State) (p : Nat) : Nat := if s.portDown p then 2 else if s.b Reg.LINEKEY.SYSCFG 31 then 1 else 0
def State.pidx (s : State) (p : Nat) : Nat := s.f (Reg.LINE.CFG p) 13 8
/-- CLAIM: the wait E has run out; `collided` says what became of the frame. -/
def claimSend (p : Nat) (collided : Bool) (s : State) : State :=
  let x := s.port p
  if s.phase = 1 ∧ x.role = .cand ∧ s.lineTalks p ∧ (s.txKey 0 0).isSome then
    let s := s.moveTo (x.waitAt + 16000 * (64 * (2 - s.portClass p) + s.pidx p))
    let s := (lineSendAt p s.now (discLocal 1 (s.portClass p) (s.pidx p)) s).2
    let y := s.port p
    let y := { y with waitAt := y.txEnd + s.lineGap p }
    if collided then
      if 8 ≤ y.collided + 1 then
        discEvent ((s.setPort p { y with role := .none, collided := y.collided + 1 }).setF Reg.LINEKEY.SYSSTAT 29 29 1)
      else s.setPort p { y with collided := y.collided + 1 }
    else s.setPort p { y with role := .claimed, collided := 0 }
  else s
/-- A port becomes a member of its segment. -/
def becomeMember (p : Nat) (s : State) : State :=
  let x := s.port p
  formAdvance ((s.setPort p { x with role := .member }).hwUpd (Reg.LINE.ROLE p) 0 0 0)
/-- HEAD_CONFIRM. -/
def headConfirm (p : Nat) (s : State) : State :=
  let x := s.port p
  if x.role = .claimed then
    let s := s.moveTo (x.waitAt + 3200000)
    formAdvance ((s.setPort p { x with role := .head }).hwUpd (Reg.LINE.ROLE p) 0 0 1)
  else s
/-- Take a DISC or SYS frame with operation `op`. -/
def opTake (p typ op : Nat) (s : State) : Option (RxRec × State) :=
  match inboxTake p typ s with
  | some (r, t) => if r.frm.op = op then some (r, t) else none
  | none => none
/-- CLAIM_RECEIVE. -/
def claimReceive (p : Nat) (s : State) : State :=
  match opTake p 0xA 1 s with
  | none => s
  | some (r, s) =>
    let x := s.port p
    let c := s.portClass p
    let higher := decide (c < r.frm.arg1) || (r.frm.arg1 == c && decide (r.frm.arg2 < s.pidx p))
    if (x.role = .cand ∨ x.role = .claimed ∨ x.role = .head) ∧ higher then becomeMember p (s.setPort p { x with headDev := r.frm.sdev }) else s

/-! ## Turns and roll call (R558, R559) -/

def State.turnA (s : State) (p : Nat) : Nat := min 8 ((s.f (Reg.LINE.CFG p) 31 16 - 40) / 24)
def State.turnG (s : State) (p : Nat) : Nat := ceilDiv 64 (s.turnA p)
/-- TURN, at GAP after the head's CYCLE frame. -/
def turnSend (p : Nat) (s : State) : State :=
  let x := s.port p
  if s.lineTalks p ∧ x.headNow ∧ x.role = .head ∧ (s.phase = 2 ∨ s.phase = 5) ∧ ¬x.turned ∧ x.tc.isSome then
    let s := s.moveTo (x.txEnd + s.lineGap p)
    let r := lineSendAt p s.now (discLocal 2 s.phase (x.group + s.turnA p * 256)) s
    let s := r.2
    s.setPort p { s.port p with turned := true, group := (x.group + 1) % s.turnG p }
  else s
/-- The roster in LEAFMAP (R559). -/
def leafLoad (p : Nat) (s : State) : State :=
  let l := (s.port p).roster
  (List.range 128).foldl (fun t w => t.hwUpd (Reg.LINE.LEAFMAP p w) 31 0 ((l.filter (fun d => d / 32 == w)).foldl (fun v d => Nat.lor v (2 ^ (d % 32))) 0)) s
/-- The end of a pass, judged at the next cycle start. -/
def passEnd (p : Nat) (s : State) : State :=
  let x := s.port p
  if x.turned ∧ x.group = 0 ∧ s.phase = 2 then
    let q := if x.added then 0 else x.quiet + 1
    let done := decide (2 ≤ q) && !x.complete
    let s := s.setPort p { x with quiet := q, added := false, complete := x.complete || done }
    if done ∧ s.portDown p then leafLoad p s else s
  else s

/-- Answer a TURN of this port's group (R558, R559, R563). -/
def turnAnswer (p : Nat) (s : State) : State :=
  let x := s.port p
  match x.turn with
  | none => s
  | some t =>
    let s := s.setPort p { x with turn := none }
    let i := s.pidx p
    if t.a ≠ 0 ∧ i / t.a = t.group ∧ x.role = .member ∧ s.lineTalks p then
      let due := t.endAt + s.lineGap p + 19200 * (i % t.a)
      if t.phase = 2 then
        let s := s.moveTo due
        let bridge := s.portUp p && !s.leafPorts.isEmpty
        let r := lineSendAt p due (discTo false x.headDev 3 (b2n bridge + 2 * s.f Reg.LINEKEY.SYSCFG 31 31) i []) s
        formAdvance (r.2.setPort p { r.2.port p with joined := (r.2.port p).joined || r.1 })
      else if t.phase = 5 ∧ s.keyresReady then (lineSendAt p due (s.keyresSpec false x.headDev) (s.moveTo due)).2
      else s
    else s

/-- The REGISTER of a bridge (R560). -/
def State.registerSpec (s : State) (ack : Bool) (dev : Nat) : FrmSpec :=
  let l := s.leafPorts.flatMap (fun p => (s.port p).roster)
  discTo ack dev 5 (b2n (s.leafPorts.all (fun p => (s.port p).complete))) l.length (l.flatMap (fun d => leBytes d 2))

/-- JOIN_RECEIVE (R559, R565, R566). -/
def joinReceive (p : Nat) (s : State) : State :=
  match opTake p 0xA 3 s with
  | none => s
  | some (r, s) =>
    let x := s.port p
    let d := r.frm.sdev
    if x.role = .head then
      let s := lineAck p r.endAt r.frm s
      if s.enrolled d then
        let x := s.port p
        let isNew := !x.roster.contains d
        let br := bitOf r.frm.arg1 0 && !x.bridges.contains d
        let s := s.setPort p { x with roster := if isNew then x.roster ++ [d] else x.roster, bridges := if br then x.bridges ++ [d] else x.bridges, added := x.added || isNew }
        if isNew ∧ x.complete then
          let s := if s.portDown p then s.hwUpd (Reg.LINE.LEAFMAP p (d / 32)) (d % 32) (d % 32) 1 else s
          let s := discEvent s
          match s.rootPort with
          | some q => s.setF Reg.LINEKEY.SYSSTAT 12 0 (s.rootCount q)
          | none =>
            match s.upPort with
            | some u => queueOwn u (s.registerSpec true (s.port u).headDev) s
            | none => s
        else s
      else s
    else lineDrop p s

/-- The next bridge to poll: fewest polls, then lowest number (R560). -/
def LinePort.nextPoll (x : LinePort) : Option (Nat × Nat) :=
  (x.bridges.filter (fun d => !x.regs.any (fun r => r.1 == d))).foldl (fun (a : Option (Nat × Nat)) d =>
    let n := (x.polls.lookup d).getD 0
    match a with
    | none => some (n, d)
    | some b => if n < b.1 ∨ (n = b.1 ∧ d < b.2) then some (n, d) else some b) none
/-- REGREQ: the root head polls a bridge, or leaves it out after 8 passes (R560). -/
def regreqSend (p : Nat) (s : State) : State :=
  let x := s.port p
  if s.rootPort = some p ∧ x.complete ∧ s.phase = 2 ∧ s.lineTalks p then
    match x.nextPoll with
    | none => s
    | some (n, d) =>
      if 8 ≤ n then formAdvance (discEvent (s.setPort p { x with bridges := x.bridges.filter (fun b => b != d) }))
      else
        let s := s.setPort p { x with polls := (d, n + 1) :: x.polls.filter (fun q => q.1 != d) }
        let s := s.moveTo (x.idleAt + s.lineGap p)
        (lineSendAt p s.now (discTo false d 4 0 0 []) s).2
  else s
/-- Device numbers in a REGISTER. -/
def devList : Nat → List Nat → List Nat
  | 0, _ => []
  | n + 1, l => leNat (l.take 2) :: devList n (l.drop 2)
/-- REGISTER_RECEIVE (R560, R565). -/
def registerReceive (p : Nat) (s : State) : State :=
  match opTake p 0xA 5 s with
  | none => s
  | some (r, s) =>
    if s.rootPort = some p then
      let s := lineAck p r.endAt r.frm s
      if r.frm.arg1 = 1 then
        let x := s.port p
        let s := s.setPort p { x with regs := (r.frm.sdev, devList (min r.frm.arg2 (r.frm.data.length / 2)) r.frm.data) :: x.regs.filter (fun g => g.1 != r.frm.sdev) }
        if s.b Reg.LINEKEY.SYSSTAT 30 then (s.setF Reg.LINEKEY.SYSSTAT 12 0 (s.rootCount p)).setF Reg.LINEKEY.SYSSTAT 21 20 (s.rootLevels p) else formAdvance s
      else s
    else lineDrop p s

/-! ## ROOT, keys, FORMED (R561, R563, R565) -/

/-- ROOT_RECEIVE. -/
def rootReceive (p : Nat) (s : State) : State :=
  match opTake p 0xA 6 s with
  | none => s
  | some (r, s) =>
    let s := s.setReg Reg.LINEKEY.SYSROOT (BitVec.ofNat 32 (2 ^ 31 + r.frm.sdev))
    let s := ((s.setF Reg.LINEKEY.SYSSTAT 21 20 r.frm.arg1).setF Reg.LINEKEY.SYSSTAT 12 0 r.frm.arg2).setF Reg.LINEKEY.SYSSTAT 30 30 0
    let x := s.port p
    let s := if x.role = .member ∧ ¬x.joined ∧ s.phase = 2 then
        queueOwn p (discTo true x.headDev 3 (b2n (s.portUp p && !s.leafPorts.isEmpty) + 2 * s.f Reg.LINEKEY.SYSCFG 31 31) (s.pidx p) []) (s.setPort p { x with joined := true, late := true })
      else s
    let s := if s.phase = 2 then formAdvance s else s
    if s.phase = 3 then formAdvance (s.setPhase 4) else s
/-- KEYCHK_RECEIVE. -/
def keychkReceive (p : Nat) (s : State) : State :=
  match opTake p 0xA 7 s with
  | none => s
  | some (r, s) =>
    let n := min r.frm.arg1 (r.frm.data.length / 6)
    let ok := s.txEntries.all (fun i => s.keyListed i n r.frm.data) && (s.txKey 0 0).isSome
    formAdvance (s.setLine { s.line with keyOk := some ok })
/-- KEYRES_RECEIVE. -/
def keyresReceive (p : Nat) (s : State) : State :=
  match opTake p 0xA 8 s with
  | none => s
  | some (r, s) =>
    let x := s.port p
    if x.role = .head then
      let s := lineAck p r.endAt r.frm s
      let x := s.port p
      let a : KeyAns := ⟨r.frm.sdev, r.frm.arg2, leNat ((r.frm.data.drop 2).take 2), leNat (r.frm.data.take 2)⟩
      formAdvance (s.setPort p { x with keyAns := a :: x.keyAns.filter (fun k => k.dev != r.frm.sdev) })
    else lineDrop p s
/-- FORMED_RECEIVE. -/
def formedReceive (p : Nat) (s : State) : State :=
  match opTake p 0xA 9 s with
  | none => s
  | some (r, s) => becomeFormed (s.setF Reg.LINEKEY.SYSSTAT 12 0 r.frm.arg2)
/-- ROOT_REPEAT (R565). -/
def rootRepeat (s : State) : State :=
  if s.b Reg.LINEKEY.SYSSTAT 30 ∧ s.formed ∧ 256 ≤ s.line.rep then
    let s := s.setLine { s.line with rep := 0 }
    let s := rootFrame s
    queueRoot s.keychk s
  else s

/-! ## Barrier, snapshot, reset (R568-R573) -/

/-- T of a SYS frame as device time in ns. -/
def State.sysTime (s : State) (f : Frm) : Int :=
  let sec := s.nsAt s.now / 1000000000
  (sec + signedMod ((leNat ((f.pay.drop 4).take 4) : Nat) - sec) (2 ^ 32)) * 1000000000 + (leNat ((f.pay.drop 8).take 4) : Nat)
/-- T has been reached. -/
def State.reached (s : State) (t : Int) : Bool := decide (t * nsUnit ≤ s.timeAt s.now)

/-- A bound on arrivals is met: ARRIVE or RELEASE is queued (R570). -/
def barrierCheck (s : State) : State :=
  let b := Reg.LINEKEY.BARRIER
  if s.b b 30 ∧ ¬s.line.arriveSent then
    let id := s.f b 7 0
    let n := 1 + (s.line.arrivals.filter (fun a => a.1 == id)).foldl (fun n a => n + a.2.2) 0
    match s.rootPort with
    | some _ =>
      if s.f Reg.LINEKEY.SYSSTAT 12 0 ≤ n then
        queueRoot ⟨0xB, 0, false, true, 0, 0, 0, 0, [2, id, 0, 0, 0, 0, 0, 0, 0, 0, 0, 0]⟩ (s.setLine { s.line with arriveSent := true })
      else s
    | none =>
      match s.upPort with
      | some u =>
        if 1 + s.leafPorts.foldl (fun n q => n + (s.port q).roster.length) 0 ≤ n then
          queueOwn u ⟨0xB, 0, true, false, (s.port u).headDev, 0, 0, 2, [1, id] ++ leBytes n 2 ++ [0, 0, 0, 0, 0, 0, 0, 0]⟩ (s.setLine { s.line with arriveSent := true })
        else s
      | none => s
  else s

/-- A write to BARRIER (R570, R573, R575). -/
def barrierWrite (v : Nat) (s : State) : State :=
  let b := Reg.LINEKEY.BARRIER
  if bitsOf v 27 16 < 0x800 ∨ ¬s.formed ∨ (s.b b 30 ∧ bitsOf v 7 0 ≠ s.f b 7 0) then s.capture Reg.LINEKEY.page 0x9B 0x418
  else
    let s := if bitOf v 29 then s.setF b 29 29 0 else s
    let s := s.swStore b (BitVec.ofNat 32 (putBits (putBits (s.reg b).toNat 27 16 (bitsOf v 27 16)) 7 0 (bitsOf v 7 0)))
    if bitOf v 31 then barrierCheck ((if s.b b 30 then s else s.setLine { s.line with arriveSent := false }).setF b 30 30 1)
    else if s.b b 30 then s.setF b 30 30 0 else s

/-- ARRIVE_RECEIVE. -/
def arriveReceive (p : Nat) (s : State) : State :=
  match opTake p 0xB 1 s with
  | none => s
  | some (r, s) =>
    if (s.port p).role = .head then
      let s := lineAck p r.endAt r.frm s
      let a := (r.frm.arg1, r.frm.sdev, r.frm.arg2)
      barrierCheck (s.setLine { s.line with arrivals := a :: s.line.arrivals.filter (fun x => !(x.1 == a.1 && x.2.1 == a.2.1)) })
    else lineDrop p s
/-- RELEASE, SNAP and RESET act only from the root and while FORMED (R568). -/
def State.sysTrusted (s : State) (f : Frm) : Bool := s.formed && f.sdev == s.f Reg.LINEKEY.SYSROOT 11 0

/-- A release of barrier `id` at `t` (R570, R573). -/
def armRelease (id : Nat) (t : Int) (s : State) : State :=
  if s.reached t then sysEvent (sysLate s)
  else if s.b Reg.LINEKEY.BARRIER 30 ∧ s.f Reg.LINEKEY.BARRIER 7 0 = id then s.setLine { s.line with release := some t } else sysLate s
def releaseReceive (p : Nat) (s : State) : State :=
  match opTake p 0xB 2 s with
  | none => s
  | some (r, s) => if s.sysTrusted r.frm then armRelease r.frm.arg1 (s.sysTime r.frm) s else sysLate s
/-- An armed capture (R571, R573). -/
def armSnap (id ev : Nat) (t : Int) (s : State) : State :=
  if s.reached t then sysEvent (sysLate s)
  else if 4 ≤ s.line.snaps.length then sysLate s
  else s.setLine { s.line with snaps := s.line.snaps ++ [(t, id, ev)] }
def snapReceive (p : Nat) (s : State) : State :=
  match opTake p 0xB 3 s with
  | none => s
  | some (r, s) => if s.sysTrusted r.frm then armSnap r.frm.arg1 (r.frm.arg2 % 4096) (s.sysTime r.frm) s else sysLate s
/-- RESET_RECEIVE: the flag says that the reset begins at once (R572, R573). -/
def resetReceive (p : Nat) (s : State) : Bool × State :=
  match opTake p 0xB 4 s with
  | none => (false, s)
  | some (r, s) =>
    if s.sysTrusted r.frm ∧ s.b Reg.LINEKEY.SYSCFG 30 then
      let t := s.sysTime r.frm
      if s.reached t then (true, s) else (false, s.setLine { s.line with reset := some t })
    else (false, sysLate s)

/-- The edge at which an action armed for `t` acts: the first ACLK edge at or after it, or the edge of a step past it (R570-R573). -/
def State.actEdge (s : State) (t : Int) : Nat :=
  match s.line.stepAt with
  | some e => if t * nsUnit ≤ s.timeAt e then e else alignUp 8 (s.nsEdge t)
  | none => alignUp 8 (s.nsEdge t)
def State.actStepped (s : State) (t : Int) : Bool :=
  match s.line.stepAt with
  | some e => decide (t * nsUnit < s.timeAt e)
  | none => false

/-- BARRIER_RELEASE (R570). -/
def barrierRelease (s : State) : State :=
  match s.line.release with
  | none => s
  | some t =>
    let s := s.moveTo (s.actEdge t)
    let b := Reg.LINEKEY.BARRIER
    let id := s.f b 7 0
    let s := s.raiseSw (s.f b 27 16)
    let s := (s.setF b 30 30 0).hwSet b 0x20000000#32
    sysEvent (s.setLine { s.line with release := none, arriveSent := false, arrivals := s.line.arrivals.filter (fun a => a.1 != id) })

/-- The armed capture with the least T. -/
def firstSnap : List (Int × Nat × Nat) → Option (Int × Nat × Nat)
  | [] => none
  | a :: l =>
    match firstSnap l with
    | none => some a
    | some b => if a.1 ≤ b.1 then some a else some b
/-- SNAPSHOT_CAPTURE (R571, R573). -/
def snapCapture (s : State) : State :=
  match firstSnap s.line.snaps with
  | none => s
  | some (t, id, ev) =>
    let stepped := s.actStepped t
    let s := s.moveTo (s.actEdge t)
    let s := s.setLine { s.line with snaps := s.line.snaps.erase (t, id, ev) }
    let s := s.raiseSw ev
    let s := s.setReg Reg.LINEKEY.SNAPLAST (BitVec.ofNat 32 (2 ^ 31 + b2n stepped * 2 ^ 30 + id % 256))
    let s := s.setReg Reg.LINEKEY.SNAPNS (BitVec.ofNat 32 (t % 1000000000).toNat)
    sysEvent (s.setReg Reg.LINEKEY.SNAPSEC (BitVec.ofNat 32 (t / 1000000000).toNat))

/-- LINE_RESET: the edge of an armed reset, one ACLK later when another action has the same T (R572, R573). -/
def State.resetEdge (s : State) : Option Nat :=
  match s.line.reset with
  | none => none
  | some t => some (s.actEdge t + (if s.line.release = some t ∨ s.line.snaps.any (fun a => a.1 == t) then 8 else 0))

/-- A time step at the current edge (R246, R530, R573). -/
def lineStep (s : State) : State :=
  let s := (List.range 4).foldl (fun t p => t.setPort p { t.port p with tc := none, reads := [] }) s
  s.setLine { s.line with stepAt := some s.now }

/-! ## Frames in (R522) -/

/-- A TURN heard by a member (R558); a bridge asked for keys again asks its leaves (R563). -/
def turnHear (p e : Nat) (f : Frm) (s : State) : State :=
  let x := s.port p
  if x.role = .member then
    let s := s.setPort p { x with turn := some ⟨f.arg1, f.arg2 % 256, bitsOf f.arg2 11 8, e⟩, headDev := f.sdev }
    if f.arg1 = 5 ∧ s.phase = 6 ∧ ¬s.leafPorts.isEmpty then
      (s.leafPorts.foldl (fun t q => t.setPort q { t.port q with keyAns := [] }) s).setPhase 5
    else s
  else lineDrop p s
/-- A REGREQ heard by a bridge: the answer leaves at GAP (R560). -/
def regreqHear (p e : Nat) (f : Frm) (s : State) : State :=
  if s.portUp p ∧ ¬s.leafPorts.isEmpty then (lineSendAt p (e + s.lineGap p) (s.registerSpec false f.sdev) s).2 else lineDrop p s

/-- An accepted frame addressed here goes to its consumer's inbox (R522 step 11). -/
def lineConsume (p : Nat) (r : RxRec) (s : State) : State :=
  let f := r.frm
  let t := f.typ
  let put := fun (s : State) => s.setPort p { s.port p with inbox := (s.port p).inbox ++ [r] }
  if s.b (Reg.LINE.CFG p) 0 then (if t = 7 ∨ t = 8 then put s else lineDrop p s)
  else if t = 0xA then
    let s := if s.enrolled f.sdev then s else discEvent (s.setReg Reg.LINEKEY.UNKNOWN (BitVec.ofNat 32 (2 ^ 31 + f.sdev)))
    if f.op = 2 then turnHear p r.endAt f s
    else if f.op = 4 then regreqHear p r.endAt f s
    else if 1 ≤ f.op ∧ f.op ≤ 9 then put s else lineDrop p s
  else if t = 0xB then (if 1 ≤ f.op ∧ f.op ≤ 4 then put s else lineDrop p s)
  else if 1 ≤ t ∧ t ≤ 6 then put s
  else lineDrop p s

/-- Steps 4 to 10 of R522 for a frame whose CRC is right. -/
def lineJudge (p : Nat) (f : Frm) (stamp : Int) (e : Nat) (s : State) : State :=
  let fmt := fun (s : State) => lineCount (Reg.LINE.FMTERR p) s
  if f.typ = 0 ∨ 0xB < f.typ ∨ bitOf f.h0 24 ∨ bitOf f.h1 11 ∨ 2 < f.hop then fmt s
  else if f.sdev = s.devNum then lineCause p 7 (s.hwSet (Reg.LINE.STATUS p) 0x40000000#32)
  else
    let good : Bool := match s.rxKey f.ksel f.sten f.kgen with
      | some i => f.tagOk (s.lineKey i)
      | none => false
    if ¬good ∨ (f.typ ≠ 0xA ∧ ¬s.enrolled f.sdev) ∨ (f.ksel = 1 ∧ f.sten ≠ f.dten) then lineStranger p f s
    else if ¬seqNewer f.seq (s.lineLast f.sdev) then
      let s := lineCount (Reg.LINE.REPLAY p) s
      if f.seq = s.lineLast f.sdev ∧ f.ddev = s.devNum then lineAck p e f s else s
    else
      let s := s.setLine { s.line with last := tput (fun _ => 0) s.line.last f.sdev f.seq }
      let here := f.bc || f.ddev == s.devNum
      let s := if f.bc || !here then lineForward p e f s else s
      if here then lineConsume p ⟨f, stamp, e⟩ s else s

/-- FRAME_RECEIVE: a frame with this body whose reference edge came at edge `ref`; `ok` says that its delimiters and symbols were right, `chk` how many CCLK the TAG check took (R522). -/
def frameReceive (p : Nat) (ok : Bool) (body : List Nat) (ref chk : Nat) (s : State) : State :=
  let x := s.port p
  let bd := s.lineBaud p
  let e := ref + (7 + 10 * body.length) * bd
  if s.lineTalks p ∧ ¬(x.tx.any (fun t => decide (t.at_ < e) && decide (ref < x.txEnd + 28 * bd))) then
    let s := s.moveTo (e + min chk 64)
    let stamp := s.timeAt ref - s.rxLat p
    let s := s.setPort p { s.port p with idleAt := max x.idleAt e, waitAt := max x.waitAt (e + s.lineGap p) }
    let fmt := lineCount (Reg.LINE.FMTERR p) s
    if ¬ok ∨ body.length < 24 then fmt
    else
      let f := parseFrm body
      if 512 < f.len ∨ body.length ≠ 24 + f.len then fmt
      else if leNat (body.drop (body.length - 4)) ≠ crc32 (body.take (body.length - 4)) then lineCount (Reg.LINE.CRCERR p) s
      else
        let s := if f.ack && !f.bc then s.setPort p { s.port p with idleAt := max (s.port p).idleAt (e + 2 * s.lineGap p + 5040) } else s
        lineJudge p f stamp e s
  else s

/-- CYCLE_RECEIVE (R541, R529, R557). -/
def cycleReceive (p : Nat) (s : State) : State :=
  match inboxTake p 1 s with
  | none => s
  | some (r, s) =>
    if (s.port p).headNow then lineDrop p s
    else
      let s := cycleTake p r s
      let x := s.port p
      if s.phase = 1 ∧ x.role = .cand ∧ s.portClass p ≠ 2 then
        becomeMember p (queueOwn p (discTo true r.frm.sdev 3 (2 * s.f Reg.LINEKEY.SYSCFG 31 31) (s.pidx p) []) (s.setPort p { x with joined := true, late := true }))
      else formAdvance s

/-- The miss of a formed port whose head is lost: phases 1 and 2 on that segment (R565). -/
def headLost (p : Nat) (s : State) : State :=
  if s.phase = 6 ∨ s.formed then
    let s := (s.setPhase 1).setF Reg.LINEKEY.SYSSTAT 31 31 0
    formAdvance (s.setPort p ((s.port p).enter (s.portUp p) s.now))
  else s

/-! ## The cycle start (R527) -/

/-- Slots and angles that got nothing in the cycle just ended (R533, R545). -/
def staleMarks (p : Nat) (s : State) : State :=
  let x := s.port p
  let lost := (List.range 32).filter (fun k => s.b (Reg.LINE.RSCTL p k) 31 && !x.stored.contains k)
  let s := lost.foldl (fun t k => t.setF (Reg.LINE.RSSTAT p k) 31 31 1) s
  let s := if lost.isEmpty then s else lineCause p 3 s
  (List.range 16).foldl (fun t k =>
    if t.b (Reg.LINEKEY.ANGRX k) 31 ∧ t.f (Reg.LINEKEY.ANGRX k) 17 16 = p ∧ ¬x.angs.contains k then angMissed k t else t) s

/-- CYCLE_START of port `p`. -/
def cycleStart (p : Nat) (s : State) : State :=
  if s.lineFull p then
    let t := s.nextTc p
    let s := s.moveTo (alignUp 8 (s.nsEdge t))
    let s := if (s.port p).tc.isSome then staleMarks p s else s
    let s := passEnd p s
    let x := s.port p
    let s := s.setPort p { x with
      tc := some t, headNow := s.b (Reg.LINE.ROLE p) 0, judged := false, strange := false, stored := [], angs := [], turned := false,
      dlyCnt := x.dlyCnt - 1 }
    let s := lineEvent p 0 s
    let s := if (List.range p).any (fun q => s.lineFull q) then s else calBoundary s
    let s := if (s.port p).headNow ∧ s.lineTalks p then cycleSend p t s else s
    let s := if s.rootPort = some p then s.setLine { s.line with rep := s.line.rep + 1 } else s
    formAdvance s
  else s

/-! ## The contention window (R534, R535) -/

/-- What sending a frame of the device itself does to the root (R561, R563, R570-R572). -/
def sentHook (p : Nat) (f : Frm) (s : State) : State :=
  if s.rootPort = some p then
    if f.typ = 0xA ∧ f.op = 6 ∧ s.phase = 3 then
      let s := (s.setPhase 5).setLine { s.line with keyOk := some true }
      let s := s.headPorts.foldl (fun t q => t.setPort q { t.port q with keyAns := [], keySent := false }) s
      formAdvance (queueRoot s.keychk s)
    else if f.typ = 0xA ∧ f.op = 9 then becomeFormed s
    else if f.typ = 0xB ∧ f.op = 2 then armRelease f.arg1 (s.sysTime f) s
    else if f.typ = 0xB ∧ f.op = 3 ∧ s.formed then armSnap f.arg1 (f.arg2 % 4096) (s.sysTime f) s
    else if f.typ = 0xB ∧ f.op = 4 ∧ s.formed then s.setLine { s.line with reset := some (s.sysTime f) }
    else s
  else s

/-- A RELEASE takes the T of the cycle in which it is sent (R570). -/
def releaseTime (p : Nat) (f : Frm) (s : State) : Frm :=
  if f.typ = 0xB ∧ f.op = 2 then
    match (s.port p).tc, s.txKey 0 0 with
    | some tc, some i =>
      let t := tc + (s.f Reg.LINEKEY.SYSSTAT 21 20 : Nat) * s.lineL p
      let pay := f.pay.take 4 ++ leBytes (t / 1000000000).toNat 4 ++ leBytes (t % 1000000000).toNat 4
      { f with pay := pay, tag := frmTag (s.lineKey i) f.h0 f.h1 f.h2 pay }
    | _, _ => f
  else f

/-- CONTENTION_SEND at edge `at_`, which the backoff leaves to the line (R534). -/
def contentionSend (p at_ : Nat) (s : State) : State :=
  if s.lineTalks p ∧ ¬(s.port p).cont.any (fun c => c.wait.isSome) then
    let s := s.moveTo at_
    let r := match (s.port p).cont with
      | some c => (some c, s)
      | none => contPick p s
    match r.1 with
    | none => r.2
    | some c =>
      let s := r.2
      let own := decide (c.src = .own)
      let c := if own then { c with frm := releaseTime p c.frm s } else c
      let s := s.setPort p { s.port p with cont := some c }
      if s.windowFits p c.frm ∧ (s.port p).idleAt + s.lineGap p ≤ s.now then
        let s := lineLaunch p s.now c.frm s
        let s := if c.src = .fwd then s else sentHook p c.frm s
        let y := s.port p
        let s := if own ∧ c.frm.typ = 5 then s.setPort p { y with dly := some ((y.tx.map (·.ref)).getD 0, y.txEnd + s.lineGap p + 9600) } else s
        if c.frm.ack && !c.frm.bc then s.setPort p { s.port p with cont := some { c with wait := some ((s.port p).txEnd + s.lineGap p + 6400) } }
        else contDone p 1 c s
      else s
  else s

/-- ACK_RECEIVE (R535). -/
def ackReceive (p : Nat) (s : State) : State :=
  match inboxTake p 4 s with
  | none => s
  | some (r, s) =>
    match (s.port p).cont with
    | some c =>
      match c.wait with
      | some w => if r.endAt ≤ w ∧ leNat (r.frm.pay.take 4) = c.frm.seq then contDone p 2 c s else lineDrop p s
      | none => lineDrop p s
    | none => lineDrop p s

/-- ACK_TIMEOUT (R534); an ARRIVE is sent again in later windows (R570). -/
def ackTimeout (p : Nat) (s : State) : State :=
  match (s.port p).cont with
  | none => s
  | some c =>
    match c.wait with
    | none => s
    | some w =>
      let s := s.moveTo w
      let n := c.tries + 1
      if s.f (Reg.LINE.CONT p) 11 8 < n then
        let s := lineCause p 5 (lineCount (Reg.LINE.COLL p) s)
        let s := contDone p 3 c s
        if c.src = .own ∧ c.frm.typ = 0xB then s.setPort p { s.port p with own := (s.port p).own ++ [c.frm] } else s
      else s.setPort p { s.port p with cont := some { c with tries := n, be := min (c.be + 1) (s.f (Reg.LINE.CONT p) 7 4), wait := none } }

/-- Clearing EN of a port: what is in progress ends; a later enable starts anew (R542). -/
def lineStop (p : Nat) (s : State) : State :=
  let x := s.port p
  s.setPort p { LinePort.idle with idleAt := x.idleAt, txEnd := x.txEnd, tx := x.tx }

end Sys2Proof.Machine
end

