-- ==== Sys2Proof/Machine/Power.lean ====
section
/-! DEFINITION. Power, clocks, reset and boot (chapter 20): start-up (R592-R594), boot (R595-R598, R613, R615), supplies and clocks (R578-R580), temperature (R590, R591), DOZE, WATCH and SHELF (R581-R586), fuses (R601). -/

namespace Sys2Proof.Machine

def State.setPlat (s : State) (p : PlatSt) : State := { s with plat := p }
/-- Core power and clocks are on: commands on the device's blocks have an effect. -/
def State.awake (s : State) : Bool := s.plat.power == .run
/-- The same, or DOZE, in which the Caliper, the line ports and the event fabric run (R581). -/
def State.dozing (s : State) : Bool := s.plat.power == .run || s.plat.power == .doze
/-- A meaning that acts while the device runs. -/
def onRun (f : State → State) (s : State) : State := if s.awake then f s else s
def onDoze (f : State → State) (s : State) : State := if s.dozing then f s else s

/-! ## Reset (R592, R593) -/

/-- Registers of the always-on island, kept over every reset but POR (R593, R599). -/
def islandReg (a : Nat) : Bool :=
  (decide (Reg.PWR.page + 0x48 ≤ a) && decide (a < Reg.PWR.page + 0x1000)) || a == Reg.RST.CAUSE || a == Reg.RST.LAST || a == Reg.RST.COUNT

/-- A channel slice at reset, its pins at their levels: qualification of an active trip pin starts (R58, R192, log 96). -/
def chanBlank (now : Nat) (x : ChanSt) : ChanSt :=
  { ChanSt.idle with
    pins := x.pins
    pos := { PosSt.idle with quad := x.pos.quad }
    trip := {
      TripSt.idle with
      lvlA := x.trip.lvlA
      lvlB := x.trip.lvlB
      firstA := if x.trip.lvlA then some (now + 1) else none
      firstB := if x.trip.lvlB then some (now + 1) else none } }
/-- Every channel slice at reset; a slice without a pin level has no entry. -/
def chansBlank (s : State) : List (Nat × ChanSt) :=
  (s.chans.map (fun k => (k.1, chanBlank s.now k.2))).filter (fun k => k.2 ≠ ChanSt.idle)

/-- All state outside the island at its reset value; the queue, the clock and the fuses stay. -/
def blank (p : PlatSt) (s : State) : State :=
  let z := State.reset
  { s with
    rel := s.rel, edge := ⟨s.now, [], [], [], [], []⟩, answer := z.answer, data := z.data, regs := s.regs.filter (fun r => islandReg r.1),
    live := z.live, pages := z.pages, held := z.held, flight := z.flight, chans := chansBlank s, cal := z.cal, maqs := z.maqs, mem := z.mem,
    synds := z.synds, rasp := z.rasp, cores := z.cores, invs := z.invs, ped := z.ped, arm := z.arm, scans := z.scans, dwPend := z.dwPend,
    mbox := z.mbox, line := z.line, host := { z.host with gpio := { z.host.gpio with pins := s.host.gpio.pins } }, plat := p }

/-- Order of the start-up steps. -/
def StartStep.rank : StartStep → Nat
  | .aon => 0
  | .wait => 1
  | .core => 2
  | .rails => 3
  | .osc => 4
  | .pll => 5
  | .pin => 6
  | .fuses => 7
  | .none => 8
/-- Where a cause starts (R592). -/
def resetStep (code : Nat) : StartStep :=
  if code = 1 then .aon else if code = 2 then .pin else if code = 3 ∨ code = 4 then .wait else if code = 8 then .core else .fuses

/-- A reset with cause `code` begins at this edge. -/
def resetBegin (code : Nat) (s : State) : State :=
  if s.plat.power = .off then s
  else
    let same := s.plat.resetAt == some s.now
    let busy := s.plat.power == .start
    let s := s.setReg Reg.RST.CAUSE (s.reg Reg.RST.CAUSE ||| BitVec.ofNat 32 (2 ^ (code - 1)))
    let s := s.setReg Reg.RST.LAST (BitVec.ofNat 32 (if same then min code (s.f Reg.RST.LAST 3 0) else code))
    let s := if same then s else s.cntAdd Reg.RST.COUNT 31 0 1 true
    let new := resetStep code
    let keep : Bool := busy && decide (s.plat.step.rank < new.rank)
    let dur := if code = 3 then 8000000 else if code = 4 then 800000000 else 0
    let from_ := if keep then s.plat.from_ else if new = .wait ∧ busy ∧ s.plat.step = .wait then max s.plat.from_ (s.now + dur) else s.now + dur
    let rails := decide (4 ≤ code) && code != 4
    let p := s.plat
    let on : Bool := if code = 8 then true else if code = 3 ∨ code = 4 then false else p.coreEn
    blank { p with
      power := .start, step := if keep then p.step else new, from_ := from_, coreEn := on, ioEn := p.ioEn && (rails || code == 2) && code != 8,
      down := none, dozing := false, arms := [], pgm := none, resetAt := some s.now, boot := BootSt.idle } s

/-- POWER_ON (R594). -/
def powerOn (xmode : Bool) (s : State) : State :=
  if s.plat.power = .off then
    let s := blank { PlatSt.idle with power := .start, step := .aon, from_ := s.now, porAt := s.now, fuses := s.plat.fuses, xmode := xmode, resetAt := some s.now } s
    { s with regs := [] }
  else s
/-- LOSS_OF_VAON (R581). -/
def powerLoss (s : State) : State :=
  let s := blank { PlatSt.idle with fuses := s.plat.fuses } s
  { s with regs := [], host := HostSt.idle }

/-- The step waits for `k`. -/
def State.atStep (s : State) (k : StartStep) : Bool := s.plat.power == .start && s.plat.step == k
/-- The step ends at edge `t`. -/
def stepTo (k : StartStep) (t : Nat) (s : State) : State :=
  let s := s.moveTo t
  s.setPlat { s.plat with step := k, from_ := s.now }
/-- CORE_ENABLE: 33 ticks of the island clock. -/
def coreEnable (s : State) : State :=
  if s.atStep .aon then
    let s := stepTo .core (s.plat.from_ + 805665) s
    s.setPlat { s.plat with coreEn := true }
  else s
/-- POWER_CYCLE_RESTART: the wait with rails dropped is over. -/
def powerCycle (s : State) : State :=
  if s.atStep .wait then
    let s := stepTo .core s.plat.from_ s
    s.setPlat { s.plat with coreEn := true }
  else s
/-- IO_ENABLE: 100 µs after VCORE, which was good `good` CCLK after CORE_EN (R577). -/
def ioEnable (good : Nat) (s : State) : State :=
  if s.atStep .core then
    let s := stepTo .rails (s.plat.from_ + good + 80000) s
    s.setPlat { s.plat with ioEn := true }
  else s
/-- RAILS_GOOD, `t` CCLK after IO_EN. -/
def railsGood (t : Nat) (s : State) : State := if s.atStep .rails then stepTo .osc (s.plat.from_ + t) s else s
/-- OSC_VALID: 1,024 edges of 25 MHz after the oscillator's start of `t` CCLK. -/
def oscValid (t : Nat) (s : State) : State := if s.atStep .osc then stepTo .pll (s.plat.from_ + t + 32768) s else s
/-- PLL_LOCK within 50 µs. -/
def pllLock (t : Nat) (s : State) : State := if s.atStep .pll then stepTo .fuses (s.plat.from_ + min t 40000) s else s
/-- RESET_RELEASE: RESET_N rises. -/
def resetRelease (s : State) : State := if s.atStep .pin then stepTo .fuses s.now s else s

/-- A new nonce in CHAL (R631). -/
def newNonce (s : State) : State :=
  (List.range 4).foldl (fun t m =>
    let r := t.takeFree 0x2200
    r.2.setReg (Reg.DEBUG.CHAL m) (BitVec.ofNat 32 r.1)) s

/-- FUSE_READ_DONE: the blocks are released; edge 0 of R404 (R594 steps 5 and 6, R631). -/
def fuseReadDone (s : State) : State :=
  if s.atStep .fuses then
    let s := s.moveTo (alignUp 8 (s.plat.from_ + 16000))
    let s := { s.setPlat { s.plat with power := .run, step := .none } with rel := s.now }
    let fuse := fun (i : Nat) => lget 0#32 s.plat.fuses i
    let s := (List.range 8).foldl (fun t k => t.setReg (Reg.FUSE.KEYHASH k) (fuse k)) s
    let s := (s.setReg Reg.FUSE.SVN (fuse 8)).setReg Reg.FUSE.CFG (fuse 9 &&& 1#32)
    let s := s.setReg Reg.CLK.STATUS (BitVec.ofNat 32 (2 ^ 31 + 7 * 2 ^ 27 + b2n s.plat.x32 * 2 ^ 26 + b2n s.plat.xmode))
    let s := if s.plat.watchOk then cmpWatchOk true s else s
    let s := s.setRasp { s.rasp with fillAt := some s.now }
    let s := newNonce s
    let s := if s.b Reg.FUSE.CFG 0 then s else (s.setReg Reg.DEBUG.SESSION 0xF8000000#32).setReg Reg.DEBUG.STATUS 0xC0000000#32
    if s.b Reg.PWR.WAKEREC0 31 then s.setStatBit Reg.PWR.page 0 else s
  else s

/-! ## Boot (R595-R598) -/

def State.setBoot (s : State) (b : BootSt) : State := s.setPlat { s.plat with boot := b }
/-- No source passed: every copy is held in WAIT (R596). -/
def bootFail (code : Nat) (s : State) : State :=
  let s := (s.setF Reg.BOOT.STATUS 7 0 code).setF Reg.BOOT.STATUS 30 30 1
  let s := (List.range 3).foldl (fun t k =>
    t.setCore (96 + k) { t.core (96 + k) with cur := some { t.freshAct (96 + k) 16 t.now with wait := true } }) s
  (s.setBoot { s.plat.boot with cur := none, sources := [], wait := false }).setPed { s.ped with rom := false, ckptAt := s.now }
/-- The next source (R595). -/
def bootNext (s : State) : State :=
  match s.plat.boot.sources with
  | [] => bootFail (s.f Reg.BOOT.STATUS 7 0) s
  | k :: r => s.setBoot { s.plat.boot with sources := r, cur := some k, img := none, wait := decide (k = 2), from_ := s.now, got := false, bytes := [] }
/-- The current source fails with `code`. -/
def sourceFail (code : Nat) (s : State) : State := bootNext (s.setF Reg.BOOT.STATUS 7 0 code)
/-- The copies enter the boot ROM at source selection, BOOT.STATUS.MODE sampled. -/
def bootSelect (s : State) : State :=
  let s := (s.setF Reg.BOOT.STATUS 31 31 0).setF Reg.BOOT.STATUS 30 30 0
  match s.f Reg.BOOT.STATUS 25 24 with
  | 0 => bootNext (s.setBoot { s.plat.boot with sources := [0, 1] })
  | 1 => bootNext (s.setBoot { s.plat.boot with sources := [2] })
  | 2 => bootNext (s.setBoot { s.plat.boot with sources := [0, 1, 2] })
  | _ => bootFail 8 s
/-- The ROM's look at FILLSTAT and the VERIFY records (R597). -/
def bootMemCheck (s : State) : State :=
  if s.b Reg.RASP.FILLSTAT 30 then
    let s := s.setF Reg.BOOT.STATUS 28 28 1
    let inPed := s.rasp.log.any (fun r => bitsOf r.w2.toNat 19 16 == 6 &&
      (let a := r.w0.toNat + bitsOf r.w1.toNat 7 0 * 2 ^ 32
       decide (0xD0000000 ≤ a) && decide (a < 0xD0180000)))
    if inPed then bootFail 6 s else bootSelect s
  else bootSelect s
/-- Release of the copies at SDONE (R594 step 7). -/
def pedRelease (bootmode : Nat) (s : State) : State :=
  let s := s.setF Reg.BOOT.STATUS 25 24 bootmode
  bootMemCheck (s.setPed { s.ped with ckptAt := s.now })
/-- FILL_DONE with BOOTMODE as sampled. -/
def fillRelease (bootmode : Nat) (s : State) : State :=
  let was := s.b Reg.RASP.FILLSTAT 31
  let s := fillDone s
  if !was && s.b Reg.RASP.FILLSTAT 31 then pedRelease bootmode s else s

/-- BOOT_IMAGE_LOAD: the bytes read from the flash slot at 25 MB/s, or those that arrived from the host (R595). -/
def bootLoad (bytes : List Nat) (s : State) : State :=
  let b := s.plat.boot
  match b.cur with
  | none => s
  | some 2 => s.setBoot { b with img := some b.bytes }
  | some _ =>
    let s := s.moveTo (b.from_ + 32 * bytes.length)
    s.setBoot { s.plat.boot with img := some bytes }

/-- A word for the ROM from the host (R613). -/
def bootWord (w : Word) (s : State) : State :=
  let b := s.plat.boot
  if b.wait then s.setBoot { b with bytes := b.bytes ++ leBytes w.toNat 4, from_ := s.now, got := true } else s

/-- The checks of R596 and R615: the failure code, 0 for a pass. -/
def imageCode (keyprog : Bool) (hash : List Nat) (svn : Nat) (m : List Nat) : Nat :=
  let at_ := fun (o n : Nat) => (m.drop o).take n
  let zero := fun (o n : Nat) => (at_ o n).all (fun b => b == 0)
  let len := leNat (at_ 8 4)
  if m.length < 256 ∨ leNat (at_ 0 4) ≠ 0x38344A43 ∨ leNat (at_ 4 2) ≠ 1 ∨ ¬zero 6 2 ∨ ¬zero 0x14 12 ∨ ¬zero 0xA0 96 then 1
  else if len % 4 ≠ 0 ∨ 491520 < 256 + len ∨ m.length < 256 + len then 5
  else if keyprog ∧ sha256 (at_ 0x20 64) ≠ hash then 2
  else
    let z := beNat (sha256 (at_ 0 0x60 ++ at_ 0xA0 0x60 ++ at_ 0x100 len))
    if ¬ecdsaOk (beNat (at_ 0x20 32)) (beNat (at_ 0x40 32)) (beNat (at_ 0x60 32)) (beNat (at_ 0x80 32)) z then 3
    else if leNat (at_ 0x10 4) < svn then 4
    else 0

/-- Write bytes at ascending addresses. -/
def setBytes : Nat → List Nat → State → State
  | _, [], s => s
  | a, b :: l, s => setBytes (a + 1) l (s.setByte a (BitVec.ofNat 8 b))

/-- IMAGE_VERIFY (R596). -/
def imageVerify (s : State) : State :=
  match s.plat.boot.cur, s.plat.boot.img with
  | some src, some m =>
    let keyprog := s.b Reg.FUSE.CFG 0
    let hash := (List.range 8).flatMap (fun k => leBytes (s.reg (Reg.FUSE.KEYHASH k)).toNat 4)
    let code := imageCode keyprog hash (popcount 32 (s.reg Reg.FUSE.SVN).toNat) m
    if code = 0 then
      let len := 256 + leNat ((m.drop 8).take 4)
      let s := ((s.setF Reg.BOOT.STATUS 31 31 1).setF Reg.BOOT.STATUS 27 26 src).setF Reg.BOOT.STATUS 29 29 (b2n !keyprog)
      let s := (s.setReg Reg.BOOT.IMGSVN (BitVec.ofNat 32 (leNat ((m.drop 0x10).take 4)))).setReg Reg.BOOT.IMGLEN (BitVec.ofNat 32 len)
      let s := (List.range 3).foldl (fun t k => setBytes (0xD0000000 + k * 0x80000) (m.take len) t) s
      let pc := BitVec.ofNat 32 (0xD0000000 + leNat ((m.drop 0xC).take 4))
      let s := (List.range 3).foldl (fun t k =>
        t.setCore (96 + k) { t.core (96 + k) with cur := some { t.freshAct (96 + k) 16 t.now with pc := pc } }) s
      (s.setBoot { s.plat.boot with cur := none, sources := [], wait := false }).setPed { s.ped with rom := false, ckptAt := s.now }
    else sourceFail code s
  | _, _ => s

/-- BOOT_SOURCE_TIMEOUT (R613). -/
def bootTimeout (s : State) : State :=
  let b := s.plat.boot
  if b.wait then sourceFail 7 (s.moveTo (b.from_ + (if b.got then 8000000 else 800000000))) else s

/-- PEDESTAL_CLEAR_DONE (R598): 65,536 CCLK after the restart. -/
def pedClearDone (s : State) : State :=
  match s.ped.clearAt with
  | none => s
  | some t =>
    let s := memClear 0xD0000000 0xD0180000 (s.moveTo (t + 65536))
    let s := s.setF Reg.PEDESTAL.STATUS 18 16 7
    bootSelect (s.setPed { s.ped with clearAt := none, ckptAt := s.now })

/-! ## Supplies, clocks, temperature -/

/-- SUPPLY_WARNING (R578). -/
def supplyWarning (rail : Nat) (s : State) : State :=
  if s.awake ∧ rail < 5 then
    let s := s.setF Reg.PWR.STATUS (16 + rail) (16 + rail) 1
    if rail = 4 then s else dwCause 1 rail true s
  else s
/-- SUPPLY_WARNING_END. -/
def supplyWarningEnd (rail : Nat) (s : State) : State :=
  if s.awake ∧ rail < 5 then
    let s := s.setF Reg.PWR.STATUS (16 + rail) (16 + rail) 0
    if s.f Reg.PWR.STATUS 19 16 = 0 then dwLevelEnd 1 s else s
  else s
/-- BROWNOUT (R578): VAON is governed by PORST_N only. -/
def brownout (rail : Nat) (s : State) : State :=
  if rail < 4 ∧ (s.plat.power = .run ∨ s.plat.power = .doze ∨ s.plat.power = .start) then resetBegin 3 s else s
/-- CLOCK_LOSS (R580). -/
def clockLoss (s : State) : State :=
  if s.dozing then
    let s := (s.setF Reg.CLK.STATUS 31 31 0).setF Reg.CLK.STATUS 30 30 1
    dwCause 5 0 true (s.cntAdd Reg.CLK.LOSSCNT 31 0 1 true)
  else s
/-- CLOCK_RECOVER. -/
def clockRecover (s : State) : State :=
  if s.dozing ∧ s.b Reg.CLK.STATUS 30 then dwLevelEnd 5 ((s.setF Reg.CLK.STATUS 31 31 1).setF Reg.CLK.STATUS 30 30 0) else s

/-- Engines a sensor throttles (R590). -/
def sensorEngines (k : Nat) : List Nat := if k = 12 then List.range 96 else (List.range 8).map (fun i => 8 * k + i)
/-- A reading in 1/16 °C (R601). -/
def sensorRead (k t : Nat) (s : State) : State :=
  let s := s.setReg (Reg.THERM.TEMP k) (BitVec.ofNat 32 (t % 65536))
  if sx 16 (s.f Reg.THERM.TMAX 15 0) < sx 16 (t % 65536) then s.hwLoadRC Reg.THERM.TMAX 15 0 (t % 65536) else s
/-- The throttle threshold in 1/16 °C. -/
def State.tlim (s : State) : Int := (s.f Reg.THERM.TLIM 7 0 : Nat) * 16
/-- THROTTLE_START: sensor `k` reads `t` (R590). -/
def throttleStart (k t : Nat) (s : State) : State :=
  if s.awake ∧ k < 13 then
    let s := sensorRead k t s
    if s.tlim ≤ sx 16 (t % 65536) ∧ ¬s.b Reg.THERM.THROT k then
      let s := s.setF Reg.THERM.THROT k k 1
      let s := (sensorEngines k).foldl (fun u e => slowNote (256 + e) u) s
      let low := ((List.range 13).find? (fun j => s.b Reg.THERM.THROT j)).getD k
      slowRefresh (dwCause 2 low true s)
    else s
  else s
/-- THROTTLE_END: 5 K below TLIM. -/
def throttleEnd (k t : Nat) (s : State) : State :=
  if s.awake ∧ k < 13 then
    let s := sensorRead k t s
    if sx 16 (t % 65536) ≤ s.tlim - 80 ∧ s.b Reg.THERM.THROT k then
      let s := s.setF Reg.THERM.THROT k k 0
      let still := fun (e : Nat) => s.b Reg.THERM.THROT (e / 8) || s.b Reg.THERM.THROT 12
      let s := (sensorEngines k).foldl (fun u e => if still e then u else slowDrop (256 + e) u) s
      slowRefresh (if s.f Reg.THERM.THROT 12 0 = 0 then dwLevelEnd 2 s else s)
    else s
  else s
/-- OVERTEMP: 135 °C (R591). -/
def overtemp (k t : Nat) (s : State) : State :=
  if (s.awake ∨ s.plat.power = .doze ∨ (s.plat.power = .start ∧ s.plat.coreEn)) ∧ k < 13 then
    let s := if s.plat.power = .start then s else sensorRead k t s
    if 2160 ≤ sx 16 (t % 65536) then resetBegin 4 s else s
  else s

/-! ## DOZE, WATCH, SHELF (R582-R586) -/

/-- Ticks of the island clock since POR (R599). -/
def State.aonTick (s : State) : Nat := (s.now - s.plat.porAt) * 32768 / 800000000

/-- PWR.CMD.GO (R582, R584). -/
def pwrCommand (v : Nat) (s : State) : State :=
  let st := bitsOf v 1 0
  let s1 := s.swStore Reg.PWR.CMD (BitVec.ofNat 32 st)
  if ¬bitOf v 31 then s1
  else if st = 0 ∨ s.reg Reg.PEDESTAL.PSOUT0 ≠ 0#32 ∨ Nat.land (s.reg Reg.PEDESTAL.PSOUT1).toNat 0x8000FFFF ≠ 0 ∨ s.b Reg.PWR.STATUS 31 then
    s.capture Reg.PWR.page 0xA0 0x40
  else
    let s := s1.setF Reg.PWR.STATUS 31 31 1
    if st = 1 then s.setPlat { s.plat with dozing := true }
    else
      let s := ((s.setReg Reg.PWR.WAKEREC0 0#32).setReg Reg.PWR.WAKEREC1 0#32).setReg Reg.PWR.WAKEMASK_LO 0#32 |>.setReg Reg.PWR.WAKEMASK_HI 0#32
      let armed := (List.range 48).filter (fun c => bitOf (s.cmpCfg c 4) 0 && bitsOf (s.cmpCfg c 4) 5 4 == 3 && bitOf (s.cmpCfg c 4) 23)
      let thr := fun (c : Nat) => (s.reg (Reg.CMP.THR c 4)).toNat
      let key := s.txKey 0 0
      let keeper : Keeper :=
        { num := s.devNum, pidx := s.f (Reg.LINE.CFG 0) 13 8, wken := s.b Reg.LINEKEY.WATCH 31, wksrc := s.f Reg.LINEKEY.WATCH 11 0,
          key := key.map s.lineKey, gen := (key.map (fun i => s.f (Reg.LINEKEY.KCTL i) 29 29)).getD 0, last := s.lineLast (s.f Reg.LINEKEY.WATCH 11 0) }
      let s := if st = 2 then s.setLine { s.line with keeper := some keeper } else s
      s.setPlat { s.plat with
        down := some ⟨if st = 2 then .watch else .shelf, s.now, 0⟩,
        arms := if st = 2 then armed.map (fun c => (c, bitsOf (thr c) 9 0, bitsOf (thr c) 25 16)) else [] }

/-- Every engine, Maquette and copy is idle (R582). -/
def State.allIdle (s : State) : Bool :=
  s.cores.all (fun c => decide (96 ≤ c.1) || (c.2.cur.isNone && c.2.saved.isEmpty)) && s.maqs.all (fun m => m.2.inq.isEmpty && m.2.done.isEmpty && m.2.frames.isEmpty && decide (m.2.freeAt ≤ s.now)) && (List.range 3).all (fun k => s.inWait k)
/-- DOZE_ENTRY. -/
def dozeEntry (s : State) : State :=
  if s.awake ∧ s.plat.dozing ∧ s.allIdle then
    let s := (List.range 96).foldl (fun t e => t.setCore e { t.core e with gated := true }) s
    (s.setF Reg.PWR.STATUS 31 31 0).setPlat { s.plat with power := .doze, dozing := false }
  else s
/-- An event reached an enabled slot: it ends a DOZE entry, or wakes the device from DOZE (R582, R583). -/
def dozeEvent (s : State) : State :=
  if s.plat.power = .doze then (s.moveTo (s.now + 1)).setPlat { s.plat with power := .run }
  else if s.plat.dozing then ((s.setF Reg.PWR.STATUS 31 31 0).setStatBit Reg.PWR.page 1).setPlat { s.plat with dozing := false }
  else s
/-- DOZE_WAKE by wake pin 0-3, or 4 for the host SPI target (R583). -/
def dozeWake (src : Nat) (s : State) : State :=
  if s.plat.power = .doze ∧ (src = 4 ∨ (src < 4 ∧ s.b Reg.PWR.WAKEEN src)) then (s.moveTo (s.now + 1)).setPlat { s.plat with power := .run } else s

/-- POWER_DOWN_STEP (R584). -/
def powerDown (s : State) : State :=
  match s.plat.down with
  | none => s
  | some d =>
    let at_ := fun (t : Nat) => (s.moveTo (d.at_ + t))
    if d.step = 0 then
      let s := at_ 1600
      let s := (List.range 4).foldl (fun t p => lineStop p t) s
      s.setPlat { s.plat with down := some { d with step := 1 } }
    else if d.step = 1 then
      let s := at_ 8000
      s.setPlat { s.plat with ioEn := false, down := some { d with step := 2 } }
    else
      let s := at_ 808000
      let l := s.line
      let s := blank { s.plat with power := d.target, coreEn := false, ioEn := false, down := none } s
      s.setLine { s.line with keeper := l.keeper, txSeq := if l.keeper.isSome then l.txSeq else 1 }

/-- The wake sources are armed: in WATCH or SHELF, or from 2 µs of their entry on; `watch` asks for WATCH (R584, R585). -/
def State.wakeArmed (s : State) (watch : Bool) : Bool :=
  match s.plat.down with
  | some d => decide (1 ≤ d.step) && (!watch || d.target == .watch)
  | none => s.plat.power == .watch || (!watch && s.plat.power == .shelf)
/-- Wake with a cause: the record, then start-up (R585). -/
def wake (cause : Nat) (s : State) : State :=
  let s := (s.setReg Reg.PWR.WAKEREC0 (BitVec.ofNat 32 (2 ^ 31 + cause * 2 ^ 28))).setReg Reg.PWR.WAKEREC1 (BitVec.ofNat 32 s.aonTick)
  resetBegin 8 s
/-- WAKE_PIN (R585). -/
def wakePin (n : Nat) (s : State) : State :=
  if n < 4 ∧ s.b Reg.PWR.WAKEEN n ∧ s.wakeArmed false then (wake 1 s).setF Reg.PWR.WAKEREC0 n n 1 else s
/-- WAKE_TIMER: the edge at which AONTICK next equals WAKECMP. -/
def wakeTimer (s : State) : State :=
  if s.b Reg.PWR.WAKEEN 31 ∧ s.wakeArmed false then
    let cur := s.aonTick
    let k := cur + ((s.reg Reg.PWR.WAKECMP).toNat + 2 ^ 32 - cur % 2 ^ 32) % 2 ^ 32
    wake 2 (s.moveTo (s.plat.porAt + ceilDiv (k * 800000000) 32768))
  else s
/-- WAKE_SHOCK: the armed CMP4 of channel `c` leaves its window (R136); a crossing at the edge of an earlier one adds its channel. -/
def wakeShock (c : Nat) (above : Bool) (s : State) : State :=
  let mark := fun (s : State) =>
    if c < 32 then s.setF Reg.PWR.WAKEMASK_LO c c 1 else s.setF Reg.PWR.WAKEMASK_HI (c - 32) (c - 32) 1
  if s.b Reg.PWR.WAKEEN 29 ∧ s.wakeArmed true ∧ s.plat.arms.any (fun a => a.1 == c) then
    let s := mark (wake 4 s)
    (s.setF Reg.PWR.WAKEREC0 21 16 c).setF Reg.PWR.WAKEREC0 22 22 (b2n above)
  else if s.plat.power = .start ∧ s.plat.resetAt = some s.now ∧ s.f Reg.RST.LAST 3 0 = 8 ∧ c < 48 then mark s
  else s

/-- The keeper's checks of a frame (R547): steps 1-4 of R522, its source, key and sequence. -/
def State.keeperTakes (s : State) (typ : Nat) (body : List Nat) : Option (Frm × Keeper) :=
  match s.line.keeper with
  | none => none
  | some k =>
    let f := parseFrm body
    let ok := k.wken && decide (24 ≤ body.length) && body.length == 24 + f.len && decide (f.len ≤ 512) &&
      leNat (body.drop (body.length - 4)) == crc32 (body.take (body.length - 4)) && f.typ == typ && !bitOf f.h0 24 && !bitOf f.h1 11 && decide (f.hop ≤ 2) &&
      f.sdev == k.wksrc && f.ksel == 0 && f.kgen == k.gen && seqNewer f.seq k.last && (f.bc || f.ddev == k.num) &&
      (match k.key with
        | some key => f.tagOk key
        | none => false)
    if ok then some (f, k) else none
/-- WAKE_FRAME at the keeper (R548). -/
def wakeFrame (body : List Nat) (s : State) : State :=
  if s.wakeArmed true then
    match s.keeperTakes 9 body with
    | none => s
    | some (f, k) =>
      let s := s.setLine { s.line with keeper := some { k with last := f.seq } }
      if s.b Reg.PWR.WAKEEN 30 then wake 3 s else s
  else s
/-- POLL_RECEIVE at the keeper: the last baud of the POLL was at edge `e` (R548). -/
def keeperPoll (body : List Nat) (e : Nat) (s : State) : State :=
  match s.keeperTakes 7 body with
  | none => s
  | some (f, k) =>
    let s := s.moveTo e
    let s := s.setLine { s.line with keeper := some { k with last := f.seq } }
    lineAnswer 0 ⟨.present, e + pollDelay f.bc k.pidx, f, 0⟩ s
/-- PRESENT_SEND by the keeper: byte 0 reads 1 (R548). -/
def keeperPresent (s : State) : State :=
  match ansTake 0 .present s, s.line.keeper with
  | some (a, s), some k =>
    let s := s.moveTo a.due
    match k.key with
    | none => s
    | some key =>
      let n := s.line.txSeq
      let h0 := 8 * 2 ^ 28 + a.dest.sdev * 2 ^ 12 + k.num
      let h1 := k.gen * 2 ^ 10 + 4
      let pay := [1, b2n s.shockHeld, 0, 0]
      let f : Frm := { h0 := h0, h1 := h1, h2 := n, pay := pay, tag := frmTag key h0 h1 n pay }
      let s := s.setLine { s.line with txSeq := if n = 0xFFFFFFFF then 1 else n + 1 }
      s.setPort 0 { s.port 0 with tx := some ⟨f.body, a.due, 0⟩ }
  | _, _ => s

/-! ## Engines' own gating (R475, R586, R587) -/

/-- ENGINE_POWER_GATE: under AUTO, after 1,024 idle CCLK, unless an enabled slot has level 8 or above. -/
def enginePowerGate (e : Nat) (s : State) : State :=
  let k := s.core e
  let pg := Reg.ENG.page e
  let high := (List.range 64).any (fun n => s.slotF e n 31 31 == 1 && decide (8 ≤ s.slotF e n 23 20))
  let ready := (List.range 64).any (fun n => s.slotReady e n)
  if e < 96 ∧ s.f (pg + 8) 5 4 = 0 ∧ !k.gated ∧ k.cur.isNone ∧ k.saved.isEmpty ∧ k.wbuf.isEmpty ∧ k.rst.isNone ∧ k.halted.isNone ∧ !high ∧ !ready then
    let s := s.moveTo (k.idleAt + 1024)
    s.setCore e { k with gated := true }
  else s
/-- ENGINE_POWER_UP. -/
def enginePowerUp (e : Nat) (s : State) : State :=
  let k := s.core e
  match k.wakeAt with
  | none => s
  | some t =>
    let s := s.moveTo t
    s.setCore e { s.core e with gated := false, wakeAt := none, changed := s.now, idleAt := s.now }

/-! ## Fuses (R601) -/

/-- FUSE.PGM.GO. -/
def fuseProgram (v : Nat) (s : State) : State :=
  let w := bitsOf v 12 8
  let s1 := s.swStore Reg.FUSE.PGM (BitVec.ofNat 32 (putBits (Nat.land v 0x1F1F) 30 30 (s.f Reg.FUSE.PGM 30 30)))
  if ¬bitOf v 31 then s1
  else if s.plat.pgm.isSome ∨ 9 < w ∨ (w < 8 ∧ s.b Reg.FUSE.CFG 0) then s.capture Reg.FUSE.page 0xA2 0x68
  else (s1.setF Reg.FUSE.PGM 30 30 1).setPlat { s1.plat with pgm := some (s.now + 8000) }
/-- FUSE_PROGRAM_DONE. -/
def fuseDone (s : State) : State :=
  match s.plat.pgm with
  | none => s
  | some t =>
    let s := s.moveTo t
    let w := s.f Reg.FUSE.PGM 12 8
    let x := lget 0#32 s.plat.fuses w ||| BitVec.ofNat 32 (2 ^ s.f Reg.FUSE.PGM 4 0)
    (s.setF Reg.FUSE.PGM 30 30 0).setPlat { s.plat with pgm := none, fuses := lput s.plat.fuses w x }

end Sys2Proof.Machine
end

