-- ==== Sys2Proof/Machine/Debug.lean ====
section
/-! DEFINITION. Debug sessions, halting and register access (R630-R640). The accesses of the port itself are rows over the bus. -/

namespace Sys2Proof.Machine

/-- A session is open; its tenant, ring and a capability (30 HALT, 29 BRK, 28 MEM, 27 RESET). -/
def State.dbgOpen (s : State) : Bool := s.b Reg.DEBUG.STATUS 31
def State.dbgTenant (s : State) : Nat := s.f Reg.DEBUG.SESSION 8 0
def State.dbgRing (s : State) : Nat := s.f Reg.DEBUG.SESSION 17 16
def State.dbgCap (s : State) (i : Nat) : Bool := s.dbgOpen && s.b Reg.DEBUG.SESSION i
/-- The session is bound to T0 and ring 0. -/
def State.dbgRoot (s : State) : Bool := s.dbgOpen && s.dbgTenant == 0 && s.dbgRing == 0

/-- STATUS.ERR. -/
def dbgErr (s : State) : State := s.hwSet Reg.DEBUG.STATUS 0x20000000#32
/-- A write refused with a code (R632, R640). -/
def dbgRefuse (code o : Nat) (s : State) : State := dbgErr (s.capture Reg.DEBUG.page code o)

/-- The target has stopped (R634). -/
def State.haltDone (s : State) (t : Nat) : Bool := (s.core t).halted.isSome && !(s.core t).pinned

/-- An engine, or a copy whose lock-step is broken, stops (R634, R637). -/
def coreHalt (t : Nat) (r : HaltReason) (s : State) : State :=
  let k := s.core t
  s.setCore t { k with halted := some r, stepReq := false, stall := if k.pinned then k.stall else none }

/-- RESUME: the target continues at the next bundle with its reservation cleared (R634, R638). -/
def coreResume (t : Nat) (s : State) : State :=
  let k := s.core t
  if k.halted.isSome then s.setCore t { k with halted := none, stepReq := false, resv := none, changed := s.now } else s

/-- HALT, RESUME and STEP of engine `t` are open to the session (R633). -/
def State.dbgEngine (s : State) (t : Nat) : Bool :=
  s.dbgRoot ||
    ((List.range 64).all (fun n => s.slotF t n 31 31 == 0 || s.slotTenant t n == s.dbgTenant) &&
      (s.core t).acts.all (fun a => a.tenant == s.dbgTenant))

/-- The code that refuses operation `op` on target `t`, if one does (R633, R637). -/
def State.ecmdRefused (s : State) (op t : Nat) : Option Nat :=
  if !s.dbgCap 30 ∨ 98 < t then some 0xB4
  else if t < 96 then (if s.dbgEngine t then none else some 0xB4)
  else if op = 0 then (if s.dbgRoot && !s.b Reg.PEDESTAL.CTRL 31 then none else some 0xB5)
  else if s.dbgRoot then none else some 0xB4

/-- HALT (R634, R637). -/
def dbgHalt (t : Nat) (s : State) : State :=
  if 96 ≤ t then pedBreak (t - 96) (coreHalt t .command s) else coreHalt t .command s
/-- STEP: one bundle or one element (R634). -/
def dbgStep (t : Nat) (s : State) : State :=
  if s.haltDone t then s.setCore t { s.core t with stepReq := true } else s

/-- A write of ECMD (R633-R637). -/
def ecmdWrite (v : Nat) (s : State) : State :=
  let op := bitsOf v 29 28
  let t := bitsOf v 6 0
  if bitOf v 31 then
    match s.ecmdRefused op t with
    | some c => dbgRefuse c 0xC0 s
    | none =>
      let s := s.swStore Reg.DEBUG.ECMD (BitVec.ofNat 32 (Nat.land v 0x3000007F))
      if op = 0 then dbgHalt t s else if op = 1 then coreResume t s else if op = 2 then dbgStep t s else s
  else s.swStore Reg.DEBUG.ECMD (BitVec.ofNat 32 (Nat.land v 0x3000007F))

/-- TARGET of ECMD. -/
def State.dbgTarget (s : State) : Nat := s.f Reg.DEBUG.ECMD 6 0
/-- ESTAT as read. -/
def State.estat (s : State) : Word :=
  let t := s.dbgTarget
  match (s.core t).halted with
  | none => 0#32
  | some r => BitVec.ofNat 32 (b2n (s.haltDone t) * 2 ^ 31 + (match r with
    | .command => 0
    | .brk => 1
    | .step => 2) * 2 ^ 29)

/-- RSEL selects a register (R638). -/
def rselOk (n : Nat) : Bool := n < 60 || (64 ≤ n && n < 128 && crRead (n - 64)) || n == 128
/-- RSEL and RDATA are open: a session, and a halted target it may halt (R632, R638). -/
def State.rdataOk (s : State) : Bool :=
  s.dbgOpen && s.haltDone s.dbgTarget && (if s.dbgTarget < 96 then s.dbgEngine s.dbgTarget else s.dbgRoot)

/-- A write of RSEL. -/
def rselWrite (v : Nat) (s : State) : State :=
  if !s.rdataOk then dbgRefuse 0xB4 0xC8 s
  else if rselOk (v % 256) then s.swStore Reg.DEBUG.RSEL (BitVec.ofNat 32 (v % 256))
  else dbgRefuse 0xB6 0xC8 s

/-- The selected register of an activation. -/
def Act.selected (a : Act) (e t n : Nat) : Word :=
  if n < 32 then lget 0#32 a.d n
  else if n < 48 then lget 0#32 a.p (n - 32)
  else if n < 60 then BitVec.ofNat 32 (ux 96 (accVal (a.av ((n - 48) / 3))) / 2 ^ (32 * ((n - 48) % 3)))
  else if n < 128 then a.cr e t (n - 64)
  else a.pc

/-- A read of RDATA: 0 without a halted context (R638). -/
def rdataRead (s : State) : Word × State :=
  if !s.rdataOk then (0#32, dbgRefuse 0xB4 0xCC s)
  else
    match (s.core s.dbgTarget).cur with
    | none => (0#32, s)
    | some a => (a.selected s.dbgTarget s.now (s.f Reg.DEBUG.RSEL 7 0), s)

/-- The selected register written; a register without a write ring stays (R363). -/
def Act.select (a : Act) (n : Nat) (v : Word) : Act :=
  if n < 32 then { a with d := lput a.d n v }
  else if n < 48 then { a with p := lput a.p (n - 32) v }
  else if n < 60 then
    let i := (n - 48) / 3
    let w := (n - 48) % 3
    { a with a := lput a.a i (BitVec.ofNat 72 (putBits (a.av i).toNat (min 71 (32 * w + 31)) (32 * w) (v.toNat % 2 ^ (if w = 2 then 8 else 32)))) }
  else if n < 128 then (if crWritten (n - 64) then a.put (.cr (n - 64) v) else a)
  else { a with pc := BitVec.ofNat 32 (v.toNat / 4 * 4) }

/-- A write of RDATA. -/
def rdataWrite (v : Nat) (s : State) : State :=
  if !s.rdataOk then dbgRefuse 0xB4 0xCC s
  else
    let t := s.dbgTarget
    let k := s.core t
    s.setCore t { k with cur := k.cur.map (fun a => a.select (s.f Reg.DEBUG.RSEL 7 0) (BitVec.ofNat 32 v)) }

/-- SESSION_CLOSE (R631). -/
def sessionClose (s : State) : State :=
  if s.dbgOpen then
    let s := (List.range 96).foldl (fun t e => coreResume e t) s
    let s := (List.range 3).foldl (fun t k => t.setReg (Reg.DEBUG.BRKEN k) 0#32) s
    let s := (s.setF Reg.DEBUG.CTRL 0 0 0).setF Reg.DEBUG.STATUS 31 31 0
    newNonce (s.setF Reg.DEBUG.SESSION 31 31 0)
  else s

/-- A ring-0 write of SESSION: OPEN 1 opens, after the close of a session that is open; OPEN 0 closes (R630, R631). -/
def sessionWrite (v : Nat) (s : State) : State :=
  let s := sessionClose s
  let s := s.swStore Reg.DEBUG.SESSION (BitVec.ofNat 32 (Nat.land v 0xF80301FF))
  if bitOf v 31 then (s.setF Reg.DEBUG.STATUS 31 31 1).setF Reg.DEBUG.STATUS 28 28 0 else s

/-- A write of REQ[k]; the last one posts the request (R630). -/
def reqWrite (k v : Nat) (s : State) : State :=
  let s := s.swStore (Reg.DEBUG.REQ k) (BitVec.ofNat 32 v)
  if k = 15 then (s.setF Reg.DEBUG.STATUS 28 28 1).setStatBit Reg.DEBUG.page 0 else s

/-- A write of CTRL (R639, R640): SYSRST resets, or is refused. -/
def dbgCtrlWrite (v : Nat) (s : State) : State :=
  if bitOf v 1 then
    (if s.dbgRoot ∧ s.dbgCap 27 then resetBegin 7 s else dbgRefuse 0xB4 0x40 s)
  else s.swStore Reg.DEBUG.CTRL (BitVec.ofNat 32 (v % 2))

/-- A write to a block register of DEBUG. -/
def debugWrite (o v : Nat) (s : State) : State :=
  if o = 0x40 then dbgCtrlWrite v s
  else if o = 0x44 then s.setReg Reg.DEBUG.STATUS (s.reg Reg.DEBUG.STATUS &&& ~~~(BitVec.ofNat 32 (Nat.land v 0x20000000)))
  else if o = 0x48 then sessionWrite v s
  else if 0x80 ≤ o ∧ o < 0xC0 then reqWrite ((o - 0x80) / 4) v s
  else if o = 0xC0 then ecmdWrite v s
  else if o = 0xC8 then rselWrite v s
  else if o = 0xCC then rdataWrite v s
  else if 0xD0 ≤ o ∧ o < 0xDC then
    (if s.dbgCap 29 then s.swStore (Reg.DEBUG.page + o) (BitVec.ofNat 32 v) else dbgRefuse 0xB4 o s)
  else s

/-- BRK is enabled on engine `e` for an activation of tenant `t` (R636). -/
def State.brkOn (s : State) (e t : Nat) : Bool :=
  decide (e < 96) && s.dbgOpen && s.b (Reg.DEBUG.BRKEN (e / 32)) (e % 32) && (s.dbgTenant == 0 || s.dbgTenant == t)

end Sys2Proof.Machine
end

