-- ==== Sys2Proof/Machine/Chisel.lean ====
section
/-! DEFINITION. The Chisel: what it latches (R199-R203, R210-R212), its datapath (R201-R208, R214), its edges (R209, R213). -/

namespace Sys2Proof.Machine

def State.chs (s : State) (c : Nat) : ChSt := (s.ch c).chisel
def State.setChs (s : State) (c : Nat) (x : ChSt) : State := s.setCh c { s.ch c with chisel := x }

/-- Saturation to Q2.22 (R201). -/
def q22 (i : Int) : Int := satS 24 i
/-- Product with `k` fraction bits to drop, rounded ties upward and saturated (R201). -/
def qmul (a b : Int) (k : Nat) : Int := q22 (rnd (a * b) k)
/-- Nearest quotient of integers, ties upward; the divisor is positive. -/
def nearUp (a b : Int) : Int := (2 * a + b) / (2 * b)
/-- Quotient of two Q2.22 values (R201). -/
def qdiv (a b : Int) : Int :=
  if b = 0 then (if 0 < a then 2 ^ 23 - 1 else if a < 0 then -(2 ^ 23) else 0)
  else if 0 < b then q22 (nearUp (a * 2 ^ 22) b) else q22 (nearUp (-a * 2 ^ 22) (-b))
/-- Square root of a Q2.22 value, rounded to the nearest (R201). -/
def qsqrt (a : Int) : Int :=
  let n := (clampI 0 (2 ^ 23) a).toNat * 2 ^ 24
  q22 (((isqrt 25 n + 1) / 2 : Nat) : Int)
/-- x / √3 to the nearest (R204). -/
def qDivRoot3 (x : Int) : Int :=
  let r : Int := ((isqrt 25 (4 * (x.natAbs * x.natAbs) / 3) + 1) / 2 : Nat)
  q22 (if 0 ≤ x then r else -r)
/-- x × √3 / 2 to the nearest (R208). -/
def qHalfRoot3 (x : Int) : Int :=
  let r : Int := ((isqrt 25 (3 * (x.natAbs * x.natAbs)) + 1) / 2 : Nat)
  q22 (if 0 ≤ x then r else -r)
/-- A Q2.22 value as Q1.15 (R201). -/
def toQ15 (x : Int) : Nat := ux 16 (satS 16 (rnd x 7))
/-- A Q1.15 field as Q2.22 (R201). -/
def fromQ15 (w : Nat) : Int := sx 16 w * 128

/-- A value within 2 units of the last place (2^-21) of the exact one `x`, given with 72 fraction bits: the nearest value, or the one the free deviation names while it lies inside the bound (R201, log 7). -/
def near22 (site : Nat) (a : Nat) (x : Int) : Int :=
  let v := rnd x 50
  let w := v + clampI (-2) 2 (Config.dev site a 0)
  if (w * 2 ^ 50 - x).natAbs ≤ 2 ^ 51 then w else v

/-- Sine and cosine of a 16-bit angle (R201). -/
def chSin (a : Nat) : Int := near22 0x201 (a % 65536) (sincosTurn 16 (a % 65536)).1
def chCos (a : Nat) : Int := near22 0x202 (a % 65536) (sincosTurn 16 (a % 65536)).2

/-- Offsets CFG to INTQ of the page, latched as a whole at edge 0. -/
def chWords (c : Nat) (s : State) : List Nat := (List.range 20).map (fun k => (s.reg (Reg.CHISEL.CFG c + 4 * k)).toNat)

/-- The latched register at offset `o`. -/
def ChRun.w (r : ChRun) (o : Nat) : Nat := lget 0 r.words ((o - 0x40) / 4)
def ChRun.cfg (r : ChRun) : Nat := r.w 0x40

/-- The three phase currents U, V, W in Q2.22 (R200). -/
def ChRun.phases (r : ChRun) : Int × Int × Int :=
  let a := r.ia * 128
  let b := r.ib * 128
  let t := q22 (-(a + b))
  let get := fun k => if r.a = k then a else if r.b = k then b else t
  (get 0, get 1, get 2)

/-- θe (R202). -/
def ChRun.thetaE (r : ChRun) : Nat :=
  if bitsOf r.cfg 14 13 = 1 then bitsOf (r.w 0x74) 31 16
  else (r.mot * bitsOf r.cfg 29 24 + bitsOf (r.w 0x74) 15 0) % 65536
/-- ωe (R202, R203). -/
def ChRun.omega (r : ChRun) : Int :=
  if bitsOf r.cfg 14 13 = 1 then 0 else rnd (r.speed * (r.w 0x78 : Nat)) 24
/-- θe advanced by `n` ACLK (R203). -/
def ChRun.advance (r : ChRun) (n : Nat) : Nat :=
  ux 16 ((r.thetaE : Int) + nearUp (r.omega * (n : Nat)) (50 * 65536))
/-- θp and θi (R203). -/
def ChRun.thetaP (r : ChRun) : Nat := r.advance (if bitOf r.cfg 19 then r.age else 0)
def ChRun.thetaI (r : ChRun) : Nat := r.advance ((if bitOf r.cfg 19 then r.age else 0) + bitsOf (r.w 0x7C) 15 0)

/-- id and iq (R204). -/
def ChRun.park (r : ChRun) : Int × Int :=
  let p := r.phases
  let al := p.1
  let be := qDivRoot3 (q22 (p.2.1 - p.2.2))
  let sn := chSin r.thetaP
  let cs := chCos r.thetaP
  (q22 (qmul al cs 22 + qmul be sn 22), q22 (qmul be cs 22 - qmul al sn 22))

/-- One PI axis (R205): error, unlimited output, integrator before and after the limit. -/
structure PiAxis where
  e : Int
  u : Int
  raw : Int
  lim : Int
  /-- The integrator of a tracking computation before its limit (R214). -/
  track : Int
deriving DecidableEq, Repr

/-- The PI regulator of one axis (R205, R214): `kp`, `ki` registers, reference, current, integrator, feed-forward and applied voltage. -/
def piAxis (ilim : Int) (kp ki : Nat) (ref i int ff app : Int) : PiAxis :=
  let e := q22 (ref - i)
  let kpe := qmul (sx 24 kp) e 16
  let n := q22 (int + qmul (sx 24 ki) e 16)
  { e := e, u := q22 (q22 (kpe + int) + ff), raw := n, lim := clampI (-ilim) ilim n, track := q22 (q22 (app - kpe) - ff) }

/-- The integrator limit in Q2.22 (R205). -/
def ChRun.ilim (r : ChRun) : Int := (bitsOf (r.w 0x68) 15 0 * 128 : Nat)
/-- The d axis (R205). -/
def ChRun.axisD (r : ChRun) : PiAxis :=
  piAxis r.ilim (r.w 0x58) (r.w 0x5C) (r.idref * 128) r.park.1 (sx 24 (r.w 0x88)) (r.vdff * 128) (fromQ15 (bitsOf (r.w 0x54) 31 16))
/-- The q axis (R205). -/
def ChRun.axisQ (r : ChRun) : PiAxis :=
  piAxis r.ilim (r.w 0x60) (r.w 0x64) (r.iqref * 128) r.park.2 (sx 24 (r.w 0x8C)) (r.vqff * 128) (fromQ15 (bitsOf (r.w 0x54) 15 0))

/-- udc in Q2.22 (R207). -/
def ChRun.udcQ (r : ChRun) : Int := r.udc * 128
/-- The UDCLOW condition (R207). -/
def ChRun.udcLow (r : ChRun) : Bool := decide (r.udcQ ≤ fromQ15 (bitsOf (r.w 0x70) 31 16))
/-- Vmax (R206). -/
def ChRun.vmax (r : ChRun) : Int :=
  let v := qmul (bitsOf (r.w 0x6C) 15 0 * 128 : Nat) r.udcQ 22
  if v < 0 then 0 else v

/-- vd and vq after the voltage limit (R206). -/
def ChRun.limited (r : ChRun) : Int × Int :=
  let ud := r.axisD.u
  let uq := r.axisQ.u
  if bitOf r.cfg 16 then
    let vd := clampI (-r.vmax) r.vmax ud
    let l := qsqrt (q22 (qmul r.vmax r.vmax 22 - qmul vd vd 22))
    (vd, clampI (-l) l uq)
  else
    let m := qsqrt (q22 (qmul ud ud 22 + qmul uq uq 22))
    if r.vmax < m then
      let k := qdiv r.vmax m
      (qmul ud k 22, qmul uq k 22)
    else (ud, uq)

/-- The limit changed a component (R206). -/
def ChRun.limActs (r : ChRun) : Bool := r.limited.1 != r.axisD.u || r.limited.2 != r.axisQ.u

/-- The voltage limit reduced this axis while its error has the sign of its output (R205, conditional integration). -/
def piHeld (a : PiAxis) (v : Int) : Bool :=
  decide (v.natAbs < a.u.natAbs) && ((decide (0 < a.e) && decide (0 < a.u)) || (decide (a.e < 0) && decide (a.u < 0)))

/-- The integrator stored at edge 39 and whether ILIM acted on it; `none` where it keeps its value (R205, R207, R212, R214). -/
def ChRun.newInt (r : ChRun) (a : PiAxis) (v : Int) : Option (Int × Bool) :=
  if !r.driving || r.udcLow then none
  else if r.own then (if piHeld a v then none else some (a.lim, a.lim != a.raw))
  else some (clampI (-r.ilim) r.ilim a.track, decide (r.ilim < a.track.natAbs))

/-- s_x of the dead-time compensation (R208 step 3). -/
def dtSign (band : Nat) (i : Int) : Int :=
  if band = 0 then (if 0 < i then 2 ^ 22 else if i < 0 then -(2 ^ 22) else 0)
  else clampI (-(2 ^ 22)) (2 ^ 22) (qdiv i (band * 128 : Nat))

/-- The three duties before the clamp (R207, R208 steps 1-3). -/
def ChRun.duties (r : ChRun) : Int × Int × Int :=
  if r.udcLow then (2 ^ 21, 2 ^ 21, 2 ^ 21)
  else
    let v := r.limited
    let sn := chSin r.thetaI
    let cs := chCos r.thetaI
    let ma := qdiv (q22 (qmul v.1 cs 22 - qmul v.2 sn 22)) r.udcQ
    let mb := qdiv (q22 (qmul v.1 sn 22 + qmul v.2 cs 22)) r.udcQ
    let h := nearUp (-ma) 2
    let k := qHalfRoot3 mb
    let mu := ma
    let mv := q22 (h + k)
    let mw := q22 (h - k)
    let off := nearUp (q22 (max mu (max mv mw) + min mu (min mv mw))) 2
    let p := r.phases
    let d := fun m i => q22 (q22 (q22 (2 ^ 21 + m) - off) + qmul (fromQ15 (bitsOf (r.w 0x80) 31 16)) (dtSign (bitsOf (r.w 0x80) 15 0) i) 22)
    (d mu p.1, d mv p.2.1, d mw p.2.2)

/-- The clamp of R208 step 4. -/
def ChRun.clampDuty (r : ChRun) (d : Int) : Int :=
  clampI (bitsOf (r.w 0x84) 15 0 * 128 : Nat) (bitsOf (r.w 0x84) 31 16 * 128 : Nat) d

/-- The compare word of one duty (R208 step 5). -/
def ChRun.compare (r : ChRun) (d : Int) : Nat :=
  let n : Nat := if r.edgeAligned then r.perlive else r.perlive / 2
  ux 23 (rnd (8 * (n : Int) * (2 ^ 22 - r.clampDuty d)) 22)

/-- A usable UDC result is formatted (R207). -/
def chUdc (c : Nat) (y : Int) (s : State) : State :=
  if s.off (Reg.CHISEL.page c) then s else s.setChs c { s.chs c with udc := some y }

/-- Edge 0 of a computation: the pair of SEQ0 step 0, input codes `a` and `b`, whose hold edge is `hold` (R199, R200, R209, R210, R214). -/
def chiselEdge0 (c a b : Nat) (ia ib : Int) (hold : Nat) (s : State) : State :=
  let pg := Reg.CHISEL.page c
  if s.runs pg ∧ s.en (Reg.CHAN.page c) then
    let st := Reg.CHISEL.STATUS c
    let s := s.setF st 15 0 (s.f st 15 0 + 1)
    if a = b ∨ 2 < a ∨ 2 < b then (s.cntAdd (Reg.CHISEL.SKIPCNT c) 31 0 1 true).setStatBit pg 5
    else
      let own := s.b (Reg.CHISEL.CTRL c) 0
      let driving := (s.pwm c).driving
      let words := chWords c s
      let s := s.boundary pg
      let s := (s.setF st 31 31 (b2n own)).setF st 30 30 (b2n driving)
      let ps := (s.ch c).pos
      let udc := if s.b (Reg.CHISEL.CFG c) 17 then (s.chs c).udc.getD 0 else sx 16 (s.f (Reg.CHISEL.UDC c) 15 0)
      let run : ChRun := {
        t0 := s.now, a := a, b := b, ia := ia, ib := ib, mot := ps.angle,
        age := if hold < ps.angleHold then 0 else satN 65535 ((hold - ps.angleHold) / 8),
        speed := sx 32 (s.reg (Reg.POS.SPEED c)).toNat, udc := udc, perlive := s.perlive c, edgeAligned := s.edgeAligned c,
        own := own, driving := driving, words := words,
        idref := sx 16 (s.lf (Reg.CHISEL.REF c) 31 16), iqref := sx 16 (s.lf (Reg.CHISEL.REF c) 15 0),
        vdff := sx 16 (s.lf (Reg.CHISEL.FF c) 31 16), vqff := sx 16 (s.lf (Reg.CHISEL.FF c) 15 0) }
      s.setChs c { s.chs c with run := some run }
  else s

/-- Store a new integrator (R212: a software write of the same edge stands). -/
def chStoreInt (a : Nat) (n : Option (Int × Bool)) (s : State) : State :=
  match n with
  | none => s
  | some v => s.hwUpd a 23 0 (ux 24 v.1)

/-- CHISEL_RESULT: edge 39 updates the state registers; with OWN the write is issued at edge 40 (R205-R209, R214). -/
def chiselResult (c : Nat) (s : State) : State :=
  match (s.chs c).run with
  | none => s
  | some r =>
    let s := s.moveTo (r.t0 + 39)
    let pg := Reg.CHISEL.page c
    let v := r.limited
    let nd := r.newInt r.axisD v.1
    let nq := r.newInt r.axisQ v.2
    let d0 := s.reg (Reg.CHISEL.INTD c)
    let q0 := s.reg (Reg.CHISEL.INTQ c)
    let s := chStoreInt (Reg.CHISEL.INTQ c) nq (chStoreInt (Reg.CHISEL.INTD c) nd s)
    let s := s.setReg (Reg.CHISEL.IDQ c) (BitVec.ofNat 32 (toQ15 r.park.1 * 65536 + toQ15 r.park.2))
    let s := s.setReg (Reg.CHISEL.VDQ c) (BitVec.ofNat 32 (toQ15 v.1 * 65536 + toQ15 v.2))
    let s := s.setReg (Reg.CHISEL.THETA c) (BitVec.ofNat 32 (r.thetaP * 65536 + r.thetaI))
    let s := if r.limActs then s.cntAdd (Reg.CHISEL.LIMCNT c) 31 0 1 true else s
    let ds := r.duties
    let clamped := r.clampDuty ds.1 != ds.1 || r.clampDuty ds.2.1 != ds.2.1 || r.clampDuty ds.2.2 != ds.2.2
    let sat := fun n => match n with
      | some (_, b) => b
      | none => false
    let bits := b2n r.limActs + b2n (sat nd) * 2 + b2n (sat nq) * 4 + b2n clamped * 8 + b2n r.udcLow * 16
    let s := s.setStat pg (BitVec.ofNat 32 bits)
    s.setChs c { s.chs c with
      run := none,
      write := if r.own then some (r.compare ds.1, r.compare ds.2.1, r.compare ds.2.2, r.t0 + 40) else none,
      undo := some (r.t0 + 40, d0, s.reg (Reg.CHISEL.INTD c), q0, s.reg (Reg.CHISEL.INTQ c)) }

/-- CHISEL_DONE: the write lands 4 CCLK after its issue, or up to 19 later behind accesses in progress (R68, R69, R188, R209). -/
def chiselDone (c wait : Nat) (s : State) : State :=
  match (s.chs c).write with
  | none => s
  | some (w0, w1, w2, issue) =>
    let s := s.moveTo (issue + 4 + satN 19 wait)
    let s := s.setChs c { s.chs c with write := none, undo := none }
    let s :=
      if s.off (Reg.PWM.page c) then s
      else latRecord c
        (((s.swStore (Reg.PWM.CMP c 0) (BitVec.ofNat 32 w0)).swStore (Reg.PWM.CMP c 1) (BitVec.ofNat 32 w1)).swStore (Reg.PWM.CMP c 2) (BitVec.ofNat 32 w2))
    s.chanEvent c 25

/-- CHISEL_DISABLE: an abort up to edge 40 issues no write and takes the integrators back; a write already issued lands (R213). -/
def chiselAbort (c : Nat) (s : State) : State :=
  let x := s.chs c
  let s := s.setChs c { x with run := none }
  match x.undo with
  | none => s
  | some (t, d0, d1, q0, q1) =>
    if s.now ≤ t then
      let s := if s.reg (Reg.CHISEL.INTD c) = d1 then s.setReg (Reg.CHISEL.INTD c) d0 else s
      let s := if s.reg (Reg.CHISEL.INTQ c) = q1 then s.setReg (Reg.CHISEL.INTQ c) q0 else s
      s.setChs c { s.chs c with write := none, undo := none }
    else s

end Sys2Proof.Machine
end

