-- ==== Sys2Proof/Machine/Converters.lean ====
section
/-! DEFINITION. The main converters: openings and preemption (R75-R93), the reference buffer (R94-R97), formatting (R98-R100), FIFOs (R101-R105), calibration (R106-R111), drift tracking (R112-R114). -/

namespace Sys2Proof.Machine

def State.cv (s : State) (c : Nat) : ConvSt := (s.ch c).conv
def State.setCv (s : State) (c : Nat) (x : ConvSt) : State := s.setCh c { s.ch c with conv := x }
def State.sq (s : State) (c u : Nat) : SeqSt := lget SeqSt.idle (s.cv c).seq u
def State.setSq (s : State) (c u : Nat) (q : SeqSt) : State := s.setCv c { s.cv c with seq := lput (s.cv c).seq u q }

/-- A register as it stood before this edge's software writes (R23). -/
def State.pre (s : State) (a : Nat) : Word := (s.log.sw.lookup a).getD (s.reg a)

/-- Rank of a converter user (R87). -/
def userRank (u : Nat) : Nat := if u < 4 then u else if u < 6 then 4 else 5

/-- The converters run (R74). -/
def State.adcRuns (s : State) (c : Nat) : Bool := s.runs (Reg.ADC.page c)
/-- Sequencer `u` runs when triggered (R79). -/
def State.seqOn (s : State) (c u : Nat) : Bool := s.adcRuns c && s.runs (Reg.SEQ.page c) && s.b (Reg.SEQ.SEQCTL c u) 0
/-- REF.READY (R94). -/
def State.refReady (s : State) (c : Nat) : Bool := s.b (Reg.ADC.REF c) 31

/-- The stamp at edge `e` (R77). -/
def State.stamp (s : State) (c e : Nat) : Nat :=
  let src := s.f (Reg.ADC.STAMP c) 9 8
  if src = 0 then (s.reg (Reg.POS.POSITION c)).toNat
  else if src = 1 then s.angle (s.f (Reg.ADC.STAMP c) 3 0) e
  else if src = 2 then s.timeStamp e
  else 0

/-! ## Openings -/

/-- KIND of a STEP word: 0 PAIR, 1 A, 2 B, 3 IL (R78). -/
def stepKind (w : Nat) : Nat := bitsOf w 29 28
/-- Number of samples of an IL step, and the number of its last conversion (R91). -/
def ilSamples (w : Nat) : Nat := bitsOf w 23 16 + 1
def ilLast (w : Nat) : Nat := if ilSamples w % 2 = 0 then ilSamples w else ilSamples w - 1

/-- What a waiting user asks for: user, nominal instant, step, its word, burst sample, the conversions (converter, input), the converters that must be free, whether it continues a burst it still holds. -/
structure Want where
  user : Nat
  nominal : Nat
  step : Nat
  word : Nat
  j : Nat
  convs : List (Nat × Nat)
  needs : List Nat
deriving DecidableEq, Repr

/-- The opening sequencer `u` waits for. -/
def seqWant (c u : Nat) (s : State) : Option Want :=
  let q := s.sq c u
  if q.run ∧ q.waiting then
    let w := q.latched.getD (s.pre (Reg.SEQ.STEP c (8 * u + q.step))).toNat
    let k := stepKind w
    let a := (0, bitsOf w 3 0)
    let b := (1, bitsOf w 7 4)
    some {
      user := u, nominal := q.nominal, step := q.step, word := w, j := q.j,
      convs := if k = 0 then [a, b] else if k = 1 then [a] else if k = 2 then [b] else [(q.j % 2, bitsOf w 3 0)],
      needs := if k = 0 then [0, 1] else if k = 1 then [0] else if k = 2 then [1] else if s.now < q.hold then [q.j % 2] else [0, 1] }
  else none

/-- Conversions of user `u` in flight that count towards a calibration. -/
def calFlying (c u : Nat) (s : State) : Nat := ((s.cv c).convs.filter (fun v => v.user = u ∧ !v.early)).length
/-- A conversion of user `u` still holds its converter at edge `e`. -/
def userBusy (c u e : Nat) (s : State) : Bool := (s.cv c).convs.any (fun v => v.user = u ∧ e < v.openAt + 160)

/-- Conversions per converter of a command (R107). -/
def calTotal : CalKind → Nat
  | .zero => 256
  | .span => 768
  | .skew => 4096

/-- The opening the calibration command waits for on converter `v` (users 4 and 5; SKEW is user 4). -/
def calWant (c v : Nat) (s : State) : Option Want :=
  match (s.cv c).cal with
  | none => none
  | some r =>
    if r.done then none
    else if r.kind = .skew then
      if v = 0 ∧ r.j ≤ 4096 then
        some { user := 4, nominal := r.nominal, step := 0, word := 0, j := r.j, convs := [(r.j % 2, r.input)], needs := if s.now < r.hold then [r.j % 2] else [0, 1] }
      else none
    else
      let k := (if v = 0 then r.nA else r.nB) + calFlying c (4 + v) s
      if (if v = 0 then r.cva else r.cvb) = true ∧ k < calTotal r.kind then
        let i := if k < 256 then r.input else if k < 512 then 8 else 10
        some { user := 4 + v, nominal := 0, step := 0, word := 0, j := k, convs := [(v, i)], needs := [v] }
      else none

/-- The drift conversion of converter `v` (R112). -/
def driftWant (c v : Nat) (s : State) : Option Want :=
  let d := if v = 0 then (s.cv c).driftA else (s.cv c).driftB
  if s.b (Reg.ADCCAL.DRIFTCTL c) 0 ∧ s.refReady c then
    some { user := 6 + v, nominal := 0, step := 0, word := 0, j := 0, convs := [(v, if d.nextHi then 10 else 8)], needs := [v] }
  else none

/-- Every waiting user, highest rank first (R87). -/
def wants (c : Nat) (s : State) : List Want :=
  if s.adcRuns c then
    [seqWant c 0 s, seqWant c 1 s, seqWant c 2 s, seqWant c 3 s, calWant c 0 s, calWant c 1 s, driftWant c 0 s, driftWant c 1 s].filterMap id
  else []

/-- The hold of an interleaved burst of user `u`: the edge until which it holds both converters. -/
def burstHold (c u : Nat) (s : State) : Nat :=
  if u < 4 then (s.sq c u).hold
  else if u = 4 then
    match (s.cv c).cal with
    | some r => r.hold
    | none => 0
  else 0

/-- The edge from which converter `v` is free for user `u` (R88). -/
def freeFrom (c u v : Nat) (s : State) : Nat :=
  let a := (s.cv c).convs.foldl (fun m k => if k.cv = v ∧ userRank k.user ≤ userRank u then max m (k.openAt + 160) else m) 0
  (List.range 5).foldl (fun m k => if k ≠ u ∧ userRank k ≤ userRank u then max m (burstHold c k s) else m) a

/-- The ACLK edge at which a waiting user can open. -/
def wantEdge (c : Nat) (s : State) (w : Want) : Nat :=
  alignUp 8 (w.needs.foldl (fun m v => max m (freeFrom c w.user v s)) (max s.now w.nominal))

/-- The next opening: the earliest edge, and the highest rank at it (R88). -/
def nextWant (c : Nat) (s : State) : Option (Nat × Want) :=
  (wants c s).foldl (fun best w =>
    let e := wantEdge c s w
    match best with
    | none => some (e, w)
    | some (e0, w0) => if e < e0 then some (e, w) else some (e0, w0)) none

/-- The conversions of user `u` that have not ended at edge `e`, the earliest first (R88, R93). -/
def aborted (c u e : Nat) (s : State) : List Conv := (s.cv c).convs.filter (fun v => v.user = u ∧ e < v.openAt + 160)

/-- User `u` is preempted at edge `e`: its conversions are aborted and it waits again (R88, R93). -/
def preempt (c e u : Nat) (s : State) : State :=
  let lost := aborted c u e s
  let s := s.setCv c { s.cv c with convs := (s.cv c).convs.filter (fun v => !(v.user = u ∧ e < v.openAt + 160)) }
  match lost with
  | [] => s
  | v :: _ =>
    if u < 4 then
      let q := s.sq c u
      s.setSq c u { q with waiting := true, step := v.step, j := v.j, nominal := v.openAt, latched := some v.word, hold := 0 }
    else
      match (s.cv c).cal with
      | some r =>
        if u = 4 ∧ r.kind = .skew then s.setCv c { s.cv c with cal := some { r with j := v.j, nominal := v.openAt, hold := 0 } } else s
      | none => s

/-- Users of lower rank that hold a converter `w` needs. -/
def victims (c e : Nat) (w : Want) (s : State) : List Nat :=
  (List.range 8).filter (fun u =>
    userRank w.user < userRank u ∧
      ((s.cv c).convs.any (fun v => v.user = u ∧ e < v.openAt + 160 ∧ w.needs.contains v.cv) ∨ e < burstHold c u s))

/-- The sequencer after opening `w` at edge `e`. -/
def SeqSt.opened (q : SeqSt) (w : Want) (e : Nat) : SeqSt :=
  let il := decide (stepKind w.word = 3)
  let q := if il then { q with hold := e + 80 * (ilLast w.word - w.j) + 160 } else q
  let q := if il ∧ w.j = 0 then { q with prevA := none, pendB := none } else q
  if il ∧ w.j < ilLast w.word then { q with latched := some w.word, j := w.j + 1, nominal := e + 80 }
  else if bitOf w.word 31 ∨ w.step = 7 then { q with waiting := false, latched := some w.word }
  else { q with latched := none, step := w.step + 1, j := 0, nominal := e + 160 }

/-- ACQUISITION_OPEN: the next opening of channel `c` (R75, R80, R88, R89, R95). -/
def acqOpen (c : Nat) (s : State) : State :=
  match nextWant c s with
  | none => s
  | some (e, w) =>
    let s := s.moveTo e
    let w := if w.user < 4 then (seqWant c w.user s).getD w else w
    let s := (victims c e w s).foldl (fun t u => preempt c e u t) s
    let st := s.stamp c e
    let pend := if w.user < 4 then (s.sq c w.user).fromPend else false
    let dly := decide (w.nominal < e) && decide (w.user ≤ 4)
    let mk := fun (p : Nat × Nat) => ({
      user := w.user, step := w.step, word := w.word, cv := p.1, input := p.2, openAt := e, stamp := st, early := !s.refReady c,
      dly := dly, j := w.j, pend := pend } : Conv)
    let s := s.setCv c { s.cv c with convs := (s.cv c).convs ++ w.convs.map mk }
    if w.user < 4 then s.setSq c w.user ((s.sq c w.user).opened w e)
    else
      match (s.cv c).cal with
      | some r =>
        if w.user = 4 ∧ r.kind = .skew then
          s.setCv c { s.cv c with cal := some { r with j := w.j + 1, nominal := e + 80, hold := e + 80 * (4096 - w.j) + 160 } }
        else s
      | none => s

/-! ## Triggers -/

/-- Sequencer `u` accepts a trigger at this edge (R59, R79, R83). -/
def seqAccept (c u : Nat) (fromPend : Bool) (s : State) : State :=
  let q := s.sq c u
  let s := s.setSq c u { q with
    run := true, fromPend := fromPend, pend := false, waiting := true, step := 0, j := 0, nominal := alignUp 8 s.now, latched := none,
    hold := 0, prevA := none, pendB := none, endAt := none }
  if s.f (Reg.CHAN.MODE c) 5 4 = u then s.setCh c { s.ch c with latAt := some s.now } else s

/-- Drop every conversion of user `u`. -/
def dropConvs (c u : Nat) (s : State) : State :=
  s.setCv c { s.cv c with convs := (s.cv c).convs.filter (fun v => v.user ≠ u) }

/-- A dropped trigger (R84). -/
def seqDrop (c u : Nat) (s : State) : State := (s.cntAdd (Reg.SEQ.DROPCNT c u) 31 0 1 false).setStatBit (Reg.SEQ.page c) u

/-- A pended trigger whose edge has come is accepted (R85). -/
def seqPended (c u : Nat) (s : State) : State :=
  let q := s.sq c u
  match q.endAt with
  | some t => if q.pend ∧ !q.run ∧ t < s.now then seqAccept c u true s else s
  | none => s

/-- PENDED_TRIGGER_ACCEPT: the edge after the last write of the run (R85). -/
def seqPendedAccept (c u : Nat) (s : State) : State :=
  let q := s.sq c u
  match q.endAt with
  | some t => if q.pend ∧ !q.run then seqPended c u (s.moveTo (t + 1)) else s
  | none => s

/-- A trigger reaches sequencer `u` (R79, R82-R84). -/
def seqTrigger (c u : Nat) (s : State) : State :=
  let s := seqPended c u s
  let q := s.sq c u
  if !s.seqOn c u ∨ s.now ≤ q.enabledAt ∨ q.trigAt = some s.now then s
  else
    let s := s.setSq c u { q with trigAt := some s.now }
    if !q.run ∧ q.endAt ≠ some s.now then seqAccept c u false s
    else
      let pol := s.f (Reg.SEQ.SEQCTL c u) 21 20
      if pol = 2 then (seqAccept c u false (dropConvs c u s)).setStatBit (Reg.SEQ.page c) (4 + u)
      else if pol = 0 ∧ !q.pend then s.setSq c u { s.sq c u with pend := true }
      else seqDrop c u s

/-- A disable aborts the run and clears PEND (R86). -/
def seqAbort (c u : Nat) (s : State) : State :=
  let q := s.sq c u
  (dropConvs c u s).setSq c u { q with run := false, pend := false, waiting := false, hold := 0, latched := none, prevA := none, pendB := none, endAt := none }

/-- The landing edge of the write that completes the three enables (R79). -/
def seqEnabled (c u : Nat) (s : State) : State := s.setSq c u { s.sq c u with enabledAt := s.now }

/-! ## Formatting -/

/-- A pin input measures bipolar (R71). -/
def State.bipolar (s : State) (c i : Nat) : Bool := i == 4 || (decide (i < 4) && s.b (Reg.ADC.CFG c) i)

/-- The raw code with 2 fraction bits after drift correction (R98 step 1, R113). -/
def driftCode (c v n : Nat) (s : State) : Int :=
  let d := if v = 0 then (s.cv c).driftA else (s.cv c).driftB
  let r := (s.pre (if v = 0 then Reg.ADCCAL.REFA c else Reg.ADCCAL.REFB c)).toNat
  let lo : Int := bitsOf r 15 0
  let hi : Int := bitsOf r 31 16
  let w := d.h - d.l
  if s.b (Reg.ADCCAL.DRIFTCTL c) 1 ∧ 0 < w then
    clampI 0 65535 ((2 * (lo * w + (256 * (n : Int) - d.l) * (hi - lo)) + w) / (2 * w))
  else 4 * (n : Int)

/-- Step 2 of R98 on a code with 2 fraction bits. -/
def scaleCode (bip : Bool) (n : Int) : Int := if bip then n - 32768 else (n + 1) / 2

/-- Steps 1-3 of R98. -/
def formatCode (c v i n : Nat) (s : State) : Int :=
  let x := scaleCode (s.bipolar c i) (driftCode c v n s)
  if i < 5 then
    let k := (s.pre (Reg.ADCCAL.COEF c (5 * v + i))).toNat
    asr ((x - sx 16 (bitsOf k 15 0)) * (bitsOf k 31 16 : Nat) + 8192) 14
  else x

/-- Step 4 of R98 for a CVB sample between `a` and `b`; without two neighbours 10 ACLK away there is no correction (R93). -/
def skewCode (c : Nat) (b : IlB) (next : IlA) (s : State) : Int :=
  let k := (s.pre (Reg.ADCCAL.SKEW c)).toNat
  match b.prev with
  | some a =>
    if bitOf k 16 ∧ a.at_ + 80 = b.conv.openAt ∧ b.conv.openAt + 80 = next.at_ then
      b.y - asr (sx 16 (bitsOf k 15 0) * (next.y - a.y) + 16384) 15
    else b.y
  | none => b.y

/-- The result word of R100. -/
def resultWord (v : Conv) (y : Int) : DWord :=
  let il := stepKind v.word = 3
  let sat := satS 16 y ≠ y
  BitVec.ofNat 64 (v.stamp % 2 ^ 32 * 2 ^ 32 + ux 16 (satS 16 y) * 65536 + v.input % 16 * 4096 + v.user % 4 * 1024 + v.step % 8 * 128 +
    b2n v.pend * 64 + b2n v.early * 32 + b2n sat * 16 + b2n v.dly * 8 + b2n il * 4 + v.cv % 2 * 2)

/-- A push into a result FIFO, with the overflow bit `ovf`, the threshold and the level event (R32, R33, R101-R103). -/
def fifoPush (f : Fifo) (now : Nat) (w : DWord) : Fifo × Bool :=
  if f.q.length < 32 then ({ f with q := f.q ++ [w], pushAt := some now }, true) else (f, false)

/-- The pop of the head (R32, R33, R103): the entry, whether the queue was empty, the FIFO after it. -/
def fifoPop (f : Fifo) (now : Nat) : DWord × Bool × Fifo :=
  if f.flushAt = some now then (0#64, false, f)
  else if f.pushAt = some now ∧ f.q.length ≤ 1 then (0#64, true, f)
  else match f.q with
    | [] => (0#64, true, f)
    | w :: r => (w, false, { f with q := r, popAt := some now })

/-- A flush: a push of the same edge stays (R103). -/
def fifoFlush (f : Fifo) (now : Nat) : Fifo :=
  { f with q := if f.pushAt = some now then f.q.drop (f.q.length - 1) else [], flushAt := some now }

/-- FIFOA (0) or FIFOB (1) receives a result word (R101, R102). -/
def fifoWrite (c v : Nat) (w : DWord) (s : State) : State :=
  let pg := Reg.ADCFIFO.page c
  if s.runs pg then
    let f := if v = 0 then (s.cv c).fifoA else (s.cv c).fifoB
    let r := fifoPush f s.now w
    if r.2 then
      let thr := if v = 0 then s.f (Reg.ADCFIFO.LEVEL c) 5 0 else s.f (Reg.ADCFIFO.LEVEL c) 21 16
      let before := f.q.length + b2n (f.popAt = some s.now)
      let s := s.setCv c (if v = 0 then { s.cv c with fifoA := r.1 } else { s.cv c with fifoB := r.1 })
      if thr ≠ 0 ∧ r.1.q.length = thr ∧ before + 1 = thr then s.chanEvent c (16 + v) else s
    else (s.setStatBit pg v).capture pg 3 0
  else s

/-- A result is written to its destinations: FIFO, Maquette, wear ledger, DC-link value (R100, R101, R105, R207, R216). -/
def emitResult (c : Nat) (v : Conv) (y : Int) (s : State) : State :=
  let w := resultWord v y
  let ys := satS 16 y
  let s := if v.early then s.setStatBit (Reg.ADC.page c) 1 else s
  let s := if bitOf v.word 25 then fifoWrite c (if stepKind v.word = 3 then 0 else v.cv) w s else s
  let s :=
    if bitOf v.word 26 then
      let r := maqOffer c w s
      if r.1 then r.2 else (r.2.cntAdd (Reg.ADC.MAQDROP c) 31 0 1 true).setStatBit (Reg.ADC.page c) 2
    else s
  if v.early then s
  else if v.input < 3 then wearAdd c v.input ys s
  else if v.input = 3 then chUdc c ys s
  else s

/-- After the last write of a step: the end of the run if it was the last step (R81, R84). -/
def seqEndCheck (c u : Nat) (s : State) : State :=
  let q := s.sq c u
  if q.run ∧ !q.waiting ∧ !(s.cv c).convs.any (fun v => v.user = u) ∧ q.pendB.isNone then
    (s.setSq c u { q with run := false, endAt := some s.now }).chanEvent c (12 + u)
  else s

/-- A PAIR, A-only or B-only step's results (R75, R90, R100, R216). -/
def seqResults (c : Nat) (g : List Conv) (rawA rawB : Nat) (s : State) : State :=
  let val := fun (v : Conv) => formatCode c v.cv v.input (if v.cv = 0 then rawA else rawB) s
  let s1 := g.foldl (fun t v => emitResult c v (val v) t) s
  match g with
  | [a, b] =>
    let ya := satS 16 (val a)
    let yb := satS 16 (val b)
    let s1 :=
      if s1.mode c = 1 ∧ s1.b (Reg.WEAR.CFG c) 16 ∧ a.input < 3 ∧ b.input < 3 ∧ a.input ≠ b.input ∧ !a.early then
        wearAdd c (3 - a.input - b.input) (-(ya + yb)) s1
      else s1
    if bitOf a.word 27 ∧ a.user = 0 ∧ a.step = 0 then chiselEdge0 c a.input b.input ya yb (a.openAt + 48) s1 else s1
  | _ => s1

/-- One interleaved sample of a sequencer (R91-R93, R98 step 4). -/
def ilResult (c : Nat) (v : Conv) (raw : Nat) (s : State) : State :=
  let y := formatCode c v.cv v.input raw s
  let q := s.sq c v.user
  if v.cv = 1 then s.setSq c v.user { q with pendB := some ⟨y, v, q.prevA⟩ }
  else
    let a : IlA := ⟨satS 16 y, v.openAt, v.dly⟩
    let s1 :=
      match q.pendB with
      | some b => emitResult c b.conv (skewCode c b a s) s
      | none => s
    let s1 := s1.setSq c v.user { s1.sq c v.user with prevA := some a, pendB := none }
    if v.j < ilSamples v.word then emitResult c v y (if v.j = 0 then s1 else s1.moveTo (s1.now + 1)) else s1

/-- One interleaved sample of SKEW (R110): COEF and drift, no skew correction. -/
def skewSample (c : Nat) (v : Conv) (raw : Nat) (r : CalRun) (s : State) : State :=
  let y := satS 16 (formatCode c v.cv v.input raw s)
  let out := v.dly || v.early
  if v.cv = 1 then s.setCv c { s.cv c with cal := some { r with pendB := some ⟨y, { v with dly := out }, r.prevA⟩ } }
  else
    let a : IlA := ⟨y, v.openAt, out⟩
    let r1 :=
      match r.pendB with
      | some b =>
        match b.prev with
        | some p =>
          if p.out ∨ b.conv.dly ∨ out then r
          else { r with sumBS := r.sumBS + (2 * b.y - p.y - y) * (y - p.y), sumSS := r.sumSS + (y - p.y) * (y - p.y), nS := r.nS + 1 }
        | none => r
      | none => r
    s.setCv c { s.cv c with cal := some { r1 with prevA := some a, pendB := none, done := decide (v.j = 4096) } }

/-- One conversion of ZERO or SPAN (R95, R107): step 2 of R98 on the raw code of INPUT, the raw code of an internal level. -/
def calSample (c : Nat) (v : Conv) (raw : Nat) (r : CalRun) (s : State) : State :=
  if v.early then s
  else
    let n := if v.cv = 0 then r.nA else r.nB
    let x : Int := if n < 256 then scaleCode (s.bipolar c v.input) (4 * (raw : Int)) else raw
    let add := fun (l : List Int) => lput l (n / 256) (lget 0 l (n / 256) + x)
    let r := if v.cv = 0 then { r with nA := n + 1, sumA := add r.sumA } else { r with nB := n + 1, sumB := add r.sumB }
    let t := calTotal r.kind
    s.setCv c { s.cv c with cal := some { r with done := (!r.cva || decide (t ≤ r.nA)) && (!r.cvb || decide (t ≤ r.nB)) } }

/-- The exact figures OERR and GERR of R114. -/
def driftFigures (c v : Nat) (s : State) : Int × Int :=
  let d := if v = 0 then (s.cv c).driftA else (s.cv c).driftB
  let r := (s.reg (if v = 0 then Reg.ADCCAL.REFA c else Reg.ADCCAL.REFB c)).toNat
  let lo : Int := bitsOf r 15 0
  let g : Int := 64 * ((bitsOf r 31 16 : Int) - lo)
  (nearOpen 0x350 (d.l - 64 * lo) 64, nearOpen 0x360 (65536 * (d.h - d.l - g)) g)

/-- A figure in a 16-bit field; one that does not fit leaves an unstated value (log 5). -/
def openFit (site : Nat) (x : Int) (s : State) : Nat × State :=
  if satS 16 x = x then (ux 16 x, s) else ((s.takeFree site).1 % 65536, (s.takeFree site).2)

/-- DRIFTA or DRIFTB takes the figures (R114). -/
def driftShow (c v : Nat) (s : State) : State :=
  let g := driftFigures c v s
  let o := openFit 0x350 g.1 s
  let e := openFit 0x360 g.2 o.2
  e.2.setReg (if v = 0 then Reg.ADCCAL.DRIFTA c else Reg.ADCCAL.DRIFTB c) (BitVec.ofNat 32 (e.1 * 65536 + o.1))

/-- L and H are seeded from LO0 and HI0 (R112). -/
def driftSeed (c v : Nat) (s : State) : State :=
  let r := (s.reg (if v = 0 then Reg.ADCCAL.REFA c else Reg.ADCCAL.REFB c)).toNat
  let f := fun (d : DriftSt) => { d with l := 64 * (bitsOf r 15 0 : Int), h := 64 * (bitsOf r 31 16 : Int) }
  driftShow c v (s.setCv c (if v = 0 then { s.cv c with driftA := f (s.cv c).driftA } else { s.cv c with driftB := f (s.cv c).driftB }))

/-- A drift conversion is complete (R95, R112-R114). -/
def driftSample (c : Nat) (v : Conv) (raw : Nat) (s : State) : State :=
  if v.early ∨ !s.b (Reg.ADCCAL.DRIFTCTL c) 0 then s
  else
    let d := if v.cv = 0 then (s.cv c).driftA else (s.cv c).driftB
    let k := s.f (Reg.ADCCAL.DRIFTCTL c) 7 4
    let upd := fun (x : Int) => x + openDiv 0x340 (256 * (raw : Int) - x) (2 ^ k)
    let d := if v.input = 8 then { d with l := upd d.l, nextHi := true, updAt := some s.now } else { d with h := upd d.h, nextHi := false, updAt := some s.now }
    let s := s.setCv c (if v.cv = 0 then { s.cv c with driftA := d } else { s.cv c with driftB := d })
    let g := driftFigures c v.cv s
    let s := driftShow c v.cv s
    let ol := s.f (Reg.ADCCAL.DRIFTLIM c) 15 0
    let gl := s.f (Reg.ADCCAL.DRIFTLIM c) 31 16
    if d.h ≤ d.l ∨ (ol ≠ 0 ∧ ol < g.1.natAbs) ∨ (gl ≠ 0 ∧ gl < g.2.natAbs) then s.setStatBit (Reg.ADCCAL.page c) 2 else s

/-- CONVERSION_END: the oldest conversion (or pair) of user `u` ends and its results are written 162 CCLK after its sampling instant (R75, R92). -/
def convEnd (c u rawA rawB : Nat) (s : State) : State :=
  match (s.cv c).convs.find? (fun v => v.user = u) with
  | none => s
  | some v =>
    let s := s.moveTo (v.openAt + 162)
    let g := (s.cv c).convs.filter (fun k => k.user = u ∧ k.openAt = v.openAt)
    let s := s.setCv c { s.cv c with convs := (s.cv c).convs.filter (fun k => !(k.user = u ∧ k.openAt = v.openAt)) }
    let raw := (if v.cv = 0 then rawA else rawB) % 16384
    if u < 4 then
      seqEndCheck c u (if stepKind v.word = 3 then ilResult c v raw s else seqResults c g (rawA % 16384) (rawB % 16384) s)
    else if 6 ≤ u then driftSample c v raw s
    else
      match (s.cv c).cal with
      | none => s
      | some r => if r.kind = .skew then skewSample c v raw r s else calSample c v raw r s

/-! ## Reference buffer -/

/-- A write of REF.EN (R94). -/
def refWrite (c : Nat) (en : Bool) (s : State) : State :=
  let s1 := s.setReg (Reg.ADC.REF c) (if en then s.reg (Reg.ADC.REF c) ||| 1#32 else 0#32)
  if en then (if s.b (Reg.ADC.REF c) 0 then s1 else s1.setCv c { s1.cv c with refAt := some s1.now })
  else s1.setCv c { s1.cv c with refAt := none }

/-- REF_READY at the 40,000th ACLK edge after the write (R94). -/
def refReadyAt (c : Nat) (s : State) : State :=
  match (s.cv c).refAt with
  | none => s
  | some t =>
    let s := s.moveTo (nextEdge 8 t + 39999 * 8)
    let s := (s.setCv c { s.cv c with refAt := none }).setF (Reg.ADC.REF c) 31 31 1
    (s.setStatBit (Reg.ADC.page c) 0).chanEvent c 30

/-! ## Calibration commands -/

/-- The running command ends; CALDONE or CALFAIL (R107). -/
def calEnd (c : Nat) (fail : Option (Nat × Nat)) (s : State) : State :=
  let pg := Reg.ADCCAL.page c
  let s := dropConvs c 5 (dropConvs c 4 s)
  let s := (s.setCv c { s.cv c with cal := none }).setF (Reg.ADCCAL.CALCTL c) 31 31 0
  match fail with
  | none => s.setStatBit pg 0
  | some (code, info) => (s.setStatBit pg 1).capture pg code info

/-- CAL_ABORT and the other aborts of code 0x19 (R106). -/
def calAbort (c : Nat) (s : State) : State := if (s.cv c).cal.isSome then calEnd c (some (0x19, 0)) s else s

/-- A start bit of CALCTL is 1 (R106, R107): refusals 0x14 and 0x15, else the command runs from this edge. -/
def calStart (c : Nat) (k : CalKind) (s : State) : State :=
  let pg := Reg.ADCCAL.page c
  let a := Reg.ADCCAL.CALCTL c
  let cva := s.b a 8
  let cvb := s.b a 9
  let i := s.f a 2 0
  let zeroOk := match (s.cv c).zero with
    | some z => z.cva == cva && z.cvb == cvb && z.input == i
    | none => false
  if !s.refReady c ∨ !s.adcRuns c then s.capture pg 0x14 0
  else if (s.cv c).cal.isSome ∨ (!cva ∧ !cvb) ∨ 4 < i ∨ (k = .span ∧ !zeroOk) then s.capture pg 0x15 0
  else
    let r : CalRun := {
      kind := k, cva := cva, cvb := cvb, input := i, nA := 0, nB := 0, sumA := [0, 0, 0], sumB := [0, 0, 0], j := 0,
      nominal := alignUp 8 s.now, hold := 0, prevA := none, pendB := none, sumBS := 0, sumSS := 0, nS := 0, done := false }
    let s := s.setCv c { s.cv c with cal := some r, zero := if k = .zero then none else (s.cv c).zero }
    s.setF a 31 31 1

/-- A write of CALCTL (R106): a write while BUSY aborts; ABORT acts first, then the start bits from bit 16 upward. -/
def calctlWrite (c : Nat) (v : Nat) (s : State) : State :=
  let busy := (s.cv c).cal.isSome
  let s := if busy then calAbort c s else s
  let s := s.swStore (Reg.ADCCAL.CALCTL c) (BitVec.ofNat 32 (v % 0x400 &&& 0x307))
  let go := fun (bit : Nat) (k : CalKind) (t : State) =>
    if bitOf v bit then (if busy then t.capture (Reg.ADCCAL.page c) 0x15 0 else calStart c k t) else t
  go 18 .skew (go 17 .span (go 16 .zero s))

/-- GAIN and OFS of one converter (R108): sums of the zero and span points over 256 conversions, and the sums of VREF x 1/4 and 3/4. The code of a failure, else COEF and REF words. -/
def spanResult (site : Nat) (ztgt stgt : Int) (z : Int) (sums : List Int) : Nat ⊕ (Nat × Nat) :=
  let span := lget 0 sums 0 - z
  let lo := openDiv site (lget 0 sums 1) 64
  let hi := openDiv site (lget 0 sums 2) 64
  if (stgt - ztgt).natAbs < 8192 ∨ span = 0 ∨ (0 < span) ≠ (0 < stgt - ztgt) ∨ lget 0 sums 2 ≤ lget 0 sums 1 ∨ hi ≤ lo then .inl 0x16
  else
    let gain := divRound ((stgt - ztgt) * 2 ^ 22) span
    let ofs := divRound (z * gain - ztgt * 2 ^ 22) (256 * gain)
    if gain < 0x2000 ∨ 0x7FFF < gain ∨ satS 16 ofs ≠ ofs then .inl 0x17
    else .inr (gain.toNat * 65536 + ux 16 ofs, hi.toNat * 65536 + lo.toNat)

/-- SPAN's coefficients are written and drift tracking is reseeded (R107, R108, R112). -/
def spanStore (c v i : Nat) (r : Nat ⊕ (Nat × Nat)) (s : State) : State :=
  match r with
  | .inl _ => s
  | .inr (k, ref) =>
    driftSeed c v ((s.setReg (Reg.ADCCAL.COEF c (5 * v + i)) (BitVec.ofNat 32 k)).setReg
      (if v = 0 then Reg.ADCCAL.REFA c else Reg.ADCCAL.REFB c) (BitVec.ofNat 32 ref))

/-- The failure code of one converter. -/
def spanCode (on : Bool) (r : Nat ⊕ (Nat × Nat)) : Nat :=
  match r with
  | .inl k => if on then k else 0
  | .inr _ => 0

/-- CAL_COMPLETE: the command's conversions are all counted (R107, R108, R110). -/
def calComplete (c : Nat) (s : State) : State :=
  match (s.cv c).cal with
  | none => s
  | some r =>
    if !r.done then s
    else match r.kind with
      | .zero =>
        let s := s.setCv c { s.cv c with zero := some ⟨r.cva, r.cvb, r.input, lget 0 r.sumA 0, lget 0 r.sumB 0⟩ }
        calEnd c none s
      | .span =>
        match (s.cv c).zero with
        | none => calEnd c (some (0x16, 0)) s
        | some z =>
          let t := (s.reg (Reg.ADCCAL.CALTGT c)).toNat
          let zt := sx 16 (bitsOf t 15 0)
          let st := sx 16 (bitsOf t 31 16)
          let ra := spanResult 0x320 zt st z.sumA r.sumA
          let rb := spanResult 0x330 zt st z.sumB r.sumB
          let fa := spanCode r.cva ra
          let fb := spanCode r.cvb rb
          if fa = 0x16 ∨ fb = 0x16 then calEnd c (some (0x16, b2n (fa == 0x16) + 2 * b2n (fb == 0x16))) s
          else if fa ≠ 0 ∨ fb ≠ 0 then calEnd c (some (0x17, b2n (fa != 0) + 2 * b2n (fb != 0))) s
          else
            let s := if r.cva then spanStore c 0 r.input ra s else s
            let s := if r.cvb then spanStore c 1 r.input rb s else s
            calEnd c none s
      | .skew =>
        if r.nS = 0 ∨ r.sumSS < 65536 * (r.nS : Int) then calEnd c (some (0x18, 0)) s
        else
          let k := satS 16 (nearOpen 0x310 (2 ^ 14 * r.sumBS) r.sumSS)
          calEnd c none (s.hwUpd (Reg.ADCCAL.SKEW c) 15 0 (ux 16 k))

/-- A write of REFA (0) or REFB (1) (R106, R112, R113). -/
def refCodeWrite (c v w : Nat) (s : State) : State :=
  if bitsOf w 31 16 ≤ bitsOf w 15 0 then s.capture (Reg.ADCCAL.page c) 0x1D 0
  else driftSeed c v (s.swStore (if v = 0 then Reg.ADCCAL.REFA c else Reg.ADCCAL.REFB c) (BitVec.ofNat 32 w))

/-- A write of DRIFTCTL (R112). -/
def driftctlWrite (c w : Nat) (s : State) : State :=
  let was := s.b (Reg.ADCCAL.DRIFTCTL c) 0
  let s := s.swStore (Reg.ADCCAL.DRIFTCTL c) (BitVec.ofNat 32 (w &&& 0xF3))
  if bitOf w 0 ∧ !was then driftSeed c 1 (driftSeed c 0 s)
  else if !bitOf w 0 then dropConvs c 7 (dropConvs c 6 s)
  else s

/-- DRIFTAGE as read (R114): microseconds since each converter's latest completed drift conversion, or since the reset of the page before the first (log 13), saturating. -/
def State.driftAge (s : State) (c : Nat) : Nat :=
  let f := fun (d : DriftSt) => match d.updAt with
    | some t => satN 65535 ((s.now - t) / 800)
    | none => satN 65535 ((s.now - s.rel) / 800)
  f (s.cv c).driftB * 65536 + f (s.cv c).driftA

/-- Stop every converter user of channel `c` (ADC page disable, R86, R106). -/
def adcStop (c : Nat) (s : State) : State :=
  let s := (List.range 4).foldl (fun t u => seqAbort c u t) s
  calAbort c (dropConvs c 7 (dropConvs c 6 s))

end Sys2Proof.Machine
end

