-- ==== Sys2Proof/Machine/Ports.lean ====
section
/-! DEFINITION. Ethernet (R603-R609), the boot-flash controller (R615, R616), GPIO (R617, R618). -/

namespace Sys2Proof.Machine

def State.setHost (s : State) (h : HostSt) : State := { s with host := h }

/-! ## Ethernet -/

def State.eth (s : State) (n : Nat) : EthSt := if n = 0 then s.host.eth0 else s.host.eth1
def State.setEth (s : State) (n : Nat) (e : EthSt) : State :=
  if n = 0 then s.setHost { s.host with eth0 := e } else s.setHost { s.host with eth1 := e }
def State.ethOwner (s : State) (n : Nat) : Nat := s.f (Reg.ETH.page n + 4) 8 0
def State.ethRq (s : State) (n : Nat) : MemRq := ⟨s.ethOwner n, 101 + n, 1⟩
def State.ethBase (s : State) (n : Nat) : Nat := s.f (Reg.ETH.WINBASE n) 29 0 * 1024
def State.ethSize (s : State) (n : Nat) : Nat := s.f (Reg.ETH.WINSIZE n) 23 0 * 1024
/-- Read and write within the window (R604). -/
def ethRead (n ofs len : Nat) (s : State) : MemAns × State :=
  if s.ethSize n < ofs + len then (.absent, s) else blkRead (s.ethRq n) (s.ethBase n + ofs) len s
def ethWriteMem (n ofs len v : Nat) (s : State) : MemAns × State :=
  if s.ethSize n < ofs + len then (.absent, s) else blkWrite (s.ethRq n) (s.ethBase n + ofs) len v s
/-- A direction halts: TXHALT bit 31, RXHALT bit 30 (R607). -/
def ethHalt (n bit idx : Nat) (s : State) : State :=
  (s.hwSet (Reg.ETH.STATUS n) (BitVec.ofNat 32 (2 ^ bit))).capture (Reg.ETH.page n) 0xAA idx
/-- Window offset of descriptor `i` of a ring register. -/
def State.ethDesc (s : State) (ring i : Nat) : Nat := s.f ring 31 10 * 1024 + 16 * i
def State.ethCount (s : State) (ring : Nat) : Nat := 2 ^ s.f ring 3 0
/-- Word 0x04 of a descriptor: OWN, the kept bits, STATUS, LEN. -/
def descWord (old own status len : Nat) : Nat := putBits (putBits (putBits old 31 31 own) 27 24 status) 11 0 len
/-- The longest frame without FCS. -/
def State.ethMax (s : State) (n : Nat) : Nat := if s.b (Reg.ETH.CFG n) 7 then 2044 else 1518

/-- Complete the transmit descriptor at TXHEAD (R606). -/
def ethTxBack (n d w1 status : Nat) (s : State) : State :=
  let i := s.f (Reg.ETH.TXHEAD n) 9 0
  let s := (ethWriteMem n (d + 4) 4 (descWord w1 0 status (bitsOf w1 11 0)) s).2
  let s := s.setReg (Reg.ETH.TXHEAD n) (BitVec.ofNat 32 ((i + 1) % s.ethCount (Reg.ETH.TXRING n)))
  if s.b (Reg.ETH.NOTE n) 31 then s.raiseSw (s.f (Reg.ETH.NOTE n) 27 16) else s

/-- The transmit side reads the descriptor at TXHEAD (R605-R607); `fuel` bounds the run of refused descriptors. -/
def ethFetch (n : Nat) : Nat → State → State
  | 0, s => s
  | fuel + 1, s =>
    if s.runs (Reg.ETH.page n) ∧ ¬s.b (Reg.ETH.STATUS n) 31 ∧ (s.eth n).tx.isNone then
      let i := s.f (Reg.ETH.TXHEAD n) 9 0
      let d := s.ethDesc (Reg.ETH.TXRING n) i
      let sleep := fun (s : State) =>
        if (s.eth n).kick then ethFetch n fuel (s.setEth n { s.eth n with kick := false }) else s.setEth n { s.eth n with wait := true }
      match ethRead n d 16 s with
      | (.val v, s) =>
        let w1 := bitsOf v 63 32
        let len := bitsOf w1 11 0
        if ¬bitOf w1 31 then sleep s
        else if len < 14 ∨ s.ethMax n < len then ethFetch n fuel (ethTxBack n d w1 4 s)
        else
          match ethRead n (v % 2 ^ 32) len s with
          | (.val b, s) =>
            let bytes := leBytes b len
            let bytes := bytes ++ List.replicate (60 - len) 0
            s.setEth n { s.eth n with wait := false, tx := some ⟨i, bitOf w1 30, bytes, 0⟩ }
          | (.wait, s) => s.setEth n { s.eth n with wait := true }
          | (a, s) => ethHalt n 31 i (ethWriteMem n (d + 4) 4 (descWord w1 1 (if a = .bad then 2 else 1) len) s).2
      | (.wait, s) => s.setEth n { s.eth n with wait := true }
      | (_, s) => ethHalt n 31 i s
    else s
/-- The transmit side looks at its head descriptor. -/
def ethLook (n : Nat) (s : State) : State := ethFetch n (s.ethCount (Reg.ETH.TXRING n) + 2) s
/-- TXKICK (R606). -/
def ethKick (n : Nat) (s : State) : State :=
  let e := s.eth n
  if e.wait then ethLook n (s.setEth n { e with wait := false }) else s.setEth n { e with kick := true }
/-- ETH_TX_DONE: the first nibble after the SFD left at edge `sfd`, the frame ended at edge `done` (R606, R608). -/
def ethTxDone (n sfd done : Nat) (s : State) : State :=
  match (s.eth n).tx with
  | none => s
  | some x =>
    let s := s.moveTo done
    let d := s.ethDesc (Reg.ETH.TXRING n) x.idx
    let t := s.timeAt sfd + (s.f (Reg.ETH.LAT n) 27 16 : Nat) * 2 ^ 38
    let ns := t / nsUnit
    let s := s.setEth n { s.eth n with tx := none, sent := x.frame ++ leBytes (crc32 x.frame) 4 }
    let s := if x.ts then (ethWriteMem n (d + 8) 8 ((ns % 1000000000).toNat + (ns / 1000000000 % 2 ^ 32).toNat * 2 ^ 32) s).2 else s
    match ethRead n (d + 4) 4 s with
    | (.val w1, s) => ethLook n (ethTxBack n d w1 0 s)
    | (_, s) => ethHalt n 31 x.idx s

/-- The address filter (R603). -/
def State.ethTakes (s : State) (n : Nat) (b : List Nat) : Bool :=
  let dst := b.take 6
  let mine := leBytes (s.reg (Reg.ETH.MACLO n)).toNat 4 ++ leBytes (s.f (Reg.ETH.MACHI n) 15 0) 2
  s.b (Reg.ETH.CFG n) 9 || dst == List.replicate 6 0xFF || dst == mine || (s.b (Reg.ETH.CFG n) 8 && bitOf (lget 0 b 0) 0)
/-- ETH_RX_FRAME: the bytes without FCS, whether the FCS was right, the edge of the SFD's first nibble and of the frame's end (R603, R606-R608). -/
def ethRxFrame (n : Nat) (b : List Nat) (fcs : Bool) (sfd done : Nat) (s : State) : State :=
  if s.runs (Reg.ETH.page n) then
    let s := s.moveTo done
    if ¬fcs then s.cntAdd (Reg.ETH.CRCERR n) 31 0 1 true
    else if b.length < 60 ∨ s.ethMax n < b.length ∨ ¬s.ethTakes n b ∨ s.b (Reg.ETH.STATUS n) 30 then s
    else
      let i := s.f (Reg.ETH.RXHEAD n) 9 0
      let d := s.ethDesc (Reg.ETH.RXRING n) i
      match ethRead n d 8 s with
      | (.val v, s) =>
        let w1 := v / 2 ^ 32
        if ¬bitOf w1 31 then s.cntAdd (Reg.ETH.RXDROP n) 31 0 1 true
        else
          let m := min b.length (s.f (Reg.ETH.RXBUF n) 11 0)
          match ethWriteMem n (v % 2 ^ 32) m (leNat (b.take m)) s with
          | (.val _, s) =>
            let ns := (s.timeAt sfd - (s.f (Reg.ETH.LAT n) 11 0 : Nat) * 2 ^ 38) / nsUnit
            let s := (ethWriteMem n (d + 8) 8 ((ns % 1000000000).toNat + (ns / 1000000000 % 2 ^ 32).toNat * 2 ^ 32) s).2
            let s := (ethWriteMem n (d + 4) 4 (descWord w1 0 (if m < b.length then 3 else 0) m) s).2
            let s := s.setReg (Reg.ETH.RXHEAD n) (BitVec.ofNat 32 ((i + 1) % s.ethCount (Reg.ETH.RXRING n)))
            if s.b (Reg.ETH.NOTE n) 15 then s.raiseSw (s.f (Reg.ETH.NOTE n) 11 0) else s
          | (.wait, s) => s.cntAdd (Reg.ETH.RXDROP n) 31 0 1 true
          | (a, s) => ethHalt n 30 i (ethWriteMem n (d + 4) 4 (descWord w1 1 (if a = .bad then 2 else 1) 0) s).2
      | (.wait, s) => s.cntAdd (Reg.ETH.RXDROP n) 31 0 1 true
      | (_, s) => ethHalt n 30 i s
  else s

/-- A window of `kib` KiB at `base` lies in plinth SRAM or usable LPDDR4; an empty one lies anywhere (R604). -/
def State.windowOk (s : State) (base kib : Nat) : Bool :=
  let a := base * 1024
  let e := a + kib * 1024
  kib == 0 || (decide (0x80000000 ≤ a) && decide (e ≤ 0x81800000)) || (decide (0x1000000000 ≤ a) && decide (e ≤ 0x1000000000 + s.dramUsable))

/-- A write to block register `o` of ETH[n] (R604-R609); ring 0 where the manual asks for it has been checked. -/
def ethWrite (n o v : Nat) (s : State) : State :=
  let pg := Reg.ETH.page n
  let a := pg + o
  let st := s.swStore a (BitVec.ofNat 32 v)
  let no := s.capture pg 0xA8 o
  if (o = 0x40 ∨ o = 0x44 ∨ o = 0x48 ∨ o = 0x4C ∨ o = 0x50 ∨ o = 0x54 ∨ o = 0x58 ∨ o = 0x5C) ∧ s.en pg then s.capture pg 2 o
  else if o = 0x40 then (if bitsOf v 1 0 = 3 ∨ (bitsOf v 1 0 = 2 ∧ bitOf v 2) then no else st)
  else if o = 0x4C then (if s.windowOk (bitsOf v 29 0) (s.f (Reg.ETH.WINSIZE n) 23 0) then st else no)
  else if o = 0x50 then (if s.windowOk (s.f (Reg.ETH.WINBASE n) 29 0) (bitsOf v 23 0) then st else no)
  else if o = 0x54 ∨ o = 0x58 then (if bitsOf v 3 0 < 2 ∨ 10 < bitsOf v 3 0 then no else st)
  else if o = 0x5C then (if bitsOf v 11 0 % 64 ≠ 0 ∨ bitsOf v 11 0 < 128 ∨ 2048 < bitsOf v 11 0 then no else st)
  else if o = 0x60 then (if bitOf v 0 then ethKick n s else s)
  else if o = 0x6C then
    let own := fun (i : Nat) => decide (0x800 ≤ i) && s.swOwner i == s.ethOwner n
    if own (bitsOf v 27 16) ∧ own (bitsOf v 11 0) then st else s.capture pg 0xA9 o
  else if o = 0x74 then
    let s := s.setReg a (s.reg a &&& ~~~(BitVec.ofNat 32 (Nat.land v 0xC0000000)))
    if bitOf v 31 then ethLook n s else s
  else if o = 0x80 then
    if n = 0 then
      let busy := s.host.mdio
      let s := s.swStore a (BitVec.ofNat 32 (putBits (Nat.land v 0x23FFFFFF) 30 30 (b2n (busy || bitOf v 31))))
      if bitOf v 31 then s.setHost { s.host with mdio := true } else s
    else s
  else st
/-- MDIO_DONE with the data read (R609). -/
def mdioDone (data : Nat) (s : State) : State :=
  if s.host.mdio then
    let a := Reg.ETH.MDIO 0
    let s := (s.setF a 30 30 0).setHost { s.host with mdio := false }
    if s.b a 29 then s.setF a 15 0 data else s
  else s
/-- Clearing EN of a port ends its frame; setting it starts the transmit side at TXHEAD. -/
def ethStop (n : Nat) (s : State) : State := s.setEth n { EthSt.idle with sent := (s.eth n).sent }

/-! ## Boot flash (R616) -/

def State.qspiData (s : State) (n : Nat) : List Nat := ((List.range 16).flatMap (fun k => leBytes (s.reg (Reg.QSPI.DATA k)).toNat 4)).take n
/-- Lanes of a LANES field. -/
def lanes (v : Nat) : Nat := if v = 0 then 1 else if v = 1 then 2 else 4
/-- CCLK of a transfer. -/
def State.qspiTime (s : State) (x : Nat) : Nat :=
  let ab := if bitsOf x 23 22 = 1 then 3 else if bitsOf x 23 22 = 2 then 4 else 0
  (8 + ceilDiv (8 * ab) (lanes (bitsOf x 27 26)) + bitsOf x 21 16 + ceilDiv (8 * s.f Reg.QSPI.XLEN 16 0) (lanes (bitsOf x 25 24))) * 2 * s.f Reg.QSPI.CFG 7 0
/-- A write to block register `o` of QSPI. -/
def qspiWrite (o v : Nat) (s : State) : State :=
  let pg := Reg.QSPI.page
  let st := s.swStore (pg + o) (BitVec.ofNat 32 v)
  let no := s.capture pg 0xAB o
  if o = 0x40 then (if bitsOf v 7 0 < 8 then no else st)
  else if o = 0x4C then (if 65536 < bitsOf v 16 0 ∨ (64 < bitsOf v 16 0 ∧ ¬s.b Reg.QSPI.XCTL 28) then no else st)
  else if o = 0x44 then
    if bitsOf v 27 26 = 3 ∨ bitsOf v 25 24 = 3 then no
    else if bitOf v 31 then
      if s.host.qspi.isSome ∨ (¬bitOf v 28 ∧ 64 < s.f Reg.QSPI.XLEN 16 0) then no
      else (s.swStore (pg + o) (BitVec.ofNat 32 (putBits (Nat.land v 0x3FFF00FF) 30 30 1))).setHost { s.host with qspi := some (s.now + s.qspiTime v) }
    else s.swStore (pg + o) (BitVec.ofNat 32 (putBits (Nat.land v 0x3FFF00FF) 30 30 (s.f (pg + o) 30 30)))
  else st
/-- The DATA registers take bytes. -/
def qspiLoad (b : List Nat) (s : State) : State :=
  (List.range 16).foldl (fun t k => if 4 * k < b.length then t.setReg (Reg.QSPI.DATA k) (BitVec.ofNat 32 (leNat ((b.drop (4 * k)).take 4))) else t) s
/-- QSPI_DONE: `b` are the data bytes of a read from the flash. -/
def qspiDone (b : List Nat) (s : State) : State :=
  match s.host.qspi with
  | none => s
  | some t =>
    let s := s.moveTo t
    let n := s.f Reg.QSPI.XLEN 16 0
    let x := Reg.QSPI.XCTL
    let b := (b ++ List.replicate (n - b.length) 0).take n
    let rq : MemRq := ⟨0, 120, 1⟩
    let pa := (s.reg Reg.QSPI.XMEM).toNat * 256
    let r : Bool × State :=
      if s.b x 29 then
        if s.b x 28 then
          match blkRead rq pa n s with
          | (.val v, s) => (true, s.setHost { s.host with qtx := leBytes v n })
          | (_, s) => (false, s)
        else (true, s.setHost { s.host with qtx := s.qspiData n })
      else if s.b x 28 then
        match blkWrite rq pa n (leNat b) s with
        | (.val _, s) => (true, s)
        | (_, s) => (false, s)
      else (true, qspiLoad b s)
    let s := (r.2.setF x 30 30 0).setHost { r.2.host with qspi := none }
    let s := if r.1 then s else s.setStatBit Reg.QSPI.page 1
    s.setStatBit Reg.QSPI.page 0

/-! ## GPIO (R617, R618) -/

def State.setGpio (s : State) (g : GpioSt) : State := s.setHost { s.host with gpio := g }
/-- The action `k` on OUT. -/
def gpioAct (k : Nat) (s : State) : State :=
  let a := Reg.GPIO.ACT k
  let p := s.f a 20 16
  match s.f a 29 28 with
  | 0 => s.setF Reg.GPIO.OUT p p 1
  | 1 => s.setF Reg.GPIO.OUT p p 0
  | _ => s.setF Reg.GPIO.OUT p p (1 - s.f Reg.GPIO.OUT p p)
/-- Actions whose edge has come take effect; at one edge the highest k on a pin wins. `upto` is the last edge settled. -/
def gpioSettle (upto : Nat) (s : State) : State :=
  let due := s.host.gpio.acts.filter (fun x => decide (x.1 ≤ upto))
  let wins := fun (x : Nat × Nat) => !due.any (fun y => y.1 == x.1 && decide (x.2 < y.2) && s.f (Reg.GPIO.ACT y.2) 20 16 == s.f (Reg.GPIO.ACT x.2) 20 16)
  let s := s.setGpio { s.host.gpio with acts := s.host.gpio.acts.filter (fun x => decide (upto < x.1)) }
  (due.filter wins).foldl (fun t x => gpioAct x.2 t) s
/-- A software write sets OUT to `new` on the pins `mask`; it wins over actions of the same edge (R618, R23). -/
def gpioOut (mask new : Nat) (s : State) : State :=
  let s := gpioSettle (s.now - 1) s
  let keep := s.host.gpio.acts.filter (fun x => !(x.1 == s.now && bitOf mask (s.f (Reg.GPIO.ACT x.2) 20 16)))
  let s := s.setGpio { s.host.gpio with acts := keep }
  let o := (s.reg Reg.GPIO.OUT).toNat
  gpioSettle s.now (s.swStore Reg.GPIO.OUT (BitVec.ofNat 32 (Nat.lor (o - Nat.land o mask) (Nat.land new mask))))
/-- A write to block register `o` of GPIO. -/
def gpioWrite (o v : Nat) (s : State) : State :=
  let pg := Reg.GPIO.page
  let s := gpioSettle (s.now - 1) s
  let owner := s.f (pg + 4) 8 0
  let st := s.swStore (pg + o) (BitVec.ofNat 32 v)
  if o = 0x44 then gpioOut 0xFFFFFFFF v s
  else if o = 0x48 then gpioOut v v s
  else if o = 0x4C then gpioOut v 0 s
  else if o = 0x54 then s.setReg (pg + o) (s.reg (pg + o) &&& ~~~(BitVec.ofNat 32 v))
  else if 0x80 ≤ o ∧ o < 0x100 then (if 0x800 ≤ bitsOf v 11 0 ∧ s.swOwner (bitsOf v 11 0) = owner then st else s.capture pg 0xAC o)
  else if 0x100 ≤ o ∧ o < 0x120 then (if bitsOf v 29 28 = 3 then s.capture pg 0xAC o else st)
  else st
/-- The levels a read of IN shows: driven pins show their output (R617). -/
def State.gpioIn (s : State) : Nat := s.host.gpio.pins
/-- GPIO_EDGE: the synchronised levels become `pins` (R617). -/
def gpioEdge (pins : Nat) (s : State) : State :=
  let old := s.host.gpio.pins
  let pins := pins % 2 ^ 32
  let s := s.setGpio { s.host.gpio with pins := pins }
  let was := s.reg Reg.GPIO.EDGE
  let s := (List.range 32).foldl (fun t j =>
    let c := Reg.GPIO.INCFG j
    let up := bitOf pins j && !bitOf old j
    let down := !bitOf pins j && bitOf old j
    if (up ∧ t.b c 28) ∨ (down ∧ t.b c 29) then
      let t := t.hwSet Reg.GPIO.EDGE (BitVec.ofNat 32 (2 ^ j))
      if t.b c 31 then t.raiseSw (t.f c 11 0) else t
    else t) s
  if s.reg Reg.GPIO.EDGE = was then s else s.setStatBit Reg.GPIO.page 0
/-- An event reaches GPIO: enabled actions on it change their pins at the next edge, if it is delivered to the owner (R618). -/
def gpioEvent (id : Nat) (s : State) : State :=
  let owner := s.f (Reg.GPIO.page + 4) 8 0
  let ks := (List.range 8).filter (fun k => s.b (Reg.GPIO.ACT k) 31 && s.f (Reg.GPIO.ACT k) 11 0 == id)
  if ks.isEmpty ∨ ¬s.deliverable id owner then s
  else
    let s := gpioSettle s.now s
    s.setGpio { s.host.gpio with acts := s.host.gpio.acts ++ ks.map (fun k => (s.now + 1, k)) }

end Sys2Proof.Machine
end

