-- ==== Sys2Proof/Machine/Events.lean ====
section
/-! DEFINITION. The arrival of events at their consumers (R62, R63, R65, R661). -/

namespace Sys2Proof.Machine

/-- Tenant `t` receives the wave (R63, R65). -/
def Flight.hears (f : Flight) (t : Nat) : Bool := t == 0 || f.tag.isNone || f.tag == some t

/-- The slice of channel `c` is among the wave's consumers. -/
def Scope.slices (sc : Scope) (c : Nat) : Bool :=
  match sc with
  | .slice d => c == d
  | .home _ => false
  | .rest d => c != d
  | .all => true
/-- The task inputs of engine `e` are. -/
def Scope.engines (sc : Scope) (e : Nat) : Bool :=
  match sc with
  | .slice _ => false
  | .home p => e / 8 == p
  | .rest d => e / 8 != d / 4
  | .all => true
/-- The Maquettes, the Pedestal and GPIO are. -/
def Scope.device (sc : Scope) : Bool :=
  match sc with
  | .rest _ => true
  | .all => true
  | _ => false

/-- The event reaches slice `c`: its sequencers, serial interface and PWM generator (R79, R163, R171). -/
def sliceEvent (c id : Nat) (s : State) : State :=
  let s := (List.range 4).foldl (fun t u =>
    let w := (t.reg (Reg.SEQ.TRIG c u)).toNat
    if (bitOf w 15 ∧ bitsOf w 11 0 = id) ∨ (bitOf w 31 ∧ bitsOf w 27 16 = id) then seqTrigger c u t else t) s
  let s := if s.b (Reg.SSI.TRIG c) 15 ∧ s.f (Reg.SSI.TRIG c) 11 0 = id then ssiTrigger c s else s
  if s.f (Reg.PWM.CFG c) 11 0 = id then pwmSync c s else s

/-- Some enabled slot of an engine or a copy takes the event (R582, R583). -/
def State.eventWanted (s : State) (f : Flight) : Bool :=
  (f.scope.device && s.pedWants f.id) ||
    s.arm.tasks.any (fun p => !dJob p.2.words && p.2.state == .running && (dTrigs p.2.words).contains f.id && f.scope.engines p.2.unit && f.hears p.2.tenant)

/-- The wave reaches its consumers. -/
def deliver (f : Flight) (s : State) : State :=
  let s := if s.eventWanted f then dozeEvent s else s
  let s := (List.range 48).foldl (fun t c => if f.scope.slices c && f.hears (t.chOwner c) then sliceEvent c f.id t else t) s
  let s := armRoute f.id f.tag (fun e => f.scope.engines e) s
  if f.scope.device then
    let s := (List.range 12).foldl (fun t p => if f.hears (t.maqOwner p) then maqEvent p f.id t else t) s
    gpioEvent f.id (pedEvent f.id s)
  else s

/-- The wave that arrives next: the earliest, and of equal ones the first raised. -/
def nextFlight : List Flight → Option Flight
  | [] => none
  | f :: r =>
    match nextFlight r with
    | none => some f
    | some g => some (if g.due < f.due then g else f)

/-- EVENT_ARRIVAL. -/
def eventArrival (s : State) : State :=
  match nextFlight s.flight with
  | none => s
  | some f => deliver f ({ s with flight := s.flight.erase f }.moveTo f.due)

end Sys2Proof.Machine
end

