-- ==== Sys2Proof/Machine/Fabric.lean ====
section
/-! DEFINITION. Shares, mailboxes, doorbells and locks (chapter 16). Each access function answers `none` where the access is refused as in R36. -/

namespace Sys2Proof.Machine

/-- A read by this requester clears and pops (R40). -/
def State.consumes (s : State) (rq : Rq) : Bool := !rq.dbg || s.b Reg.DEBUG.CTRL 0

/-- A write of SHARE[t] (R468, R485). -/
def shareWrite (t v : Nat) (s : State) : State :=
  let a := Reg.FABRIC.SHARE t
  let sum := s.f Reg.FABRIC.SHARESUM 9 0 - s.f a 8 0 + v % 512
  if 256 < sum then s.capture Reg.FABRIC.page 0x80 (0x400 + 4 * t)
  else (s.swStore a (BitVec.ofNat 32 (v % 512))).setReg Reg.FABRIC.SHARESUM (BitVec.ofNat 32 sum)

/-! ## Mailboxes (R470-R477, R486) -/

def State.mb (s : State) (n : Nat) : MboxSt := tget (fun _ => MboxSt.idle) s.mbox n
def State.setMb (s : State) (n : Nat) (m : MboxSt) : State := { s with mbox := tput (fun _ => MboxSt.idle) s.mbox n m }
/-- Address of register offset `o` of channel `n`. -/
def mboxReg (n o : Nat) : Nat := Reg.MBOX.page (n / 32) + 0x40 + 0x20 * (n % 32) + o
def State.mboxSndt (s : State) (n : Nat) : Nat := s.f (mboxReg n 8) 29 21
def State.mboxRcvt (s : State) (n : Nat) : Nat := s.f (mboxReg n 8) 20 12
def State.mboxEn (s : State) (n : Nat) : Bool := s.b (mboxReg n 8) 31
/-- The requester may push, may pop (R470). -/
def State.mayPush (s : State) (rq : Rq) (n : Nat) : Bool := s.mboxEn n && (rq.ring == 0 || (decide (32 ≤ n) && s.mboxSndt n == rq.tenant))
def State.mayPop (s : State) (rq : Rq) (n : Nat) : Bool := s.mboxEn n && (rq.ring == 0 || (decide (32 ≤ n) && s.mboxRcvt n == rq.tenant))
/-- Offset of DATA_HI of a channel in its page. -/
def mboxInfo (n o : Nat) : Nat := 0x40 + 0x20 * (n % 32) + o

/-- MBOX_PUSH (R471-R474, R477). -/
def mboxPush (n agent ring hi lo : Nat) (s : State) : State :=
  let m := s.mb n
  let pg := Reg.MBOX.page (n / 32)
  if 4 ≤ m.q.length then
    ((((s.hwSet (mboxReg n 0x10) 0x40000000#32).cntAdd (mboxReg n 0x14) 31 0 1 true).setStatBit pg 0)).capture pg 0x03 (mboxInfo n 4)
  else
    let hi := if s.b (mboxReg n 8) 30 then putBits (putBits hi 31 24 agent) 23 22 ring else hi
    let s := s.setMb n { m with q := m.q ++ [BitVec.ofNat 64 (hi * 2 ^ 32 + lo)], pushAt := some s.now }
    let p := s.f (mboxReg n 0xC) 7 0
    let s :=
      if s.b (mboxReg n 0xC) 8 ∧ !(s.mb p).q.isEmpty then
        ((s.hwSet (mboxReg n 0x10) 0x80000000#32).hwSet (mboxReg p 0x10) 0x80000000#32).setStatBit pg 1
      else s
    s.raiseSw (s.f (mboxReg n 8) 11 0)

/-- MBOX_POP: the head message and the queue without it (R32, R33, R476). -/
def mboxPop (n : Nat) (s : State) : DWord × State :=
  let m := s.mb n
  match m.q with
  | [] => if m.cfgAt = some s.now then (0#64, s) else (0#64, s.capture (Reg.MBOX.page (n / 32)) 0x04 (mboxInfo n 4))
  | x :: r =>
    if m.pushAt = some s.now ∧ r.isEmpty then (0#64, s.capture (Reg.MBOX.page (n / 32)) 0x04 (mboxInfo n 4))
    else (x, s.setMb n { m with q := r })

/-- MBOX_CONFIG: a ring-0 write of CFG (R474, R476). -/
def mboxConfig (n v : Nat) (s : State) : State :=
  let a := mboxReg n 8
  if bitsOf v 11 0 < 0x800 then s.capture (Reg.MBOX.page (n / 32)) 0x81 (mboxInfo n 8)
  else
    let changed := bitsOf v 31 12 ≠ s.f a 31 12
    let s := s.swStore a (BitVec.ofNat 32 v)
    if changed then (s.setMb n ⟨[], none, some s.now, []⟩).setReg (mboxReg n 0x10) (regReset (mboxReg n 0x10)) else s

/-- A 32-bit write at register offset `o` of channel `n`; none where it is refused (R470, R471, R477). -/
def mboxWrite (rq : Rq) (n o v : Nat) (s : State) : Option State :=
  let m := s.mb n
  if o = 0 then (if s.mayPush rq n then some (s.setMb n { m with stage := (rq.agent, BitVec.ofNat 32 v) :: m.stage.filter (fun p => p.1 != rq.agent) }) else none)
  else if o = 4 then
    if s.mayPush rq n then some (mboxPush n rq.agent rq.ring v ((m.stage.lookup rq.agent).getD 0#32).toNat s) else none
  else if rq.ring ≠ 0 then none
  else if o = 8 then some (mboxConfig n v s)
  else if o = 0xC then
    some (if bitOf v 8 ∧ v % 256 = n then s.capture (Reg.MBOX.page (n / 32)) 0x81 (mboxInfo n 0xC)
      else s.swStore (mboxReg n 0xC) (BitVec.ofNat 32 (v % 512)))
  else if o = 0x10 then
    let keep := (s.log.hw.lookup (mboxReg n 0x10)).getD 0#32
    some (s.setReg (mboxReg n 0x10) (s.reg (mboxReg n 0x10) &&& ~~~(BitVec.ofNat 32 (Nat.land v 0xC0000000) &&& ~~~keep)))
  else some (s.swStore (mboxReg n 0x14) (s.loaded (mboxReg n 0x14) (BitVec.ofNat 32 v)))

/-- STAT of a channel as read. -/
def State.mboxStat (s : State) (n : Nat) : Word :=
  let k := (s.mb n).q.length
  BitVec.ofNat 32 (Nat.land (s.reg (mboxReg n 0x10)).toNat 0xC0000000 + (4 - k) * 16 + k)

/-- A 32-bit read at register offset `o` of channel `n`; none where it is refused (R470, R471). -/
def mboxRead (rq : Rq) (n o : Nat) (s : State) : Option (Word × State) :=
  let head := (s.mb n).q.headD 0#64
  if o = 0 then (if s.mayPop rq n then some (BitVec.ofNat 32 head.toNat, s) else none)
  else if o = 4 then
    if !s.mayPop rq n then none
    else if s.consumes rq then (let r := mboxPop n s; some (BitVec.ofNat 32 (r.1.toNat / 2 ^ 32), r.2))
    else some (BitVec.ofNat 32 (head.toNat / 2 ^ 32), s)
  else if rq.ring = 0 ∨ (32 ≤ n ∧ (s.mboxSndt n = rq.tenant ∨ s.mboxRcvt n = rq.tenant)) then
    some (if o = 0x10 then s.mboxStat n else if o < 0x18 then s.reg (mboxReg n o) else 0#32, s)
  else none

/-! ## Doorbells (R479, R480, R487) -/

/-- DOORBELL_RING: doorbell `d` is rung by agent `g` (R479). -/
def doorbellRing (d g : Nat) (s : State) : State :=
  let a := Reg.DBELL.RING (d / 256) (d % 256)
  let s := (s.cntAdd a 31 16 1 true).setF a 15 8 g
  s.raiseSw (0x800 + d)

/-- A write of RING[k] of DBELL[g]: a 1 in RING rings; another value loads COUNT from ring 0. -/
def ringWrite (rq : Rq) (g k v : Nat) (s : State) : Option State :=
  let c := Reg.DBELL.DBCFG g k
  let may := rq.ring == 0 || (s.b c 31 && s.f c 8 0 == rq.tenant)
  if bitOf v 0 then (if may then some (doorbellRing (256 * g + k) rq.agent s) else none)
  else if rq.ring = 0 then
    let a := Reg.DBELL.RING g k
    some (s.setReg a (s.loaded a (BitVec.ofNat 32 (putBits (s.reg a).toNat 31 16 (bitsOf v 31 16))))) else none

/-- A read of RING[k] (R479). -/
def ringRead (rq : Rq) (g k : Nat) (s : State) : Option Word :=
  let c := Reg.DBELL.DBCFG g k
  if rq.ring = 0 ∨ s.swOwner (0x800 + 256 * g + k) = rq.tenant then some (s.reg (Reg.DBELL.RING g k))
  else if s.b c 31 ∧ s.f c 8 0 = rq.tenant then some 0#32 else none

/-! ## Locks (R481-R484, R487) -/

/-- Access to lock `k` (R482). -/
def State.mayLock (s : State) (rq : Rq) (k : Nat) : Bool :=
  rq.ring == 0 || (s.b (Reg.LOCK.LOCKCFG k) 31 && s.f (Reg.LOCK.LOCKCFG k) 8 0 == rq.tenant)

/-- LOCK_ACQUIRE: a read of LOCK[k] (R482, R484). -/
def lockRead (rq : Rq) (k : Nat) (s : State) : Option (Word × State) :=
  let a := Reg.LOCK.LOCK k
  if !s.mayLock rq k then none
  else if s.reg a = 0#32 ∧ s.consumes rq then some (0#32, s.setReg a (BitVec.ofNat 32 rq.agent)) else some (s.reg a, s)

/-- LOCK_RELEASE: a write of LOCK[k] (R482). -/
def lockWrite (rq : Rq) (k : Nat) (s : State) : Option State :=
  let a := Reg.LOCK.LOCK k
  if !s.mayLock rq k then none
  else if (s.reg a).toNat = rq.agent ∧ s.reg a ≠ 0#32 then some (s.setReg a 0#32) else some (s.capture Reg.LOCK.page 0x82 (0x40 + 4 * k))

/-- LOCK_CONFIG: a ring-0 write of LOCKCFG[k] (R483). -/
def lockConfig (k v : Nat) (s : State) : State :=
  let a := Reg.LOCK.LOCKCFG k
  let new := BitVec.ofNat 32 (Nat.land v 0x800001FF)
  let s := if s.reg a = new then s else s.setReg (Reg.LOCK.LOCK k) 0#32
  s.swStore a new

/-- LOCK_FORCE: a write of FORCE (R484). -/
def lockForce (rq : Rq) (v : Nat) (s : State) : Option State :=
  if rq.dbg ∧ rq.ring = 0 then
    let s := s.swStore Reg.LOCK.FORCE (BitVec.ofNat 32 (v % 64))
    some (if bitOf v 31 then (s.setReg (Reg.LOCK.LOCK (v % 64)) 0#32).setStatBit Reg.LOCK.page 0 else s)
  else none

/-- HELD_LO (`h` 0) or HELD_HI (`h` 1) as read (R487). -/
def State.lockHeld (s : State) (h : Nat) : Word :=
  BitVec.ofNat 32 ((List.range 32).foldl (fun n i => n + b2n (s.reg (Reg.LOCK.LOCK (32 * h + i)) != 0#32) * 2 ^ i) 0)

end Sys2Proof.Machine
end

