-- ==== Sys2Proof/Machine/RegIO.lean ====
section
/-! DEFINITION. The common register mechanism of chapter 01: stores by access class, the page header, soft reset (R28), power policy (R27, R588), ownership changes (R37, R38), commits (R25, R26), and the mode of a channel (R52, R53). -/

namespace Sys2Proof.Machine

/-- A software write of word `v` to the register at `a` by the access classes of its row (R22); R23 for what hardware did at this edge. -/
def storeWord (r : RegRow) (a : Nat) (v : Word) (s : State) : State :=
  let held := (s.log.hw.lookup a).getD 0#32
  let kept := s.reg a &&& ~~~(r.wr ||| (v &&& r.w1c &&& ~~~held))
  let new := kept ||| (v &&& r.wr) ||| (v &&& r.w1s)
  if r.wr = 0#32 then s.setReg a new else s.swStore a (s.loaded a new)

/-- The word a field write leaves in the other fields: what the register stores in its RW and SH bits (log 24). -/
def State.keepWord (s : State) (p : Page) (o : Nat) : Word :=
  if o < 0x40 then (if o = 8 then s.reg (p.base + 8) &&& 0x31#32 else if o = 0x1C then s.reg (p.base + 0x1C) &&& 0x10#32 else if o = 0x10 ∨ o = 4 then s.reg (p.base + o) else 0#32)
  else match rowAt (blockRows p.blk) o with
    | some r => s.reg (p.base + o) &&& r.wr
    | none => 0#32

/-- PAGE_STAT bits a block has (the PAGE_STAT tables); a set of any other bit has no effect (R20, R29). -/
def statMask (blk : Nat) : Nat :=
  let low :=
    if blk = 1 ∨ blk = 2 ∨ blk = 5 ∨ blk = 0x42 ∨ blk = 0x501 then 7
    else if blk = 3 then 0xFF else if blk = 6 then 0x3FF else if blk = 7 then 0x7F
    else if blk = 8 ∨ blk = 0x300 ∨ blk = 0x53 then 0xF
    else if blk = 4 ∨ blk = 9 ∨ blk = 0xA ∨ blk = 0xC ∨ blk = 0x503 ∨ blk = 0x51 ∨ blk = 0x61 ∨ blk = 0x21 ∨ blk = 0x82 then 3
    else if blk = 0xB ∨ blk = 0x40 ∨ blk = 0x72 then 0x3F
    else if blk = 0x301 then 0x1FFFF else if blk = 0x70 then 0xFF
    else if blk = 0x63 ∨ blk = 0x83 ∨ blk = 0x84 then 1 else 0
  0x80000000 + low

/-- PAGE_STAT_CLEAR: a write of PAGE_STAT (R22, R23, R30). -/
def statWrite (base v : Nat) (s : State) : State :=
  let a := base + 0xC
  let held := (s.log.hw.lookup a).getD 0#32
  let s := s.setReg a (s.reg a &&& ~~~(BitVec.ofNat 32 v &&& ~~~held))
  if bitOf v 31 then
    let e := base + 0x18
    if bitOf held.toNat 31 then s.setF e 23 20 0 else (s.setF e 31 31 0).setF e 23 20 0
  else s

/-- IRQ_SET: a write of PAGE_IRQSET (R29). -/
def irqSet (p : Page) (v : Nat) (s : State) : State := s.setStat p.base (BitVec.ofNat 32 (Nat.land v (statMask p.blk)))

/-- IRQ_ENABLE_WRITE: a write of PAGE_IRQEN (R29). -/
def irqEnable (base v : Nat) (s : State) : State :=
  let a := base + 0x10
  let rising := BitVec.ofNat 32 v &&& ~~~(s.reg a)
  let s := s.swStore a (BitVec.ofNat 32 v)
  if rising &&& s.reg (base + 0xC) = 0#32 then s else s.raisePage base

/-! ## Commits (R25, R26) -/

/-- The transfer that PAGE_COMMIT.NOW makes at the next CCLK edge (R25); the edge is taken with the write (log 25). -/
def transferNow (p : Page) (s : State) : State :=
  let s := s.moveTo (s.now + 1)
  if p.blk = 0x301 then angChange (fun t => t.transfer p.base) s
  else if p.blk = 9 then
    let s := s.transfer p.base
    pwmShowLive p.inst (s.setPwm p.inst { s.pwm p.inst with xferAt := s.now })
  else s.transfer p.base

/-- Blocks with a boundary (R186, R210, R231). -/
def hasBoundary (blk : Nat) : Bool := blk == 9 || blk == 11 || blk == 0x301

/-- A write of PAGE_COMMIT (R26). -/
def commitWrite (p : Page) (v : Nat) (s : State) : State :=
  let a := p.base + 0x1C
  let s := s.swStore a (BitVec.ofNat 32 (putBits (s.reg a).toNat 4 4 (bitsOf v 4 4)))
  let arm := bitOf v 1 && hasBoundary p.blk
  let s :=
    if arm then (s.setPage p.base { s.page p.base with armedAt := some s.now }).setF a 8 8 1
    else if bitOf v 2 then (s.setPage p.base { s.page p.base with armedAt := none }).setF a 8 8 0
    else s
  if bitOf v 0 || (bitOf v 1 && !arm) then transferNow p s else s

/-! ## Modes and enables (R51-R55) -/

/-- The channel's mode allows this page's EN (R51, R53). -/
def State.modeAllows (s : State) (c blk : Nat) : Bool :=
  if blk = 11 then s.mode c == 1 else if blk = 9 ∨ blk = 12 then s.mode c == 1 || s.mode c == 2 else true

/-- What a block does at the edge at which its EN changes while it has power. -/
def enHook (p : Page) (on : Bool) (s : State) : State :=
  let c := p.inst
  let b := p.blk
  if b = 1 then pwmRecheck c (if on then s else chiselAbort c s)
  else if b = 2 then (if on then (List.range 4).foldl (fun t u => seqEnabled c u t) s else adcStop c s)
  else if b = 3 then (List.range 4).foldl (fun t u => if on then seqEnabled c u t else seqAbort c u t) s
  else if b = 5 then (if on then s else calAbort c s)
  else if b = 7 then (if on then posStart c s else posStop c s)
  else if b = 8 then (if on then s else ssiStop c s)
  else if b = 9 then (if on then pwmArm c s else pwmStop c s)
  else if b = 11 then (if on then s else chiselAbort c s)
  else if b = 0x40 then (if on then maqStart c s else maqStop c s)
  else if b = 0x52 then (if on then s else dramStop s)
  else if b = 0x70 then (if on then s else lineStop c s)
  else if b = 0x80 then (if on then ethLook c s else ethStop c s)
  else s

/-- Store EN of a page and act on a change. -/
def setEn (p : Page) (on : Bool) (s : State) : State :=
  if s.en p.base == on then s
  else
    let s := s.setF (p.base + 8) 0 0 (b2n on)
    if s.off p.base then s else enHook p on s

/-- Page `k` (0-11) of channel `c`. -/
def chanPageOf (c k : Nat) : Page := ⟨Reg.chanPage c k, k + 1, 0, c, k + 1⟩

/-- The mode in effect changes at this edge: enables it does not allow are cleared with code 0x10, and the outputs and trips follow (R53). -/
def modeApply (c : Nat) (s : State) : State :=
  let s := [8, 10, 11].foldl (fun t k =>
    let p := chanPageOf c k
    if t.en p.base && !t.modeAllows c p.blk then (setEn p false t).capture p.base 0x10 8 else t) s
  tripJudge c false (pwmRecheck c s)

/-- MODE_WRITE (R52, R53). -/
def modeWrite (c v : Nat) (s : State) : State :=
  let pg := Reg.CHAN.page c
  let a := Reg.CHAN.MODE c
  let new := Nat.land v 0x733
  let moved := bitsOf new 1 0 ≠ s.f a 1 0 ∨ bitsOf new 10 8 ≠ s.f a 10 8
  if s.en pg ∧ moved then s.capture pg 2 0x40
  else if !s.en pg ∧ bitsOf new 1 0 = 3 then s.capture pg 0x10 0x40
  else
    let s := s.swStore a (BitVec.ofNat 32 new)
    if moved then modeApply c s else s

/-! ## Loss and reset of a block's state (R27, R28) -/

/-- Registers that show a signal from outside the block or stand outside its power and reset (log 26); R599 for PWR. -/
def keepOffs (blk : Nat) : List Nat :=
  if blk = 1 then [0x44] else if blk = 6 then [0x78] else if blk = 0x21 then (List.range 24).map (fun k => 0x44 + 4 * k)
  else if blk = 0x22 ∨ blk = 0x41 then [0x40] else if blk = 0x25 then 0x84 :: (List.range 13).map (fun k => 0x40 + 4 * k)
  else if blk = 0x51 then [0x50, 0x5C, 0x60] else if blk = 0x84 then [0x50, 0x54, 0x58, 0x5C]
  else if blk = 0x85 then (List.range 10).map (fun k => 0x40 + 4 * k) else []

/-- Registers and live copies from 0x040 upward return to their reset values (R28). -/
def clearRegs (p : Page) (s : State) : State :=
  (keepOffs p.blk).foldl (fun t o => t.setReg (p.base + o) (s.reg (p.base + o))) (s.clearBlock p.base)

/-- The conversions of a range of users end without a result. -/
def dropUsers (c lo hi : Nat) (s : State) : State := ((List.range (hi + 1 - lo)).map (lo + ·)).foldl (fun t u => dropConvs c u t) s

/-- The internal state of a channel page returns to its reset value (R28). -/
def chanReset (c b : Nat) (s : State) : State :=
  let x := s.ch c
  if b = 1 then modeApply c (s.setCh c { x with latAt := none })
  else if b = 2 then
    let s := adcStop c s
    s.setCv c { s.cv c with refAt := none }
  else if b = 3 then (List.range 4).foldl (fun t u => (seqAbort c u t).setSq c u SeqSt.idle) s
  else if b = 4 then s.setCv c { s.cv c with fifoA := Fifo.empty, fifoB := Fifo.empty }
  else if b = 5 then
    let s := dropUsers c 4 7 s
    let d : DriftSt := { DriftSt.idle with updAt := some s.now }
    s.setCv c { s.cv c with cal := none, zero := none, driftA := d, driftB := d }
  else if b = 6 then
    let s := (List.range 5).foldl (fun t n => cmpStopOne c n t) s
    (s.setCmp c { CmpSt.idle with hist := (s.cmp c).hist }).setF (Reg.CMP.STATUS c) 20 0 0
  else if b = 7 then s.setCh c { x with pos := { PosSt.idle with quad := x.pos.quad } }
  else if b = 8 then s.setCh c { x with ssi := SsiSt.idle }
  else if b = 9 then
    let s := pwmStop c s
    (s.setPwm c { PwmSt.idle with condAt := s.now }).setReg (Reg.PWM.OUT c) 0#32
  else if b = 0xA then
    let t := x.trip
    let s := (s.setTrip c { TripSt.idle with lvlA := t.lvlA, lvlB := t.lvlB }).setF (Reg.CHAN.STATUS c) 30 30 0
    tripRestart c (pwmRecheck c s)
  else if b = 0xB then s.setChs c ChSt.idle
  else s.setCh c { x with wear := [WearLeg.idle, WearLeg.idle, WearLeg.idle] }

/-- The internal state of a device-wide block returns to its reset value (R28). -/
def devReset (p : Page) (s : State) : State :=
  let i := p.inst
  let b := p.blk
  if b = 0x20 then { s with dwPend := none }
  else if b = 0x300 then reseat 64 (s.setTime { TimeSt.idle with at_ := s.now })
  else if b = 0x301 then { s with cal := { s.cal with angles := [] } }
  else if b = 0x302 then
    let s := (List.range 128).foldl (fun t k => tabReset k t) s
    (List.range 48).foldl (fun t c => calLost c t) s
  else if b = 0x303 then { s with cal := { s.cal with refs := [] } }
  else if b = 0x31 then (List.range 8).foldl (fun t k => tabReset (8 * i + k) t) s
  else if b = 0x40 then s.setMaq i MaqSt.idle
  else if b = 0x42 then s.setCore i Core.idle
  else if b = 0x43 then s.setHost { s.host with tags := s.host.tags.filter (fun t => t.1 != i), bw := s.host.bw.filter (fun t => t.1 != i) }
  else if b = 0x500 then s.setArm { s.arm with copies := [], queue := [] }
  else if b = 0x501 then s.setArm { s.arm with slow := [] }
  else if b = 0x503 then s.setArm { s.arm with reports := [], repPush := none }
  else if b = 0x51 then
    s.setRasp { s.rasp with sweeps := [], sweepEnd := none, burst := 0, burstAt := s.now, burstFrom := none, line := 0, lineAt := s.now, soft := none }
  else if b = 0x52 then dramStop s
  else if b = 0x53 then s.setRasp { s.rasp with log := [], pushAt := none, lastCE := none }
  else if b = 0x54 then { s with invs := [] }
  else if b = 0x55 then { s with scans := [] }
  else if b = 0x61 then (List.range 32).foldl (fun t k => t.setMb (32 * i + k) MboxSt.idle) s
  else if b = 0x70 then
    let s := lineStop i s
    s.setLine { s.line with ports := tput (fun _ => LinePort.idle) s.line.ports i LinePort.idle }
  else if b = 0x71 then
    s.setLine { s.line with keys := [], last := [], formAt := 0, keyOk := none, arrivals := [], arriveSent := false, snaps := [], release := none, reset := none, rep := 0 }
  else if b = 0x72 then
    let s := (List.range 3).foldl (fun t k => t.setCore (96 + k) Core.idle) s
    pedOuts (s.setPed { PedSt.idle with clearAt := some s.now })
  else if b = 0x80 then ethStop i s
  else if b = 0x81 then s.setHost { s.host with hspi := HspiSt.idle }
  else if b = 0x82 then s.setHost { s.host with qspi := none }
  else if b = 0x83 then s.setGpio { s.host.gpio with acts := [] }
  else if b = 0x85 then s.setPlat { s.plat with pgm := none }
  else s

/-- A block loses its registers and internal state (R27, R28). A debug session closes first, so that what it halted runs on. -/
def blockReset (p : Page) (s : State) : State :=
  let s := if p.blk = 0x84 then sessionClose s else s
  if p.blk ≤ 12 then chanReset p.inst p.blk (clearRegs p s) else devReset p (clearRegs p s)

/-- SOFT_RESET (R28). -/
def softReset (p : Page) (s : State) : State :=
  let t := s.now
  let s := setEn p false s
  let s := blockReset p s
  let s := ((s.setReg (p.base + 0xC) 0#32).setReg (p.base + 0x18) 0#32).setF (p.base + 0x1C) 8 8 0
  s.setPage p.base { s.page p.base with busyUntil := some (t + 16), armedAt := none }

/-! ## Power policy (R27, R588) -/

/-- The memories that lose power with a block (R588): first byte and bytes. -/
def pageMems (p : Page) : List (Nat × Nat) :=
  if p.blk = 0x40 then [(maqBase p.inst, 0x80000)]
  else if p.blk = 0x41 then [(0x80000000 + p.inst * 0x200000, 0x200000)]
  else if p.blk = 0x42 then
    let b := 0x60000000 + p.inst * 0x40000
    [(b, 0x10000), (b + 0x10000, 0x10000), (b + 0x20000, 0x8000)]
  else if p.blk = 0x72 then [(0xD0000000, 0x80000), (0xD0080000, 0x80000), (0xD0100000, 0x80000)]
  else []

/-- The page of the block that holds a memory address, if one does (R588). -/
def memPage (pa : Nat) : Option Nat :=
  if 0x60000000 ≤ pa ∧ pa < 0x61800000 then some (Reg.ENG.page ((pa - 0x60000000) / 0x40000))
  else if 0x80000000 ≤ pa ∧ pa < 0x81800000 then some (Reg.PLINTH.page ((pa - 0x80000000) / 0x200000))
  else if 0xC0000000 ≤ pa ∧ pa < 0xC0600000 then some (Reg.MAQ.page ((pa - 0xC0000000) / 0x80000))
  else if 0xD0000000 ≤ pa ∧ pa < 0xD0180000 then some Reg.PEDESTAL.page
  else none

/-- A block with EN 1 resumes at its release as if EN had been set there (R27). -/
def blockResume (p : Page) (s : State) : State :=
  if p.blk = 1 ∨ p.blk = 9 ∨ p.blk = 0xA then
    let s := if p.blk = 9 ∧ s.en p.base then pwmArm p.inst s else s
    if p.blk = 0xA then tripRestart p.inst (pwmRecheck p.inst s) else pwmRecheck p.inst s
  else if s.en p.base then enHook p true s else s

/-- PWRPOL takes a new value (R27, R588). -/
def setPower (p : Page) (pol : Nat) (s : State) : State :=
  let a := p.base + 8
  let was := s.f a 5 4
  let s := s.setF a 5 4 pol
  if pol = 3 ∧ was ≠ 3 then
    let s := s.setPage p.base { s.page p.base with releasing := false }
    (pageMems p).foldl (fun t m => memClear m.1 (m.1 + m.2) t) (blockReset p s)
  else if pol ≠ 3 ∧ was = 3 then
    if (pageMems p).isEmpty then blockResume p s
    else
      let s := s.setPage p.base { s.page p.base with releasing := true }
      clearNext (s.setRasp { s.rasp with clears := s.rasp.clears ++ (pageMems p).map (fun m => ⟨m.1, m.2, none⟩) })
  else s

/-- A write of PAGE_CTRL (R27, R28, R53, R164). A refused EN discards the write. -/
def ctrlWrite (p : Page) (v : Nat) (s : State) : State :=
  let want := bitOf v 0
  let refused : Option (Nat × Nat) :=
    if want && !s.en p.base then
      if p.blk ≤ 12 ∧ !s.modeAllows p.inst p.blk then some (0x10, 8)
      else if p.blk = 8 then (s.ssiInvalid p.inst).map (fun o => (0x28, o)) else none
    else none
  match refused with
  | some (c, i) => s.capture p.base c i
  | none =>
    let s := setPower p (bitsOf v 5 4) s
    let s := setEn p want s
    if bitOf v 1 then softReset p s else s

/-! ## Ownership (R37, R38) -/

/-- One page takes a new owner (R37). -/
def ownPage (p : Page) (t : Nat) (s : State) : State :=
  let at_ := s.now
  let s := softReset p s
  let s := (s.setReg (p.base + 0x10) 0#32).setF (p.base + 0x1C) 4 4 (bitsOf (regReset (p.base + 0x1C)).toNat 4 4)
  let s := s.setF (p.base + 4) 8 0 t
  s.setPage p.base { s.page p.base with ownUntil := some (at_ + 18) }

/-- CHANGE_OWNER: ring 0 writes PAGE_OWNER.TENANT of an assignable page (R37, R38, R239, R252, R285). -/
def ownerWrite (p : Page) (v : Nat) (s : State) : State :=
  let t := v % 512
  if s.f (p.base + 4) 8 0 = t then s
  else if p.blk ≤ 12 then
    let c := p.inst
    let s := (List.range 12).foldl (fun u k => ownPage (chanPageOf c k) t u) s
    calLost c (s.setReg (Reg.MAQ.FEED (c / 4) (c % 4)) 0#32)
  else
    let s := ownPage p t s
    if p.blk = 0x40 then clearNext (maqDrop p.inst s) else s

end Sys2Proof.Machine
end

