-- ==== Sys2Proof/Machine/RegWrite.lean ====
section
/-! DEFINITION. A 32-bit write to a block register: the refusals and effects of every block, over the common stores of RegIO. Hooks take the page, the offset and the value; `none` is a write refused as in R36. -/

namespace Sys2Proof.Machine

/-- The store of a register without effects of its own: by its row, or nothing at a reserved offset (R20, R22). -/
def plainWrite (p : Page) (o v : Nat) (s : State) : State :=
  match rowAt (blockRows p.blk) o with
  | some r => storeWord r (p.base + o) (BitVec.ofNat 32 v) s
  | none => s

/-- The writable bits of a value (RW and SH). -/
def wrBits (p : Page) (o v : Nat) : Nat :=
  match rowAt (blockRows p.blk) o with
  | some r => Nat.land v r.wr.toNat
  | none => 0

/-- A register accepted only while the page's EN is 0 (code 0x02), otherwise judged by `bad` and then stored. -/
def lockedWrite (p : Page) (o v : Nat) (bad : Option Nat) (s : State) : State :=
  if s.en p.base then s.capture p.base 2 o
  else match bad with
    | some c => s.capture p.base c o
    | none => plainWrite p o v s

/-! ## Channel pages -/

/-- The input code of a STEP field is reserved (R71). -/
def inputReserved (i : Nat) : Bool := (5 ≤ i && i < 8) || 12 ≤ i

/-- A write of SEQCTL (R78, R79, R82, R86). -/
def seqctlWrite (c u v : Nat) (s : State) : State :=
  let a := Reg.SEQ.SEQCTL c u
  if bitsOf v 21 20 = 3 then s.capture (Reg.SEQ.page c) 0x13 (0x40 + 4 * u)
  else
    let was := s.b a 0
    let s := s.swStore a (BitVec.ofNat 32 (Nat.land v 0x300001))
    let s := if bitOf v 0 && !was then seqEnabled c u s else if was && !bitOf v 0 then seqAbort c u s else s
    if bitOf v 12 then seqTrigger c u s else s

/-- Error code of a STEP write (R78). -/
def stepBad (n v : Nat) : Option Nat :=
  let k := stepKind v
  if (k ≠ 2 ∧ inputReserved (bitsOf v 3 0)) ∨ ((k = 0 ∨ k = 2) ∧ inputReserved (bitsOf v 7 4)) then some 0x11
  else if bitOf v 27 ∧ (n ≠ 0 ∨ k ≠ 0) then some 0x12 else none

/-- ADC, SEQ, ADCFIFO and ADCCAL (chapter 03). -/
def convWrite (p : Page) (o v : Nat) (s : State) : State :=
  let c := p.inst
  if p.blk = 2 then
    if o = 0x40 ∨ o = 0x48 then lockedWrite p o v none s
    else if o = 0x44 then refWrite c (bitOf v 0) s
    else plainWrite p o v s
  else if p.blk = 3 then
    if 0x40 ≤ o ∧ o < 0x50 then seqctlWrite c ((o - 0x40) / 4) v s
    else if 0x80 ≤ o ∧ o < 0x100 then
      match stepBad ((o - 0x80) / 4) v with
      | some e => s.capture p.base e o
      | none => plainWrite p o v s
    else plainWrite p o v s
  else if p.blk = 4 then
    if o = 0x54 then
      let x := s.cv c
      s.setCv c { x with
        fifoA := if bitOf v 0 then fifoFlush x.fifoA s.now else x.fifoA,
        fifoB := if bitOf v 1 then fifoFlush x.fifoB s.now else x.fifoB }
    else plainWrite p o v s
  else
    if o = 0x6C then calctlWrite c v s
    else if o = 0x70 then plainWrite p o v (calAbort c s)
    else if o = 0x74 then driftctlWrite c v s
    else if o = 0x88 then refCodeWrite c 0 v s
    else if o = 0x8C then refCodeWrite c 1 v s
    else plainWrite p o v s

/-- CFG bits a comparator has (R133). -/
def cmpCfgMask (n : Nat) : Nat := if n = 4 then 0x8F8331 else if n = 3 then 0x0F8331 else 0x0F8F31

/-- CMP, POS and SSI (chapters 04, 05). -/
def senseWrite (p : Page) (o v : Nat) (s : State) : State :=
  let c := p.inst
  if p.blk = 6 then
    if 0x40 ≤ o ∧ o < 0x54 then cmpCfgWrite c ((o - 0x40) / 4) (Nat.land v (cmpCfgMask ((o - 0x40) / 4))) s
    else if 0x54 ≤ o ∧ o < 0x68 then cmpThrWrite c ((o - 0x54) / 4) (wrBits p o v) s
    else plainWrite p o v s
  else if p.blk = 7 then
    if (o = 0x40 ∨ o = 0x4C ∨ o = 0x50) ∧ s.en p.base then s.capture p.base 2 o
    else match s.posRefused c o v with
      | some e => s.capture p.base e o
      | none =>
        let s := plainWrite p o v s
        if o = 0x90 then
          let s := if bitOf v 0 then posLoad c s else s
          if bitOf v 1 then posMload c s else s
        else s
  else
    if 0x40 ≤ o ∧ o < 0x58 then lockedWrite p o v none s
    else
      let s := plainWrite p o v s
      if o = 0x58 ∧ bitOf v 31 then ssiTrigger c s else s

/-- PWM and TRIP (chapter 06). -/
def pwmPageWrite (p : Page) (o v : Nat) (s : State) : State :=
  let c := p.inst
  if p.blk = 9 then
    if o = 0x40 ∨ (0x70 ≤ o ∧ o < 0x7C) then lockedWrite p o v none s
    else if 0x7C ≤ o ∧ o < 0x88 then
      lockedWrite p o v (if bitsOf v 1 0 = 3 then some 0x2D else if 1600 < bitsOf v 26 16 then some 0x2E else none) s
    else if (o = 0x44 ∨ (0x94 ≤ o ∧ o < 0xA0)) ∧ bitsOf v 19 0 < 16 then s.capture p.base 0x2C o
    else if 0x50 ≤ o ∧ o < 0x5C then latRecord c (plainWrite p o v s)
    else plainWrite p o v s
  else
    if o = 0x40 then (if s.en p.base then s.capture p.base 2 o else tripRestart c (plainWrite p o v s))
    else if o = 0x48 then tripJudge c false (plainWrite p o v s)
    else if o = 0x4C then tripClear c (BitVec.ofNat 32 v) s
    else if o = 0x58 then (if bitOf v 0 then tripJudge c true s else s)
    else plainWrite p o v s

/-- CHISEL and WEAR (chapter 07). -/
def loopWrite (p : Page) (o v : Nat) (s : State) : State :=
  let c := p.inst
  if p.blk = 0xB then
    if o = 0x40 then lockedWrite p o v (if bitsOf v 29 24 = 0 ∨ 2 ≤ bitsOf v 14 13 then some 0x30 else none) s
    else if o = 0x4C ∧ s.b (Reg.CHISEL.CFG c) 18 then s.capture p.base 0x31 o
    else if (o = 0x68 ∧ 0x7FFF < bitsOf v 15 0) ∨ (o = 0x6C ∧ 0x8000 < bitsOf v 15 0) ∨
        (o = 0x84 ∧ (0x8000 < bitsOf v 31 16 ∨ bitsOf v 31 16 < bitsOf v 15 0)) then s.capture p.base 0x32 o
    else plainWrite p o v s
  else
    if o = 0x40 then lockedWrite p o v (if 20 < bitsOf v 12 8 then some 0x38 else none) s
    else if o = 0x44 then lockedWrite p o v none s
    else if o = 0x48 then lockedWrite p o v (if bitsOf v 15 0 = 0 then some 0x38 else none) s
    else plainWrite p o v s

/-- A block register of a channel page. -/
def chanWrite (p : Page) (o v : Nat) (s : State) : State :=
  if p.blk = 1 then (if o = 0x40 then modeWrite p.inst v s else plainWrite p o v s)
  else if p.blk ≤ 5 then convWrite p o v s
  else if p.blk ≤ 8 then senseWrite p o v s
  else if p.blk ≤ 10 then pwmPageWrite p o v s
  else loopWrite p o v s

/-! ## Caliper and Maquette -/

/-- CALIPER[0]-[3] and CALTAB (chapter 08). -/
def caliperWrite (rq : Rq) (p : Page) (o v : Nat) (s : State) : Option State :=
  if p.blk = 0x303 then
    if rq.ring = 0 ∨ (o < 0x340 ∧ s.chOwner ((o - 0x40) / 16) = rq.tenant) then some (plainWrite p o v s) else none
  else if p.blk = 0x31 then
    if 0xC40 ≤ o then some s
    else
      let n := 256 * p.inst + (o - 0x40) / 12
      let r := (o - 0x40) % 12
      if !s.entOk rq n then none
      else
        let ctl := (s.reg (entCtl n)).toNat
        let ctl' := if r = 0 then wrBits p o v else ctl
        let target := if r = 4 then v else (s.reg (entTarget n)).toNat
        let step := if r = 8 then v else (s.reg (entStep n)).toNat
        if s.entRefused n ctl' target step then some (s.capture p.base 0x41 o)
        else
          let s := plainWrite p o v s
          if bitOf ctl' 31 && r != 8 then some (if bitOf ctl 31 then s.setEnt n ⟨s.now, false⟩ else entSeat n s) else some s
  else if rq.ring ≠ 0 then none
  else if p.blk = 0x300 then
    if (o = 0x4C ∧ 1000000000 ≤ bitsOf v 29 0) ∨ (o = 0x5C ∧ bitsOf v 1 0 = 3) then some (s.capture p.base 0x40 o)
    else if o = 0x58 then
      let s := timeArm (bitOf v 0) (bitOf v 1) s
      some (if bitOf v 2 then timeSubmit s else s)
    else if o = 0x60 then some (timeChange (plainWrite p o v) s)
    else some (plainWrite p o v s)
  else if p.blk = 0x301 then
    let k := (o - 0x40) / 32
    if o < 0x240 ∧ o % 32 = 0 ∧ (4 ≤ bitsOf v 2 0 ∨ (bitsOf v 2 0 = 3 ∧ k ≤ bitsOf v 11 8) ∨ 20 < bitsOf v 19 16) then some (s.capture p.base 0x42 o)
    else some (plainWrite p o v s)
  else
    let old := s.reg (p.base + o)
    let s := plainWrite p o v s
    if o < 0x240 then some (if s.reg (p.base + o) = old then s else tabReset ((o - 0x40) / 4) s)
    else if o < 0x300 then some (calLost ((o - 0x240) / 4) s)
    else some s

/-- Ring 0 clears JCTL.EN: the job's waiting block work and frames go, but for the frame being written (R284). -/
def jobOff (p k : Nat) (s : State) : State :=
  let m := s.maq p
  let s := s.setMaq p { m with done := m.done.filter (fun d => d.slot ≠ k), frames := m.frames.take 1 ++ (m.frames.drop 1).filter (fun f => f.slot ≠ k) }
  s.setF (Reg.MAQ.JCTL p k) 31 31 0

/-- MAQ[p] (chapter 09). -/
def maqWrite (rq : Rq) (p : Page) (o v : Nat) (s : State) : Option State :=
  let i := p.inst
  if 0x50 ≤ o ∧ o < 0x60 then (if rq.ring = 0 then some (plainWrite p o v s) else none)
  else if 0x100 ≤ o ∧ o < 0x500 then
    let k := (o - 0x100) / 32
    let r := o % 32
    if r = 0 then some (if s.jobEn i k then s.capture p.base 0x50 o else plainWrite p o v s)
    else if r = 4 then
      let s := if rq.ring = 0 then (if bitOf v 31 then jobEnable i k s else if s.jobEn i k then jobOff i k s else s) else s
      let s := if bitOf v 1 then jobReseed i k s else s
      some (if bitOf v 0 then jobStop i k s else s)
    else if r = 16 then some (frrdWrite i k v s)
    else some (plainWrite p o v s)
  else some (plainWrite p o v s)

/-! ## Engines, Armature, tenants, fabric -/

/-- The event ID may be raised for tenant `t` (R65). -/
def State.ownsEvent (s : State) (id t : Nat) : Bool := decide (0x800 ≤ id) && s.swOwner id == t

/-- PERF[e] (R620, R626). -/
def perfWrite (rq : Rq) (p : Page) (o v : Nat) (s : State) : Option State :=
  let e := p.inst
  let j := perfUnitOf o
  if o < 0x70 then
    if rq.ring ≠ 0 then none
    else
      let old := s.reg (p.base + o)
      let s := plainWrite p o v s
      if s.reg (p.base + o) = old then some s
      else
        let u := (o - 0x40) / 4
        let s := (perfUnitRegs e u).foldl (fun t a => t.setReg a (regReset a)) s
        some (if u = 9 then s.setHost { s.host with tags := s.host.tags.filter (fun t => t.1 != e) }
          else if u = 10 then s.setHost { s.host with bw := s.host.bw.filter (fun t => t.1 != e) } else s)
  else if j = 16 then some s
  else if rq.ring ≠ 0 ∧ ¬(rq.ring ≤ 2 ∧ s.perfOwned e j rq.tenant) then none
  else
    let t := s.f (Reg.PERF.OWN e j) 8 0
    let ev := bitsOf v 19 12
    let bad : Option Nat :=
      if o < 0x90 then
        (if ¬((1 ≤ ev ∧ ev ≤ 0xF) ∨ (0x20 ≤ ev ∧ ev ≤ 0x23)) ∨ (ev ≤ 0xF ∧ bitsOf v 23 20 ≠ 0) then some 0xB0
         else if !s.ownsEvent (bitsOf v 11 0) t then some 0xB1 else none)
      else if o = 0xE0 then
        (if bitsOf v 4 0 < 8 ∨ 24 < bitsOf v 4 0 then some 0xB0 else if !s.ownsEvent (bitsOf v 27 16) t then some 0xB1 else none)
      else if o = 0x100 then (if 5 ≤ bitsOf v 14 12 ∨ bitsOf v 7 0 = 0 then some 0xB0 else none)
      else none
    match bad with
    | some c => some (s.capture p.base c o)
    | none =>
      let was := s.b (Reg.PERF.BWCFG e) 31
      let s := plainWrite p o v s
      some (if o = 0x100 ∧ bitOf v 31 ∧ ¬was then
          (s.setHost { s.host with bw := tput (fun _ => 0) s.host.bw e s.now }).setReg (Reg.PERF.BWCNT e) 0#32
        else s)

/-- The Armature's pages (R443-R445). -/
def armPageWrite (rq : Rq) (p : Page) (o v : Nat) (s : State) : Option State :=
  if p.blk = 0x500 then some (armWrite rq o v s)
  else if rq.ring ≠ 0 then none
  else if p.blk = 0x501 ∧ 0x48 ≤ o ∧ o < 0x58 then some (retireWrite (o) v s)
  else if p.blk = 0x501 ∧ 0x60 ≤ o ∧ o < 0x90 then some (poolWrite ((o - 0x60) / 4) v s)
  else some (plainWrite p o v s)

/-- MBOX, DBELL and LOCK (chapter 16). -/
def fabricWrite (rq : Rq) (p : Page) (o v : Nat) (s : State) : Option State :=
  if p.blk = 0x61 then
    if o < 0x440 ∧ o % 32 < 0x18 then mboxWrite rq (32 * p.inst + (o - 0x40) / 32) (o % 32) v s else some s
  else if p.blk = 0x62 then
    if o < 0x440 then ringWrite rq p.inst ((o - 0x40) / 4) v s
    else if o < 0x840 then (if rq.ring = 0 then some (plainWrite p o v s) else none)
    else some s
  else
    if o < 0x140 then lockWrite rq ((o - 0x40) / 4) s
    else if o < 0x240 then (if rq.ring = 0 then some (lockConfig ((o - 0x140) / 4) v s) else none)
    else if o = 0x248 then lockForce rq v s
    else some s

/-! ## Line, platform and ports -/

/-- LINEKEY (R551, R552, R573-R575). -/
def linekeyWrite (p : Page) (o v : Nat) (s : State) : State :=
  if o = 0x40 then devidWrite (wrBits p o v) s
  else if o = 0x44 then
    let s := plainWrite p o v s
    if bitOf v 31 then keyCommand v s else s
  else if 0x80 ≤ o ∧ o < 0x180 then kctlWrite ((o - 0x80) / 4) (wrBits p o v) s
  else if 0x180 ≤ o ∧ o < 0x1C0 then angrxWrite ((o - 0x180) / 4) (wrBits p o v) s
  else if 0x200 ≤ o ∧ o < 0x400 then enrolWrite ((o - 0x200) / 4) v s
  else if o = 0x404 then sysctlWrite v s
  else if o = 0x418 then barrierWrite v s
  else plainWrite p o v s

/-- Pedestal agents (97-99) act for the boot ROM while it runs (R595, R600). -/
def State.fromRom (s : State) (rq : Rq) : Bool := decide (97 ≤ rq.agent) && decide (rq.agent ≤ 99) && s.ped.rom

/-- DEVICE, PWR, CLK, RST, BOOT, THERM and FUSE (chapters 15 and 20). -/
def platformWrite (rq : Rq) (p : Page) (o v : Nat) (s : State) : Option State :=
  if p.blk = 0x20 then
    if rq.ring ≠ 0 ∧ (o = 0x44 ∨ o = 0x58) then none
    else if o = 0x58 then some (if bitOf v 0 then dwEnd s else s)
    else some (plainWrite p o v s)
  else if p.blk = 0x21 ∧ o = 0x40 then some (pwrCommand v s)
  else if p.blk = 0x23 ∧ o = 0x40 then some (if bitOf v 0 then resetBegin 5 s else s)
  else if p.blk = 0x24 then
    some (if !s.fromRom rq || s.b Reg.BOOT.STATUS 31 || s.b Reg.BOOT.STATUS 30 then s.capture p.base 0xA3 o else plainWrite p o v s)
  else if p.blk = 0x25 ∧ o = 0x80 ∧ (bitsOf v 7 0 < 100 ∨ 125 < bitsOf v 7 0) then some (s.capture p.base 0xA1 o)
  else if p.blk = 0x85 ∧ o = 0x68 then some (fuseProgram v s)
  else some (plainWrite p o v s)

/-- HSPI: WINBASE and WINSIZE must keep the window in plinth SRAM or usable LPDDR4 (R612, R614). -/
def hspiWrite (p : Page) (o v : Nat) (s : State) : State :=
  let base := if o = 0x44 then bitsOf v 29 0 else s.f Reg.HSPI.WINBASE 29 0
  let kib := if o = 0x48 then bitsOf v 23 0 else s.f Reg.HSPI.WINSIZE 23 0
  if (o = 0x44 ∨ o = 0x48) ∧ !s.windowOk base (if o = 0x44 then max 1 kib else kib) then s.capture p.base 0xA8 o else plainWrite p o v s

/-- ETH, HSPI, QSPI and GPIO (chapter 21). -/
def portWrite (rq : Rq) (p : Page) (o v : Nat) (s : State) : Option State :=
  let m := wrBits p o v
  if p.blk = 0x80 then
    if (o = 0x4C ∨ o = 0x50) ∧ rq.ring ≠ 0 then none
    else if o = 0x78 ∨ o = 0x7C then some (plainWrite p o v s)
    else some (ethWrite p.inst o (if o = 0x60 ∨ o = 0x74 ∨ o = 0x80 then v else m) s)
  else if p.blk = 0x81 then some (hspiWrite p o v s)
  else if p.blk = 0x82 then some (qspiWrite o (if o = 0x44 then v else m) s)
  else some (gpioWrite o (if o = 0x48 ∨ o = 0x4C ∨ o = 0x54 then v else m) s)

/-- EVT (R64, R65). -/
def evtWrite (rq : Rq) (p : Page) (o v : Nat) (s : State) : Option State :=
  if o < 0x140 then
    let k := (o - 0x40) / 4
    if rq.ring = 0 ∨ s.f (Reg.EVT.SWOWN k) 8 0 = rq.tenant then
      some ((List.range 32).foldl (fun t j => if bitOf v j then t.raiseSw (0x800 + 32 * k + j) else t) s)
    else none
  else if 0x200 ≤ o ∧ o < 0x300 then (if rq.ring = 0 then some (plainWrite p o v s) else none)
  else some s

/-- A 32-bit write to the register at offset `o` (0x040 or above) of a page; `none` where it is refused as in R36. -/
def blockWrite (rq : Rq) (p : Page) (o v : Nat) (s : State) : Option State :=
  let b := p.blk
  if b ≤ 12 then some (chanWrite p o v s)
  else if (rowAt (blockRows b) o).isNone then some s
  else if b = 0x31 ∨ (0x300 ≤ b ∧ b ≤ 0x303) then caliperWrite rq p o v s
  else if b = 0x40 then maqWrite rq p o v s
  else if b = 0x42 then some (if o = 0x40 ∨ 0x100 ≤ o then engWrite p.inst o v (rq.ring == 0) s else plainWrite p o v s)
  else if b = 0x43 then perfWrite rq p o v s
  else if 0x500 ≤ b then armPageWrite rq p o v s
  else if b = 0x51 then some (if o = 0x44 ∨ o = 0x48 ∨ o = 0x6C then raspWrite o v s else plainWrite p o v s)
  else if b = 0x52 then some (if o = 0x40 then dramCfgWrite v s else s)
  else if b = 0x53 then some (if o = 0x70 then flipctlWrite v s else plainWrite p o v s)
  else if b = 0x54 then
    some (if o = 0x40 then invcmdWrite v s else if 0x400 ≤ o then rootWrite ((o - 0x400) / 4) v s else plainWrite p o v s)
  else if b = 0x55 then some (tenantWrite o v s).2
  else if b = 0x60 then some (if 0x400 ≤ o then shareWrite ((o - 0x400) / 4) v s else s)
  else if b = 0x61 ∨ b = 0x62 ∨ b = 0x63 then fabricWrite rq p o v s
  else if b = 0x70 then some (if 0x54 ≤ o ∧ o ≤ 0x80 then plainWrite p o v s else lineWrite p.inst o (wrBits p o v) s)
  else if b = 0x71 then some (linekeyWrite p o v s)
  else if b = 0x72 then some (if o = 0x70 then plainWrite p o v s else pedWrite o (if o = 0x6C then v else wrBits p o v) s)
  else if 0x80 ≤ b ∧ b ≤ 0x83 then portWrite rq p o v s
  else if b = 0x84 then some (debugWrite o v s)
  else if b = 0x86 then evtWrite rq p o v s
  else platformWrite rq p o v s

end Sys2Proof.Machine
end

