-- ==== Sys2Proof/Machine/RegRead.lean ====
section
/-! DEFINITION. A 32-bit read of a register: header, RC fields (R22, R23, R40), queue heads (R34), and the registers whose value follows from hidden state. -/

namespace Sys2Proof.Machine

/-- The header registers as read (R16, R47). -/
def State.headerRead (s : State) (p : Page) (o : Nat) : Word :=
  let v := s.reg (p.base + o)
  if o = 0 then BitVec.ofNat 32 (p.type * 0x1000000 + p.inst % 256 * 0x10000 + 1)
  else if o = 4 then BitVec.ofNat 32 (p.kind * 0x40000000 + bitsOf v.toNat 8 0)
  else if o = 8 then BitVec.ofNat 32 (Nat.land v.toNat 0x31 + b2n (s.page p.base).busyUntil.isSome * 0x80000000)
  else if o = 0x14 ∨ 0x20 ≤ o then 0#32
  else v

/-- A stored register; an RC field clears unless the read is debug-marked and may not consume (R22, R23, R40). -/
def plainRead (rq : Rq) (p : Page) (o : Nat) (s : State) : Word × State :=
  match rowAt (blockRows p.blk) o with
  | none => (0#32, s)
  | some r =>
    let a := p.base + o
    let v := s.reg a
    if r.rc = 0#32 then (v, s)
    else match s.log.rc.lookup a with
      | some w => ((v &&& ~~~r.rc) ||| (w &&& r.rc), s)
      | none => (v, if s.consumes rq then s.setReg a (v &&& ~~~r.rc) else s)

/-- ADATA and BDATA (R34, R104): the HI half pops. -/
def fifoRead (rq : Rq) (p : Page) (o : Nat) (s : State) : Word × State :=
  let c := p.inst
  let x := s.cv c
  let f := if o < 0x48 then x.fifoA else x.fifoB
  if o % 8 = 0 then (BitVec.ofNat 32 (f.q.headD 0#64).toNat, s)
  else if s.consumes rq then
    let r := fifoPop f s.now
    let s := s.setCv c (if o < 0x48 then { x with fifoA := r.2.2 } else { x with fifoB := r.2.2 })
    (BitVec.ofNat 32 (r.1.toNat / 2 ^ 32), if r.2.1 then s.capture p.base 4 o else s)
  else (BitVec.ofNat 32 ((f.q.headD 0#64).toNat / 2 ^ 32), s)

/-- Registers of a channel page. -/
def chanRead (rq : Rq) (p : Page) (o : Nat) (s : State) : Word × State :=
  let c := p.inst
  let b := p.blk
  let v := (s.reg (p.base + o)).toNat
  if b = 1 ∧ o = 0x44 then (BitVec.ofNat 32 (putBits v 7 4 (c / 4)), s)
  else if b = 1 ∧ o = 0x4C then (BitVec.ofNat 32 ((s.ch c).pins % 16), s)
  else if b = 3 ∧ 0x40 ≤ o ∧ o < 0x50 then
    let q := s.sq c ((o - 0x40) / 4)
    (BitVec.ofNat 32 (putBits v 23 22 (2 * b2n q.run + b2n q.pend)), s)
  else if b = 4 ∧ 0x40 ≤ o ∧ o < 0x50 then fifoRead rq p o s
  else if b = 4 ∧ o = 0x50 then
    (BitVec.ofNat 32 (putBits (putBits v 13 8 (s.cv c).fifoA.q.length) 29 24 (s.cv c).fifoB.q.length), s)
  else if b = 5 ∧ o = 0x84 then (BitVec.ofNat 32 (s.driftAge c), s)
  else if b = 6 ∧ o = 0x74 then (BitVec.ofNat 32 (s.cmpSeen c).1, s)
  else if b = 6 ∧ o = 0x78 then (BitVec.ofNat 32 (putBits v 31 31 (b2n (s.cmpSeen c).2)), s)
  else if b = 9 ∧ o = 0x4C then (s.countWord c, s)
  else if b = 0xA ∧ o = 0x44 then (BitVec.ofNat 32 (s.tripSrc c), s)
  else plainRead rq p o s

/-- The Caliper's time and angles (R228, R244). -/
def caliperRead (rq : Rq) (p : Page) (o : Nat) (s : State) : Option (Word × State) :=
  if p.blk = 0x300 ∧ o = 0x40 then
    let s := timeLatch rq.agent s
    some (BitVec.ofNat 32 (s.timeNs s.now), s)
  else if p.blk = 0x300 ∧ o = 0x44 then some (BitVec.ofNat 32 (s.secCopy rq.agent), s)
  else if p.blk = 0x300 ∧ o = 0x48 then some (BitVec.ofNat 32 (s.secCopy rq.agent / 2 ^ 32), s)
  else if p.blk = 0x301 ∧ o < 0x240 ∧ o % 32 = 16 then some (BitVec.ofNat 32 (s.angle ((o - 0x40) / 32) s.now), s)
  else if p.blk = 0x303 ∧ o < 0x340 ∧ ¬(rq.ring = 0 ∨ s.chOwner ((o - 0x40) / 16) = rq.tenant) then none
  else if p.blk = 0x31 ∧ o < 0xC40 ∧ ¬s.entOk rq (256 * p.inst + (o - 0x40) / 12) then none
  else some (plainRead rq p o s)

/-- ENG[e] (R365) and PERF[e] (R620). -/
def engineRead (rq : Rq) (p : Page) (o : Nat) (s : State) : Option (Word × State) :=
  let e := p.inst
  if p.blk = 0x42 then
    if o = 0x44 then some (s.engStatus e, s)
    else if o = 0x48 then some (s.engStore e, s)
    else if 0x400 ≤ o ∧ o < 0x800 ∧ o % 16 = 0 then
      some (BitVec.ofNat 32 (putBits (s.reg (p.base + o)).toNat 28 28 (b2n (s.slotActive e ((o - 0x400) / 16)))), s)
    else some (plainRead rq p o s)
  else
    let j := perfUnitOf o
    let t := rq.tenant
    if o < 0x70 ∨ j = 16 ∨ rq.ring = 0 ∨ (s.perfOwned e j t ∧ (rq.ring ≤ 2 ∨ s.b (Reg.TENANT.TCFG t) 0)) then some (plainRead rq p o s)
    else none

/-- The Armature's pages (R443-R445). -/
def armPageRead (rq : Rq) (p : Page) (o : Nat) (s : State) : Option (Word × State) :=
  if p.blk = 0x500 then some (if o < 0x98 then s.armRead rq.agent o else 0#32, s)
  else if p.blk = 0x501 then
    if o = 0x44 then some (s.armStatus, s)
    else if 0x100 ≤ o ∧ o < 0x280 then some (s.engLoad ((o - 0x100) / 4), s)
    else some (plainRead rq p o s)
  else
    let t := if p.blk = 0x502 then (o - 0x40) / 4 else (o - 0x800) / 4
    let tabled := if p.blk = 0x502 then true else decide (0x800 ≤ o)
    if ¬(rq.ring = 0 ∨ (tabled ∧ t = rq.tenant)) then none
    else if p.blk = 0x503 ∧ o < 0x4C then
      let r := s.repHead
      some (if o = 0x40 then r.r0 else if o = 0x44 then r.r1 else r.r2, s)
    else if p.blk = 0x503 ∧ o = 0x4C then some (if s.consumes rq then reportPop s else (s.repHead.r3, s))
    else if p.blk = 0x503 ∧ o = 0x50 then some (BitVec.ofNat 32 s.arm.reports.length, s)
    else some (plainRead rq p o s)

/-- MBOX, DBELL and LOCK (chapter 16). -/
def fabricRead (rq : Rq) (p : Page) (o : Nat) (s : State) : Option (Word × State) :=
  if p.blk = 0x61 then
    if o < 0x440 ∧ o % 32 < 0x18 then mboxRead rq (32 * p.inst + (o - 0x40) / 32) (o % 32) s else some (0#32, s)
  else if p.blk = 0x62 then
    if o < 0x440 then (ringRead rq p.inst ((o - 0x40) / 4) s).map (fun w => (w, s))
    else if rq.ring = 0 ∨ 0x840 ≤ o then some (plainRead rq p o s) else none
  else
    if o < 0x140 then lockRead rq ((o - 0x40) / 4) s
    else if o < 0x248 ∧ rq.ring ≠ 0 then none
    else if o = 0x240 ∨ o = 0x244 then some (s.lockHeld ((o - 0x240) / 4), s)
    else some (plainRead rq p o s)

/-- BOOTDATA: the read pops the boot queue (R32, R33, R613); a word the boot ROM takes continues its load. -/
def bootdataRead (rq : Rq) (s : State) : Word × State :=
  let h := s.host.hspi
  if !s.consumes rq then (h.boot.headD 0#32, s)
  else match h.boot with
    | [] => (0#32, s.capture Reg.HSPI.page 4 0x50)
    | w :: r =>
      if h.pushAt = some s.now ∧ r.isEmpty then (0#32, s.capture Reg.HSPI.page 4 0x50)
      else (w, bootWord w (s.setHost { s.host with hspi := { h with boot := r } }))

/-- A 32-bit read of a block register; `none` where it is refused as in R36. -/
def blockRead (rq : Rq) (p : Page) (o : Nat) (s : State) : Option (Word × State) :=
  let b := p.blk
  if b ≤ 12 then some (chanRead rq p o s)
  else if b = 0x31 ∨ (0x300 ≤ b ∧ b ≤ 0x303) then caliperRead rq p o s
  else if b = 0x42 ∨ b = 0x43 then engineRead rq p o s
  else if 0x500 ≤ b then armPageRead rq p o s
  else if b = 0x61 ∨ b = 0x62 ∨ b = 0x63 then fabricRead rq p o s
  else if b = 0x40 ∧ o = 0x40 then some (s.maqStatus p.inst, s)
  else if b = 0x41 ∧ o = 0x40 then some (BitVec.ofNat 32 (Nat.lor (s.reg (p.base + o)).toNat (s.burstBits p.inst)), s)
  else if b = 0x53 ∧ o < 0x4C then
    some (if o = 0x48 then (if s.consumes rq then eccLogPop s else (s.logHead.w2, s)) else (if o = 0x40 then s.logHead.w0 else s.logHead.w1, s))
  else if b = 0x20 then some (plainRead rq p o (dwSettle s))
  else if b = 0x21 ∧ o = 0x50 then some (BitVec.ofNat 32 s.aonTick, s)
  else if b = 0x71 ∧ o = 0x408 then
    let s := if s.phase = 4 then formAdvance s else s
    some (plainRead rq p o s)
  else if b = 0x72 then some (match s.pedReg o with
    | some w => (w, s)
    | none => plainRead rq p o s)
  else if b = 0x81 ∧ o = 0x50 then some (bootdataRead rq s)
  else if b = 0x81 ∧ o = 0x54 then some (BitVec.ofNat 32 s.host.hspi.boot.length, s)
  else if b = 0x83 ∧ o = 0x50 then some (BitVec.ofNat 32 s.gpioIn, s)
  else if b = 0x83 then some (plainRead rq p o (gpioSettle s.now s))
  else if b = 0x84 ∧ o = 0xC4 then some (s.estat, s)
  else if b = 0x84 ∧ o = 0xCC then some (rdataRead s)
  else some (plainRead rq p o s)

end Sys2Proof.Machine
end

