-- ==== Sys2Proof/Machine/Bus.lean ====
section
/-! DEFINITION. An access over the fabric: judgement of the address and the requester (R35, R36, R44), widths (R17, R18), accesses that a page holds (R28, R37, R415, R451, R588), memory, and the answer. -/

namespace Sys2Proof.Machine

/-! ## Registers -/

/-- The page holds this access now (R28, R37, R386, R415, R451, R588). `w` is the value of a write. -/
def State.regHeld (s : State) (rq : Rq) (p : Page) (o : Nat) (w : Option Nat) : Bool :=
  let x := s.page p.base
  (decide (0x40 ≤ o) && (x.busyUntil.isSome || x.releasing))
    || (x.ownUntil.isSome && rq.ring != 0 && s.f (p.base + 4) 8 0 == rq.tenant)
    || (w.isNone && ((p.blk == 0x54 && o == 0x48 && !s.invs.isEmpty) || (p.blk == 0x55 && o == 0x44 && !s.scans.isEmpty)
        || (p.blk == 0x500 && o == 0x84 && s.armBusy rq.agent)))
    || (w.isSome && p.blk == 0x500 && o == 0x80 && s.armBusy rq.agent)

/-- A write to a header register (R25-R30, R36, R37); `none` where it is refused. -/
def headerWrite (rq : Rq) (p : Page) (o v : Nat) (s : State) : Option State :=
  if o = 4 then (if rq.ring = 0 ∧ p.kind = 0 then some (ownerWrite p v s) else none)
  else if o = 8 then some (ctrlWrite p v s)
  else if o = 0xC then some (statWrite p.base v s)
  else if o = 0x10 then some (irqEnable p.base v s)
  else if o = 0x14 then some (irqSet p v s)
  else if o = 0x18 then some (s.setF (p.base + 0x18) 23 20 (bitsOf v 23 20))
  else if o = 0x1C then some (commitWrite p v s)
  else some s

/-- A 32-bit write to a register the page accepts (R22, R27, R232). -/
def regWrite (rq : Rq) (p : Page) (o v : Nat) (s : State) : Option State :=
  if rq.ring ≠ 0 ∧ (p.blk = 0x300 ∨ p.blk = 0x301 ∨ p.blk = 0x302) then none
  else if o < 0x40 then headerWrite rq p o v s
  else if s.off p.base then some s
  else blockWrite rq p o v s

/-- A 32-bit read of a register the page accepts (R22, R27). -/
def regRead (rq : Rq) (p : Page) (o : Nat) (s : State) : Option (Word × State) :=
  if o < 0x40 then some (s.headerRead p o, s)
  else if s.off p.base then some (regReset (p.base + o), s)
  else blockRead rq p o s

/-- The answer to a write: BUSERR where refused, held where the page waits for a reference scan (R449). -/
def writeAnswer (p : Page) (o v : Nat) (s : State) : Option State → Answer
  | none => .buserr
  | some _ => if p.blk = 0x55 ∧ (tenantWrite o v s).1 then .held else .ok

/-- One access to a register page that performs it: 32 bits, or 64 bits as a pair, lower address first at one edge (R17, R34). -/
def regPerform (rq : Rq) (p : Page) (o n : Nat) (w : Option Nat) (s : State) : Answer × Nat × State :=
  match w with
  | some v =>
    let r := regWrite rq p o (v % 2 ^ 32) s
    let a := writeAnswer p o (v % 2 ^ 32) s r
    let s1 := r.getD s
    if n = 8 then
      let r2 := regWrite rq p (o + 4) (v / 2 ^ 32 % 2 ^ 32) s1
      (if r2.isNone then .buserr else a, 0, r2.getD s1)
    else (a, 0, s1)
  | none =>
    let r := (regRead rq p o s).map (fun x => (x.1.toNat, x.2))
    let lo := r.getD (0, s)
    if n = 8 then
      let r2 := (regRead rq p (o + 4) lo.2).map (fun x => (x.1.toNat, x.2))
      let hi := r2.getD (0, lo.2)
      (if r.isNone ∨ r2.isNone then .buserr else .ok, lo.1 + hi.1 * 2 ^ 32, hi.2)
    else (if r.isNone then .buserr else .ok, lo.1, lo.2)

/-! ## Memory -/

/-- Bytes of an engine's instruction memory that are scratch (R337). -/
def State.scratch (s : State) (e : Nat) : Nat :=
  let k := s.f (Reg.ENG.CFG e) 1 0
  if k = 0 then 0x8000 else if k = 1 then 0x6000 else if k = 2 then 0x4000 else 0

/-- Why a memory access is not performed (R36, R44, R260, R337, R509): BUSERR, with the capture of the page concerned. -/
def memRefused (rq : Rq) (pa n : Nat) (write : Bool) (s : State) : Option State :=
  match s.memAt pa with
  | none => some s
  | some (k, i, b) =>
    if b + s.memSize k < pa + n then some s
    else match k with
      | .rom => if write then some s else none
      | .engI => if b + s.scratch i < pa + n then some s else none
      | .ped =>
        if rq.ring ≠ 0 then some s
        else if write ∧ s.inVote i ∧ ¬(97 ≤ rq.agent ∧ rq.agent ≤ 99) then some (s.capture Reg.PEDESTAL.page 0x88 pa) else none
      | .maq =>
        if rq.ring ≠ 0 ∧ s.maqOwner i ≠ rq.tenant then some s
        else if b + 0x60000 < pa + n then some (s.capture (Reg.MAQ.page i) 0x52 ((pa - b) % 2 ^ 17)) else none
      | _ => none

/-- The memory holds this access now: its block waits for its fill (R588), a Maquette is being cleared (R285), an LPDDR4 region is not filled (R406). -/
def State.memHeld (s : State) (pa : Nat) : Bool :=
  (match memPage pa with
    | some b => (s.page b).releasing
    | none => false)
  || (match s.memAt pa with
    | some (.maq, i, _) => s.maqClearing i
    | some (.dram, _, _) => !s.dramFilled (dramRegion pa)
    | _ => false)

/-- What a held access sets in motion: a fill of the region waited for (R406). -/
def memWait (pa : Nat) (s : State) : State :=
  match s.memAt pa with
  | some (.dram, _, _) => if s.dramFilled (dramRegion pa) then s else dramWait pa s
  | _ => s

/-- The block that holds a memory is under PWRPOL OFF (R588). -/
def State.memOff (s : State) (pa : Nat) : Bool :=
  match memPage pa with
  | some b => s.f (b + 8) 5 4 == 3
  | none => false

/-- A memory access that is performed: read, or write of `w`. An unpowered memory reads free values and keeps nothing (log 27). -/
def memPerform (rq : MemRq) (pa n : Nat) (w : Option Nat) (s : State) : Answer × Nat × State :=
  match s.memAt pa with
  | none => (.buserr, 0, s)
  | some (k, i, _) =>
    if s.memOff pa then
      match w with
      | some _ => (.ok, 0, s)
      | none =>
        let r := s.takeFree 0x0127
        (.ok, r.1 % 2 ^ (8 * n), r.2)
    else match w with
      | some v =>
        let r := memWrite rq k i pa n v s
        (if r.1 then .ok else .uncorrectable, 0, r.2)
      | none =>
        let r := memRead rq k i pa n s
        (if r.1.isSome then .ok else .uncorrectable, r.1.getD 0, r.2)

/-! ## Accesses -/

/-- The access is held by its page or memory. -/
def State.accessHeld (s : State) (rq : Rq) (a : Nat) (w : Option Nat) : Bool :=
  if isRegAddr a then
    match pageAt (a / 4096 * 4096) with
    | some p => s.accessOk rq p && s.regHeld rq p (a % 4096) w
    | none => false
  else s.memHeld a

/-- An access that nothing holds. `kind` tells the ECC log what the access was (R411). -/
def busPerform (rq : Rq) (kind a n : Nat) (w : Option Nat) (s : State) : Answer × Nat × State :=
  if isRegAddr a then
    match pageAt (a / 4096 * 4096) with
    | none => (.buserr, 0, s)
    | some p =>
      if !s.accessOk rq p then (.buserr, 0, s)
      else if n < 4 then (.buserr, 0, s.capture p.base 1 (a % 4096 / 4 * 4))
      else if a % n ≠ 0 then (.misalign, 0, s)
      else regPerform rq p (a % 4096) n w s
  else match memRefused rq a n w.isSome s with
    | some s => (.buserr, 0, s)
    | none => memPerform ⟨rq.tenant, rq.agent, kind⟩ a n w s

/-- An access: of a held one the page keeps the request (R28). -/
def busAccess (rq : Rq) (kind a n : Nat) (w : Option Nat) (s : State) : Answer × Nat × State :=
  if s.accessHeld rq a w && decide (4 ≤ n) then
    (.held, 0, { memWait a s with held := s.held ++ [⟨rq, a, n, w.map (BitVec.ofNat 64)⟩] })
  else busPerform rq kind a n w s

/-- The answer and the data become visible to the requester. -/
def answered (r : Answer × Nat × State) : State := { r.2.2 with answer := r.1, data := BitVec.ofNat 64 r.2.1 }

/-- Held accesses in order: those nothing holds any more are performed (R21, R28). -/
def heldGo : List Held → State → State
  | [], s => s
  | h :: r, s =>
    let w := h.value.map (·.toNat)
    if s.accessHeld h.rq h.addr w then heldGo r { s with held := s.held ++ [h] }
    else heldGo r (answered (busPerform h.rq 1 h.addr h.size w s))

/-- Perform every held access that its page no longer holds. -/
def performHeld (s : State) : State := heldGo s.held { s with held := [] }

/-- A write of one field: the rest of the register is written as it stands (log 24). The word written. -/
def State.fieldWord (s : State) (a hi lo v : Nat) : Nat :=
  match pageAt (a / 4096 * 4096) with
  | some p => putBits (s.keepWord p (a % 4096)).toNat hi lo v
  | none => v <<< lo

/-- REGISTER_WRITE of a 32-bit word. -/
def wordWriteBy (rq : Rq) (a v : Nat) (s : State) : State := answered (busAccess rq 1 a 4 (some v) s)

/-- A row that writes one field of a register. -/
def fieldWriteBy (rq : Rq) (a hi lo v : Nat) (s : State) : State := wordWriteBy rq a (s.fieldWord a hi lo v) s

/-- A row that reads a register. -/
def wordReadBy (rq : Rq) (a : Nat) (s : State) : State := answered (busAccess rq 1 a 4 none s)

/-! ## The ends of what pages wait for -/

/-- SOFT_RESET_DONE: BUSY returns to 0 after 16 CCLK (R28). -/
def softResetDone (base : Nat) (s : State) : State :=
  match (s.page base).busyUntil with
  | none => s
  | some t =>
    let s := s.moveTo t
    performHeld (s.setPage base { s.page base with busyUntil := none })

/-- OWNER_CHANGE_DONE: the change of owner is complete after 18 CCLK (R37). A channel's pages complete together (R38). -/
def ownerChangeDone (base : Nat) (s : State) : State :=
  match (s.page base).ownUntil with
  | none => s
  | some t =>
    let s := s.moveTo t
    let pages := match pageAt base with
      | some p => if p.blk ≤ 12 then (List.range 12).map (fun k => Reg.chanPage p.inst k) else [base]
      | none => [base]
    performHeld (pages.foldl (fun u b => u.setPage b { u.page b with busyUntil := none, ownUntil := none }) s)

/-- BLOCK_RELEASE: the Rasp has filled the block's memories (R27, R588). -/
def blockRelease (base : Nat) (s : State) : State :=
  match pageAt base with
  | none => s
  | some p =>
    if !(s.page base).releasing ∨ (pageMems p).any (fun m => s.rasp.clears.any (fun c => c.base == m.1)) then s
    else performHeld (blockResume p (s.setPage base { s.page base with releasing := false }))

end Sys2Proof.Machine
end

