-- ==== Sys2Proof/Machine/EngBus.lean ====
section
/-! DEFINITION. The accesses of a core: the places an address leads to (R315, R337, R489), the write buffer (R336, R379), the TLB (R374, R382), and the performance of an access beyond the core's own memory (R309, R310, R372, R491). -/

namespace Sys2Proof.Machine

/-! ## Bandwidth (R625) -/

/-- The plinth of a memory, if it lies in one. -/
def plinthOf (pa : Nat) : Option Nat :=
  if 0x60000000 ≤ pa ∧ pa < 0x61800000 then some ((pa - 0x60000000) / 0x200000)
  else if 0x80000000 ≤ pa ∧ pa < 0x81800000 then some ((pa - 0x80000000) / 0x200000)
  else if 0xC0000000 ≤ pa ∧ pa < 0xC0600000 then some ((pa - 0xC0000000) / 0x80000)
  else none

/-- One transfer of `n` bytes between core `e` and `pa` reaches the bandwidth monitors: the ports it passes, as seen by an engine of each plinth (R625). Data of a read enters the reader's plinth. -/
def perfTransfer (e pa n : Nat) (write : Bool) (t : Nat) (s : State) : State :=
  let home : Option Nat := if e < 96 then some (e / 8) else none
  let tgt := plinthOf pa
  let src := if write then home else tgt
  let dst := if write then tgt else home
  let n := if 0x1000000000 ≤ pa then 64 else n
  s.host.bw.foldl (fun u p =>
    let m := p.1
    let pl := m / 8
    let u := if m = e then perfBytes m 0 write n t u else u
    let u := if home ≠ tgt ∧ src = some pl then perfBytes m 1 write n t u else u
    let u := if home ≠ tgt ∧ dst = some pl then perfBytes m 2 write n t u else u
    let u := if 0x1000000000 ≤ pa then perfBytes m 3 write n t u else u
    if 0xC0000000 ≤ pa ∧ pa < 0xC0600000 ∧ tgt = some pl then perfBytes m 4 write n t u else u) s

/-! ## Places -/

/-- The requester that core `e` is for a tenant and a ring (R35, R481). -/
def coreRq (e tenant ring : Nat) : Rq := ⟨tenant, ring, e + 1, false⟩

/-- Where an access of core `e` to a physical address goes: its own X, Y or instruction memory, or its Pedestal memory (at the address its code words have); beyond it; or nowhere (R44, R489). -/
inductive Place where
  | own (pa : Nat)
  | far
  | nowhere
deriving DecidableEq, Repr

def State.place (s : State) (e pa : Nat) : Place :=
  if e < 96 then
    match s.memAt pa with
    | some (.engX, i, _) => if i = e then .own pa else .far
    | some (.engY, i, _) => if i = e then .own pa else .far
    | some (.engI, i, _) => if i = e then .own pa else .far
    | some _ => .far
    | none => if isRegAddr pa ∨ 0x1000000000 ≤ pa then .far else .nowhere
  else if 0xD0000000 ≤ pa ∧ pa < 0xD0080000 then .own (pa + (e - 96) * 0x80000)
  else if 0xD0080000 ≤ pa ∧ pa < 0xD0180000 then .nowhere
  else if (s.memAt pa).isSome ∨ isRegAddr pa ∨ 0x1000000000 ≤ pa then .far else .nowhere

/-- The X operand of a MACD may lie at `pa` (R315, R329). -/
def inX (e pa : Nat) : Bool :=
  if e < 96 then decide (0x60000000 + e * 0x40000 ≤ pa) && decide (pa < 0x60010000 + e * 0x40000)
  else decide (0xD0000000 ≤ pa) && decide (pa < 0xD0040000)
/-- The Y operand. -/
def inY (e pa : Nat) : Bool :=
  if e < 96 then decide (0x60010000 + e * 0x40000 ≤ pa) && decide (pa < 0x60020000 + e * 0x40000)
  else decide (0xD0040000 ≤ pa) && decide (pa < 0xD0080000)

/-- A store is refused when its bundle is judged: BUSERR, with the capture that goes with it (R18, R36, R337, R380). -/
def storeRefused (e tenant ring pa n v : Nat) (dev : Bool) (s : State) : Option State :=
  let rq := coreRq e tenant ring
  if isRegAddr pa then
    if !dev then some s
    else match pageAt (pa / 4096 * 4096) with
      | none => some s
      | some p =>
        if !s.accessOk rq p then some s
        else if n < 4 then some (s.capture p.base 1 (pa % 4096 / 4 * 4))
        else if s.regHeld rq p (pa % 4096) (some v) then none
        else if (regWrite rq p (pa % 4096) (v % 2 ^ 32) s).isNone then some s else none
  else memRefused rq pa n true s

/-- A part of a code word at `pa` is written and the word cannot be corrected (R394, R395): the report, if so. -/
def storeSpoilt (e tenant pa n : Nat) (s : State) : Option State :=
  match s.memAt pa with
  | none => none
  | some (k, i, _) =>
    let w := wordBytes k
    if s.memOff pa ∨ (pa % w = 0 ∧ n % w = 0) then none
    else
      match memRead ⟨tenant, e + 1, 2⟩ k i (pa / w * w) ((pa + n + w - 1) / w * w - pa / w * w) s with
      | (none, s) => some s
      | (some _, _) => none

/-! ## The write buffer (R336) -/

/-- Perform a store of core `e` at memory or at its page. A 16-byte store to a register page is four words (R17). -/
def storePerform (e : Nat) (w : WbEnt) (s : State) : State :=
  let rq := coreRq e w.tenant w.ring
  let s := perfTransfer e w.pa w.size true w.tenant s
  if isRegAddr w.pa ∧ w.size = 16 then
    (List.range 4).foldl (fun u i => (busAccess rq 1 (w.pa + 4 * i) 4 (some (w.value / 2 ^ (32 * i) % 2 ^ 32)) u).2.2) s
  else (busAccess rq 1 w.pa w.size (some w.value) s).2.2

/-- The oldest store is performed and its entry is free. -/
def wbPerform (e : Nat) (s : State) : State :=
  match (s.core e).wbuf with
  | [] => s
  | w :: r => storePerform e w (s.setCore e { s.core e with wbuf := r })

/-- Perform `n` of the buffered stores, oldest first. -/
def wbDrainGo (e : Nat) : Nat → State → State
  | 0, s => s
  | n + 1, s => wbDrainGo e n (wbPerform e s)
def wbDrain (e : Nat) (s : State) : State := wbDrainGo e (s.core e).wbuf.length s

/-- A store enters the buffer; the oldest one makes room. -/
def wbPush (e : Nat) (w : WbEnt) (s : State) : State :=
  let s := if 4 ≤ (s.core e).wbuf.length then wbPerform e s else s
  s.setCore e { s.core e with wbuf := (s.core e).wbuf ++ [w] }

/-- Byte `a` as the youngest buffered store that covers it would leave it. -/
def wbByte (l : List WbEnt) (a : Nat) : Option Nat :=
  l.foldl (fun x w => if !w.dev ∧ w.pa ≤ a ∧ a < w.pa + w.size then some (w.value / 256 ^ (a - w.pa) % 256) else x) none
/-- Every byte of an access is covered. -/
def wbCovers (l : List WbEnt) (a n : Nat) : Bool := (List.range n).all (fun i => (wbByte l (a + i)).isSome)
/-- The data of a read with the buffered bytes in place. -/
def wbMerge (l : List WbEnt) (a n v : Nat) : Nat :=
  (List.range n).foldl (fun x i => match wbByte l (a + i) with
    | some b => putBits x (8 * i + 7) (8 * i) b
    | none => x) v

/-! ## The TLB (R374) -/

def tlbFind (l : List TlbEnt) (t va : Nat) : Option TlbEnt := l.find? (fun x => x.tenant == t && x.page == va / 2 ^ (x.size + 10))
/-- A hit makes the entry the most recently used. -/
def tlbTouch (e : Nat) (x : TlbEnt) (s : State) : State :=
  let k := s.core e
  s.setCore e { k with tlb := x :: k.tlb.filter (fun y => y != x) }
/-- A fill removes the tenant's entries that overlap the new page, and the least recently used beyond 64. -/
def tlbFill (e t va ent at_ : Nat) (level1 : Bool) (s : State) : State :=
  let k := s.core e
  let z := entSize ent
  let page := va / 2 ^ (z + 10)
  let lap := fun (y : TlbEnt) => y.tenant == t && (if y.size ≤ z then y.page / 2 ^ (z - y.size) == page else page / 2 ^ (y.size - z) == y.page)
  s.setCore e { k with tlb := (⟨t, page, z, ent, at_, level1, entD ent⟩ :: k.tlb.filter (fun y => !lap y)).take 64 }
/-- The entry is gone. -/
def tlbDrop (e : Nat) (x : TlbEnt) (s : State) : State :=
  let k := s.core e
  s.setCore e { k with tlb := k.tlb.filter (fun y => y != x) }
/-- The entry's copy of D becomes 1. -/
def tlbDirty (e : Nat) (x : TlbEnt) (s : State) : State :=
  let k := s.core e
  s.setCore e { k with tlb := k.tlb.map (fun y => if y = x then { y with d := true } else y) }

/-! ## Walks (R372, R381) -/

/-- Class of the uncorrectable word a walk met (R392): the level-1 entry's, else that of the level-2 entry. -/
def State.walkClass (s : State) (t va : Nat) : Nat :=
  let a := s.f (Reg.MMU.ROOT t) 24 0 * 2 ^ 15 + bitsOf va 31 20 * 8
  let c := (eccClass 8 (s.synd a)).code
  if 2 ≤ c then c
  else
    match tblRead ⟨t, 0, 3⟩ a s with
    | (.val e, _) => (eccClass 8 (s.synd (entPA e / 8192 * 8192 + bitsOf va 19 10 * 8))).code
    | _ => c

/-- A walk with its mark A (R381); an uncorrectable word in T0's tables is a device-wide cause (R396). -/
def walkMark (e t va : Nat) (s : State) : WalkOut × State :=
  let rq : MemRq := ⟨t, e + 1, 3⟩
  match walk rq t va s with
  | (.leaf x a l1, s) =>
    if entA x then (.leaf x a l1, s)
    else
      let r := markEntry rq a x 8 s
      if r.1 then (.leaf (Nat.lor x 256) a l1, r.2) else (.fault 9 true, r.2)
  | (.fault d true, s) => (.fault d true, if t = 0 then dwCause 3 ((e + 1) * 256 + s.walkClass t va) false s else s)
  | r => r

/-- What a walk brought, packed for a compared access: entry, replica and level, or a fault. -/
def WalkOut.got : WalkOut → Got
  | .leaf x a l1 => ⟨some (x + a * 2 ^ 64 + b2n l1 * 2 ^ 112), false⟩
  | .fault d c => ⟨some (2 ^ 120 + d * 2 + b2n c), false⟩
  | .bus => ⟨some (2 ^ 120), false⟩

/-- The walk's result reaches the core: a fill, or the fault its bundle will take (R372, R374). -/
def walkEnd (e t va : Nat) (g : Got) (s : State) : State :=
  let v := g.val.getD (2 ^ 120)
  let k := s.core e
  match k.stall with
  | none => s
  | some st =>
    if 2 ^ 120 ≤ v then s.setCore e { k with stall := some { st with walkFault := some (va / 1024, (v - 2 ^ 120) / 2, v % 2 == 1) } }
    else tlbFill e t va (v % 2 ^ 64) (bitsOf v 111 64) (bitOf v 112) s

/-! ## Accesses beyond the core (R333, R491) -/

/-- A read through a page or memory; 16 bytes of a register page are four words (R17). -/
def readPerform (e : Nat) (x : ExtAcc) (s : State) : Answer × Nat × State :=
  let rq := coreRq e x.tenant x.ring
  let s := perfTransfer e x.pa x.size false x.tenant s
  if isRegAddr x.pa ∧ x.size = 16 then
    (List.range 4).foldl (fun (r : Answer × Nat × State) i =>
      let q := busPerform rq 1 (x.pa + 4 * i) 4 none r.2.2
      (if r.1 = .ok then q.1 else r.1, r.2.1 + q.2.1 * 2 ^ (32 * i), q.2.2)) (.ok, 0, s)
  else busPerform rq 1 x.pa x.size none s

def Got.ofAnswer (r : Answer × Nat × State) : Got × State :=
  (⟨if r.1 = .ok then some r.2.1 else none, r.1 != .ok && r.1 != .uncorrectable && r.1 != .held⟩, r.2.2)

/-- What an atomic leaves in the word (R306). -/
def atomNew (k : AtomOp) (old v : Nat) : Nat :=
  match k with
  | .aaddm => (old + v) % 2 ^ 32
  | .aorm => Nat.lor old v
  | .aswap => v

/-- Perform an access of core `e`. -/
def extPerform (e : Nat) (x : ExtAcc) (s : State) : Got × State :=
  let rq := coreRq e x.tenant x.ring
  let s := if x.dev then wbDrain e s else s
  match x.kind with
  | .read => Got.ofAnswer (readPerform e x s)
  | .write => Got.ofAnswer (busPerform rq 1 x.pa x.size (some x.data) (perfTransfer e x.pa x.size true x.tenant s))
  | .atomic k =>
    let r := busPerform rq 1 x.pa 4 none (perfTransfer e x.pa 4 true x.tenant (wbDrain e s))
    if r.1 = .ok then
      let w := busPerform rq 2 x.pa 4 (some (atomNew k r.2.1 x.data)) r.2.2
      (⟨if w.1 = .ok then some r.2.1 else none, w.1 != .ok && w.1 != .uncorrectable⟩, w.2.2)
    else Got.ofAnswer r
  | .stcx =>
    if (s.core e).resv = some (x.pa / 64 * 64) then
      let r := busPerform rq 1 x.pa 4 (some x.data) (perfTransfer e x.pa 4 true x.tenant (wbDrain e s))
      (⟨if r.1 = .ok then some 1 else none, r.1 != .ok && r.1 != .uncorrectable⟩, r.2.2)
    else (⟨some 0, false⟩, s)
  | .walk =>
    let r := walkMark e x.tenant x.pa s
    (r.1.got, r.2)
  | .mark bit =>
    let r := markEntry ⟨x.tenant, e + 1, 3⟩ x.pa x.data bit s
    (⟨some (b2n r.1), false⟩, r.2)
  | .ckpt => (⟨some 0, false⟩, s)
  | .third => (⟨some 0, false⟩, s)

/-- The access must wait: its page holds it, or its memory is not ready (R28, R406). -/
def State.extHeld (s : State) (e : Nat) (x : ExtAcc) : Bool :=
  match x.kind with
  | .read => s.accessHeld (coreRq e x.tenant x.ring) x.pa none
  | .write => s.accessHeld (coreRq e x.tenant x.ring) x.pa (some x.data)
  | .atomic _ => s.accessHeld (coreRq e x.tenant x.ring) x.pa (some x.data)
  | .stcx => s.accessHeld (coreRq e x.tenant x.ring) x.pa (some x.data)
  | _ => false

end Sys2Proof.Machine
end

