-- ==== Sys2Proof/Machine/PedVote.lean ====
section
/-! DEFINITION. The comparator of the Pedestal: accesses paired in issue order, performed once when agreed, and the copies that disagree (R491-R494). -/

namespace Sys2Proof.Machine

/-- Two accesses agree (R491). -/
def ExtAcc.agrees (x y : ExtAcc) : Bool :=
  x.kind == y.kind && x.pa == y.pa && x.size == y.size && x.ring == y.ring && x.data == y.data

/-- A register of the PEDESTAL page that every copy has for itself: PSREQ0, PSREQ1, the slots (R492). -/
def pedOwn (pa : Nat) : Bool :=
  let o := pa - Reg.PEDESTAL.page
  decide (Reg.PEDESTAL.page ≤ pa) && (decide (0x48 ≤ o ∧ o < 0x50) || decide (0x100 ≤ o ∧ o < 0x200))

/-- The first entry whose number every copy in the vote has passed, and which nobody waits for, is dropped. -/
def pedPruneGo : Nat → State → State
  | 0, s => s
  | f + 1, s =>
    match s.ped.queue with
    | [] => s
    | q :: r =>
      let i := s.ped.base
      if q.done.isSome ∧ s.voters.all (fun j =>
          let n := (s.copy j).issued
          decide (i + 1 < n) || (n == i + 1 && (s.core (96 + j)).stall.isNone)) then
        pedPruneGo f { s with ped := { s.ped with queue := r, base := i + 1 } }
      else s
def pedPrune (s : State) : State := pedPruneGo s.ped.queue.length s

/-- Accesses performed ahead of a lagging copy (R492). -/
def State.pedAhead (s : State) : Nat :=
  ((List.range s.ped.queue.length).filter (fun i =>
    ((lget ⟨[], none⟩ s.ped.queue i).done).isSome && s.voters.any (fun j => decide ((s.copy j).issued ≤ s.ped.base + i)))).length

/-- Copy `k` may issue its next access (R492). -/
def State.pedRoom (s : State) (k : Nat) : Bool :=
  decide ((s.copy k).issued < s.ped.base + s.ped.queue.length) || decide (s.pedAhead < 16)

/-- The cause under which a copy that issued `odd` leaves when `good` was agreed (R494). -/
def outCause (good odd : ExtAcc) : Nat :=
  if odd.kind = .third then 4 else if good.kind = .ckpt ∨ odd.kind = .ckpt then 2 else 1

/-- Copy `k` issues its next access; one already performed is compared at once (R491). The accesses of a copy out of the vote are disregarded (R495). -/
def pedIssue (k : Nat) (x : ExtAcc) (s : State) : State :=
  if s.inVote k then
    let c := s.copy k
    let i := c.issued - s.ped.base
    let s := s.setCopy k { c with issued := c.issued + 1 }
    let q := s.ped.queue
    if i < q.length then
      let t := lget ⟨[], none⟩ q i
      let s := { s with ped := { s.ped with queue := lput q i { t with issued := t.issued ++ [(k, x)] } } }
      match t.done with
      | some (y, _, _) => if x.agrees y then s else voteOut k (outCause y x) s
      | none => s
    else { s with ped := { s.ped with queue := q ++ [⟨[(k, x)], none⟩] } }
  else s

/-- The agreed access is performed once, as the access of copy `k`; writes of the copies' own registers are not performed (R491, R492). -/
def pedPerform (k i : Nat) (x : ExtAcc) (s : State) : State :=
  let r := if pedOwn x.pa ∧ (x.kind = .read ∨ x.kind = .write) then (⟨some 0, false⟩, s) else extPerform (96 + k) x s
  let s := r.2
  let t := lget ⟨[], none⟩ s.ped.queue i
  let s := { s with ped := { s.ped with queue := lput s.ped.queue i { t with done := some (x, r.1, s.now) } } }
  if x.kind = .ckpt then checkpointDone (if x.dev then some (x.data / 2 ^ 112) else none) s else s

/-- Of the accesses issued, the agreed one with the copy that stands for it, where two agree. -/
def pedAgreed : List (Nat × ExtAcc) → Option (Nat × ExtAcc)
  | [] => none
  | a :: r => if r.any (fun b => b.2.agrees a.2) then some a else pedAgreed r

/-- The comparator judges entry `i` (R491, R494). -/
def pedJudge (i : Nat) (s : State) : State :=
  let t := lget ⟨[], none⟩ s.ped.queue i
  let l := t.issued.filter (fun p => s.inVote p.1)
  let n := s.voters.length
  if n < 2 ∨ l.length < 2 then s
  else
    match pedAgreed l with
    | some (k, x) =>
      if s.extHeld (96 + k) x then s
      else
        let s := pedPerform k i x s
        pedPrune ((l.filter (fun p => !p.2.agrees x)).foldl (fun u p => voteOut p.1 (outCause x p.2) u) s)
    | none => if l.length < n then s else voteAll s

/-- The first entry not performed. -/
def State.pedOpen (s : State) : Option (Nat × CmpEnt) :=
  ((List.range s.ped.queue.length).map (fun i => (i, lget ⟨[], none⟩ s.ped.queue i))).find? (fun p => p.2.done.isNone)

/-- The entry is a checkpoint or a third fault, as its first issuer sees it. -/
def CmpEnt.isCkpt (t : CmpEnt) : Bool := t.issued.head?.any (fun p => p.2.kind == .ckpt || p.2.kind == .third)

/-- EXTERNAL_ACCESS_VOTE and CHECKPOINT: the comparator judges the oldest access that is not performed, if it is of the kind (R491, R493). -/
def pedVote (ckpt : Bool) (s : State) : State :=
  match s.pedOpen with
  | some (i, t) => if t.isCkpt = ckpt then pedJudge i s else s
  | none => s

/-- What was performed for copy `k`'s latest access, if it has been. -/
def State.pedGot (s : State) (k : Nat) : Option (ExtAcc × Got) :=
  let n := (s.copy k).issued
  if s.ped.base < n then ((lget ⟨[], none⟩ s.ped.queue (n - 1 - s.ped.base)).done).map (fun d => (d.1, d.2.1)) else none

/-- A copy's read of its own registers (R499), word by word. -/
def State.pedOwnRead (s : State) (k : Nat) (x : ExtAcc) : Nat :=
  let w := fun (i : Nat) => ((s.pedOwnReg k (x.pa + 4 * i - Reg.PEDESTAL.page)).getD 0#32).toNat
  (List.range (x.size / 4)).foldl (fun v i => v + w i * 2 ^ (32 * i)) 0
/-- A copy's write to its own registers (R492). -/
def pedOwnWrite (k pa n v : Nat) (s : State) : State :=
  (List.range (n / 4)).foldl (fun u i =>
    let o := pa + 4 * i - Reg.PEDESTAL.page
    let w := v / 2 ^ (32 * i) % 2 ^ 32
    if o < 0x50 then psreqWrite k ((o - 0x48) / 4) w u else pedSlotWrite k ((o - 0x100) / 16) (o % 16 / 4) w u) s

/-- The checkpoint of copy `k` as an access: IC, SIG, and the tag of a CKPT write (R493). -/
def State.ckptAcc (s : State) (k ring : Nat) (tag : Option Nat) : ExtAcc :=
  let c := s.copy k
  ⟨.ckpt, Reg.PEDESTAL.CKPT, 4, ring, 0, c.ic % 2 ^ 48 + c.sig % 2 ^ 64 * 2 ^ 48 + tag.getD 0 * 2 ^ 112, tag.isSome⟩

end Sys2Proof.Machine
end

