-- ==== Sys2Proof/Machine/EngBundle.lean ====
section
/-! DEFINITION. One attempt at a bundle: fetch (R338, R340), translation and permission (R366, R376), the syllables in slot order (R294-R297), and what they ask for at commit. An attempt ends with its commit, with a fault, or with an access it has to wait for; then it is made again with what the access brought. -/

namespace Sys2Proof.Machine

/-- Why an attempt stops. -/
inductive Stop where
  | fault (f : Flt)
  | stall (n : Need)

/-- A store that the commit performs: one part of an access. -/
structure StReq where
  va : Nat
  pa : Nat
  size : Nat
  value : Nat
  dev : Bool
  ring : Nat
  slot : Nat
  kind : Nat
  split : Bool
  /-- The write half of an atomic, or of an STCX: not buffered (R309, R310). -/
  direct : Bool

/-- An attempt: the state as it would be, the state a wait leaves, the activation before the bundle, and what the syllables asked for so far. -/
structure Att where
  s : State
  base : State
  e : Nat
  b : List Syl
  act : Act
  /-- Results of earlier accesses, in order; and those used so far. -/
  got : List Got
  used : List Got
  walkFault : Option (Nat × Nat × Bool)
  writes : List Wr
  /-- Flag effects with their slots. -/
  flags : List (Nat × FlagOut)
  /-- FL as MTC, CLRF or RETE leave it. -/
  setFl : Option Nat
  stores : List StReq
  push : List StReq
  next : Nat
  taken : Bool
  /-- Ring, WAIT and frame count after the writes. -/
  fin : Act → Act
  ends : Bool
  brk : Bool
  longs : List (List (Nat × Word) × Bool × Nat)
  macs : Nat
  splits : Nat
  resv : Option (Option Nat)
  flush : Option Nat
  drain : Bool

abbrev EM := EStateM Stop Att

def Att.rq (a : Att) (ring : Nat) : Rq := coreRq a.e a.act.tenant ring
def Att.mrq (a : Att) (kind : Nat) : MemRq := ⟨a.act.tenant, a.e + 1, kind⟩

/-- The bundle is a micro-routine. -/
def Att.micro (a : Att) : Bool := a.b.any (fun y => opIsMicro y.op)

/-- The attempt ends in a fault (R354, R364). -/
def raise {α : Type} (cause slot kind : Nat) (ecc split : Bool) (detail addr : Nat) : EM α := do
  let a ← get
  throw (.fault ⟨cause, slot, kind, ecc, split, kind != 0 && a.micro, detail, addr⟩)

/-- An access beyond the core: its result, or the wait for it. -/
def ext (x : ExtAcc) : EM Got := do
  let a ← get
  match a.got with
  | g :: r =>
    set { a with got := r, used := a.used ++ [g] }
    pure g
  | [] => throw (.stall (.data x))

/-! ## Permissions (R376): 0, or the detail of R377 -/

def permRead (r e : Nat) : Nat := if leafReads e r then 0 else 5
def permWrite (r e : Nat) : Nat := if leafWrites e r then 0 else 6
def permBoth (r e : Nat) : Nat := if !leafReads e r then 5 else permWrite r e
def permRun (r e : Nat) : Nat := if entDev e then 8 else if leafRuns e r then 0 else 7
def permAny (_ : Nat) : Nat := 0

/-- The translation of `va` (R366, R374, R376). -/
def xlate (slot kind va : Nat) (sp : Bool) (perm : Nat → Nat) : EM TlbEnt := do
  let a ← get
  match tlbFind (a.s.core a.e).tlb a.act.tenant va with
  | some x =>
    set { a with s := tlbTouch a.e x a.s }
    if perm x.entry = 0 then pure x else raise 4 slot kind false sp (perm x.entry) va
  | none =>
    match a.walkFault with
    | some (v, d, c) =>
      if v = va / 1024 then raise (if d = 0 then 3 else 4) slot kind c sp d va else throw (.stall (.walk a.act.tenant va))
    | none => throw (.stall (.walk a.act.tenant va))

/-! ## Fetch (R338, R340) -/

/-- The piece of a bundle that lies in one 64-byte line. -/
def fetchPiece (va n : Nat) : EM Unit := do
  let x ← xlate 0 0 va false (permRun (← get).act.ring)
  let a ← get
  let pa := leafPA x.entry va
  let line := pa / 64 * 64
  let bus : Bool → EM Unit := fun c => raise 3 0 0 c false 0 va
  let own : Bool := match a.s.place a.e pa with
    | .own p => decide (96 ≤ a.e) || (decide (0x60020000 + a.e * 0x40000 ≤ p) && decide (p + n ≤ 0x60020000 + a.e * 0x40000 + a.s.scratch a.e))
    | _ => false
  if own then
    match a.s.place a.e pa with
    | .own p =>
      let r := memPerform (a.mrq 0) p n none a.s
      if r.1 = .ok then set { a with s := r.2.2 }
      else
        set { a with s := if a.e < 96 then r.2.2 else pedEcc (a.e - 96) r.2.2 }
        bus true
    | _ => pure ()
  else if a.e < 96 then
    let k := a.s.core a.e
    match k.lines.find? (fun l => l.1 == line && l.2.1 == a.act.ctx) with
    | some l =>
      if l.2.2 then bus true
      else set { a with s := a.s.setCore a.e { k with lines := l :: k.lines.filter (fun m => m != l) } }
    | none => if a.walkFault = some (line, 15, false) then bus false else throw (.stall (.fill line))
  else if a.s.place a.e pa = .nowhere then bus false
  else
    let g ← ext ⟨.read, line, 64, a.act.ring, a.act.tenant, 0, false⟩
    if g.bus then bus false else if g.val.isNone then bus true else pure ()

/-- The fetch of the bundle. -/
def fetch : EM Unit := do
  let a ← get
  let pc := a.act.pc.toNat
  let n := 4 * a.b.length
  let m := min n (64 - pc % 64)
  fetchPiece pc m
  if m < n then fetchPiece ((pc + m) % 2 ^ 32) (n - m) else pure ()

/-! ## Loads -/

/-- One part of a load through a leaf. `okAt` is the memory rule of R315. -/
def loadPart (slot kind ring : Nat) (x : TlbEnt) (va n : Nat) (sp : Bool) (okAt : Nat → Bool) : EM Nat := do
  let a ← get
  let pa := leafPA x.entry va
  let dev := entDev x.entry
  let bus : Bool → EM Nat := fun c => raise 3 slot kind c sp 0 va
  if !okAt pa || (dev && a.micro) then bus false
  else match a.s.place a.e pa with
    | .nowhere => bus false
    | .own p =>
      let refused : Bool := if a.e < 96 then (memRefused (a.rq ring) p n false a.s).isSome else decide (0xD0080000 < pa + n)
      if refused then bus false
      else
        let s := if dev then wbDrain a.e a.s else a.s
        let wb := (s.core a.e).wbuf
        let r := memPerform (a.mrq 1) p n none s
        if wbCovers wb p n then pure (wbMerge wb p n 0)
        else if r.1 = .ok then
          set { a with s := r.2.2 }
          pure (wbMerge wb p n r.2.1)
        else
          set { a with s := if a.e < 96 then r.2.2 else pedEcc (a.e - 96) r.2.2 }
          bus true
    | .far =>
      let wb := (a.s.core a.e).wbuf
      if isRegAddr pa ∧ !dev then bus false
      else if !dev ∧ wbCovers wb pa n then pure (wbMerge wb pa n 0)
      else
        let g ← ext ⟨.read, pa, n, ring, a.act.tenant, 0, dev⟩
        if g.bus then bus false
        else match g.val with
          | none => bus true
          | some v => pure (if dev then v else wbMerge wb pa n v)

/-- A load of `n` bytes at `va`, split where it is not aligned (R341, R342). -/
def loadVa (slot kind ring va n : Nat) (perm : Nat → Nat) (okAt : Nat → Bool) : EM Nat := do
  if va % n = 0 then
    let x ← xlate slot kind va false perm
    loadPart slot kind ring x va n false okAt
  else
    let m := n - va % n
    let vh := (va + m) % 2 ^ 32
    let x ← xlate slot kind va false perm
    let y ← xlate slot kind vh true perm
    if entDev x.entry || entDev y.entry then raise (if (← get).micro then 3 else 2) slot kind false false 0 va
    else
      modify (fun a => { a with splits := a.splits + 1 })
      let lo ← loadPart slot kind ring x va m false okAt
      let hi ← loadPart slot kind ring y vh (n - m) true okAt
      pure (lo + hi * 2 ^ (8 * m))

def anyPlace (_ : Nat) : Bool := true

/-! ## Stores -/

/-- One part of a store, judged (R36, R337, R380, R394). -/
def storePart (slot kind ring : Nat) (x : TlbEnt) (va n v : Nat) (sp direct : Bool) : EM StReq := do
  let a ← get
  let pa := leafPA x.entry va
  let dev := entDev x.entry
  let req : StReq := ⟨va, pa, n, v, dev, ring, slot, kind, sp, direct⟩
  let bus : Bool → EM StReq := fun c => raise 3 slot kind c sp 0 va
  let spoilt : Nat → EM StReq := fun p =>
    match storeSpoilt a.e a.act.tenant p n a.s with
    | some s => do
      set { a with s := if a.e < 96 then s else pedEcc (a.e - 96) s }
      bus true
    | none => pure req
  if dev && a.micro then bus false
  else match a.s.place a.e pa with
  | .nowhere => bus false
  | .own p =>
    if a.e < 96 then
      match memRefused (a.rq ring) p n true a.s with
      | some s => do
        set { a with s := s }
        bus false
      | none => spoilt p
    else if 0xD0080000 < pa + n then bus false else spoilt p
  | .far =>
    if isRegAddr pa ∧ !dev then bus false
    else if a.e < 96 then
      match storeRefused a.e a.act.tenant ring pa n v dev a.s with
      | some s => do
        set { a with s := s }
        bus false
      | none => spoilt pa
    else pure req

/-- A store of `n` bytes at `va`, split where it is not aligned (R341, R342). -/
def storeVa (slot kind ring va n v : Nat) : EM (List StReq) := do
  if va % n = 0 then
    let x ← xlate slot kind va false (permWrite ring)
    let r ← storePart slot kind ring x va n (v % 2 ^ (8 * n)) false false
    pure [r]
  else
    let m := n - va % n
    let vh := (va + m) % 2 ^ 32
    let x ← xlate slot kind va false (permWrite ring)
    let y ← xlate slot kind vh true (permWrite ring)
    if entDev x.entry || entDev y.entry then raise (if (← get).micro then 3 else 2) slot kind false false 0 va
    else
      modify (fun a => { a with splits := a.splits + 1 })
      let lo ← storePart slot kind ring x va m (v % 2 ^ (8 * m)) false false
      let hi ← storePart slot kind ring y vh (n - m) (v / 2 ^ (8 * m) % 2 ^ (8 * (n - m))) true false
      pure [lo, hi]

/-- The mark D of the page of a store (R382): set in the replica the translation came from, or a fresh walk. -/
def markDirty (r : StReq) : EM Unit := do
  let a ← get
  match tlbFind (a.s.core a.e).tlb a.act.tenant r.va with
  | none => throw (.stall (.walk a.act.tenant r.va))
  | some x =>
    if x.d then pure ()
    else if a.e < 96 then
      let m := markEntry (a.mrq 3) x.at_ x.entry 9 a.s
      if m.1 then set { a with s := tlbDirty a.e x m.2, base := tlbDirty a.e x (markEntry (a.mrq 3) x.at_ x.entry 9 a.base).2 }
      else
        set { a with base := tlbDrop a.e x a.base }
        throw (.stall (.walk a.act.tenant r.va))
    else
      let used := a.used
      let g ← ext ⟨.mark 9, x.at_, 8, a.act.ring, a.act.tenant, x.entry, false⟩
      let b ← get
      if g.val = some 1 then set { b with s := tlbDirty b.e x b.s, base := tlbDirty b.e x b.base, used := used }
      else
        set { b with base := tlbDrop b.e x b.base, used := used }
        throw (.stall (.walk b.act.tenant r.va))

def markAll : List StReq → EM Unit
  | [] => pure ()
  | r :: l => do
    markDirty r
    markAll l

/-- What a store beyond a copy's memory is to the comparator: a write, or the checkpoint that a write of CKPT is (R491, R493). -/
def Att.writeAcc (a : Att) (r : StReq) : List ExtAcc :=
  let w := fun (pa n v : Nat) => (⟨.write, pa, n, r.ring, a.act.tenant, v, r.dev⟩ : ExtAcc)
  if r.pa = Reg.PEDESTAL.CKPT ∧ r.size = 4 then [a.s.ckptAcc (a.e - 96) r.ring (some r.value)]
  else if r.pa = Reg.PEDESTAL.CKPT ∧ r.size = 8 then
    [a.s.ckptAcc (a.e - 96) r.ring (some (r.value % 2 ^ 32)), w (r.pa + 4) 4 (r.value / 2 ^ 32)]
  else [w r.pa r.size r.value]

/-- Issue the accesses of a copy's store one after the other. -/
def extAll (r : StReq) : List ExtAcc → EM Unit
  | [] => pure ()
  | x :: l => do
    let g ← ext x
    if g.bus then raise 3 r.slot r.kind false r.split 0 r.va
    else if g.val.isNone then raise 3 r.slot r.kind true r.split 0 r.va
    else extAll r l

/-- The accesses of a copy's stores beyond its memory. -/
def storeExt : List StReq → EM Unit
  | [] => pure ()
  | r :: l => do
    let a ← get
    if 96 ≤ a.e ∧ a.s.place a.e r.pa = .far then extAll r (a.writeAcc r) else pure ()
    storeExt l

/-- A store of the bundle reaches the buffer, memory, or the copy's own registers. -/
def storeGo (e tenant : Nat) (r : StReq) (s : State) : State :=
  let w := fun (p : Nat) => (⟨p, r.size, r.value, r.dev, tenant, r.ring⟩ : WbEnt)
  match s.place e r.pa with
  | .nowhere => s
  | .own p =>
    if e < 96 ∧ !r.direct then wbPush e (w p) s
    else (memPerform ⟨tenant, e + 1, 1⟩ p r.size (some r.value) s).2.2
  | .far =>
    if e < 96 then (if r.direct then storePerform e (w r.pa) s else wbPush e (w r.pa) s)
    else if pedOwn r.pa then pedOwnWrite (e - 96) r.pa r.size r.value s
    else s

/-- The stores of a bundle, after their marks (R296, R382). -/
def storeAll (l : List StReq) : EM Unit := do
  markAll l
  storeExt l
  modify (fun a => { a with s := l.foldl (fun s r => storeGo a.e a.act.tenant r s) a.s })

/-! ## The syllables -/

def addWr (l : List Wr) : EM Unit := modify (fun a => { a with writes := a.writes ++ l })
def addFl (slot : Nat) (f : FlagOut) : EM Unit := modify (fun a => { a with flags := a.flags ++ [(slot, f)] })
def jumpTo (v : Nat) : EM Unit := modify (fun a => { a with next := v % 2 ^ 32 / 4 * 4, taken := true })

/-- The address after the bundle. -/
def Att.after (a : Att) : Nat := (a.act.pc.toNat + 4 * a.b.length) % 2 ^ 32

/-- CALL and CALLR: the push (R326). -/
def callPush : EM Unit := do
  let a ← get
  let sp := (a.act.pv 15 + 2 ^ 32 - 4) % 2 ^ 32
  let l ← storeVa 0 2 a.act.ring sp 4 a.after
  modify (fun b => { b with push := b.push ++ l })
  addWr [wordP 15 sp]

/-- The stack pointer of the current ring moves and the activation goes on in ring `r`. -/
def ringTo (sp r : Nat) (a : Act) : Act := ({ a with p := lput a.p 15 (BitVec.ofNat 32 sp) }).toRing r

/-- GATE n (R361, R364). -/
def gateGo (n : Nat) : EM Unit := do
  let a ← get
  let va := ((a.act.gtab.toNat) + 8 * n) % 2 ^ 32
  let refuse : EM Unit := raise 5 0 3 false false 0 va
  if a.act.glen.toNat ≤ n then refuse
  else
    let w ← loadVa 0 3 1 va 8 (permRead 1) anyPlace
    let tgt := w % 2 ^ 32
    let w1 := w / 2 ^ 32
    let r := tgt % 4
    if !bitOf w1 31 ∨ w1 % 4 < a.act.ring ∨ a.act.ring < r ∨ (r = 0 ∧ a.act.sring ≠ 0) then refuse
    else
      let sp := ((a.act.spv r).toNat + 2 ^ 32 - 4) % 2 ^ 32
      let l ← storeVa 0 3 r sp 4 (a.after / 4 * 4 + a.act.ring)
      modify (fun b => { b with push := b.push ++ l, resv := some none, fin := fun x =>
        let y := x.toRing r
        { y with p := lput y.p 15 (BitVec.ofNat 32 sp) } })
      jumpTo tgt

/-- RETG (R362). -/
def retgGo : EM Unit := do
  let a ← get
  let sp := a.act.pv 15
  let w ← loadVa 0 1 a.act.ring sp 4 (permRead a.act.ring) anyPlace
  let r := w % 4
  if r < a.act.ring ∨ (r = 0 ∧ a.act.sring ≠ 0) then raise 5 0 0 false false 0 a.act.pc.toNat
  else
    modify (fun b => { b with resv := some none, fin := ringTo ((sp + 4) % 2 ^ 32) r })
    jumpTo w

/-- RETE (R350, R358). -/
def reteGo : EM Unit := do
  let a ← get
  let refuse : EM Unit := raise 5 0 0 false false 0 a.act.pc.toNat
  if a.act.tdepth = 0 then
    if a.act.ring = a.act.sring ∨ a.act.df then modify (fun b => { b with ends := true, taken := true, resv := some none }) else refuse
  else if 1 < a.act.ring then refuse
  else
    let sp := a.act.pv 15
    let w ← loadVa 0 1 a.act.ring sp 16 (permRead a.act.ring) anyPlace
    let r := bitsOf w 69 68
    if r < a.act.ring ∨ (r = 0 ∧ a.act.sring ≠ 0) then refuse
    else
      modify (fun b => { b with
        setFl := some (Nat.land (bitsOf w 63 32) flMask), resv := some none,
        fin := fun x => { ringTo ((sp + 16) % 2 ^ 32) r x with tdepth := x.tdepth - 1 } })
      jumpTo (w % 2 ^ 32)

/-- An atomic, from the read half to the store it leaves for the commit (R309). -/
def atomGo (k : AtomOp) (dd pb ds : Nat) : EM Unit := do
  let a ← get
  let va := a.act.pv pb
  if va % 4 ≠ 0 then raise 2 3 3 false false 0 va
  else
    let x ← xlate 3 3 va false (permBoth a.act.ring)
    let pa := leafPA x.entry va
    if entDev x.entry then raise 3 3 3 false false 0 va
    else
      let a ← get
      match a.s.place a.e pa with
      | .own _ =>
        set { a with s := wbDrain a.e a.s }
        let old ← loadPart 3 3 a.act.ring x va 4 false anyPlace
        let r ← storePart 3 3 a.act.ring x va 4 (atomNew k old (a.act.dv ds)) false true
        modify (fun b => { b with stores := b.stores ++ [r] })
        addWr [wordD dd old]
      | .far =>
        if isRegAddr pa then raise 3 3 3 false false 0 va
        else
          markAll (a.push ++ [⟨va, pa, 4, 0, false, a.act.ring, 3, 3, false, true⟩])
          let g ← ext ⟨.atomic k, pa, 4, a.act.ring, a.act.tenant, a.act.dv ds, false⟩
          if g.bus then raise 3 3 3 false false 0 va
          else match g.val with
            | none => raise 3 3 3 true false 0 va
            | some v => addWr [wordD dd v]
      | .nowhere => raise 3 3 3 false false 0 va

/-- The granule of a reservation (R310). -/
def granule (pa : Nat) : Nat := pa / 64 * 64

/-- LDRX and STCX (R309, R310). `store` is the value of an STCX. -/
def resvGo (t va : Nat) (store : Option Nat) : EM Unit := do
  let a ← get
  let kind := if store.isSome then 2 else 1
  if va % 4 ≠ 0 then raise 2 3 kind false false 0 va
  else
    let x ← xlate 3 kind va false (if store.isSome then permWrite a.act.ring else permRead a.act.ring)
    let pa := leafPA x.entry va
    if entDev x.entry ∨ isRegAddr pa then raise 3 3 kind false false 0 va
    else
      modify (fun b => { b with s := wbDrain b.e b.s })
      let a ← get
      let at_ := match a.s.place a.e pa with
        | .own p => p
        | _ => pa
      match store with
      | none =>
        let v ← loadPart 3 1 a.act.ring x va 4 false anyPlace
        modify (fun b => { b with resv := some (some (granule at_)) })
        addWr [wordD t v]
      | some v =>
        let holds := decide ((a.s.core a.e).resv = some (granule at_))
        let far := decide (a.s.place a.e pa = .far)
        if far ∧ 96 ≤ a.e then
          let r ← storePart 3 2 a.act.ring x va 4 v false true
          let g ← ext ⟨.stcx, pa, 4, a.act.ring, a.act.tenant, v, false⟩
          if g.bus then raise 3 3 2 false false 0 va
          else match g.val with
            | none => raise 3 3 2 true false 0 va
            | some o => do
              markAll (if o = 1 then [r] else [])
              addFl 3 ⟨1, o, false, false⟩
              modify (fun b => { b with resv := some none })
        else if holds then
          let r ← storePart 3 2 a.act.ring x va 4 v false true
          modify (fun b => { b with stores := b.stores ++ [r], resv := some none })
          addFl 3 ⟨1, 1, false, false⟩
        else
          modify (fun b => { b with resv := some none })
          addFl 3 ⟨1, 0, false, false⟩

/-- What a load writes (R306, R312). -/
def loadWr (k : LoadOp) (t v : Nat) : List Wr :=
  match k with
  | .ldb => [wordD t (ux 32 (sx 8 v))]
  | .ldbu => [wordD t v]
  | .ldh => [wordD t (ux 32 (sx 16 v))]
  | .ldhu => [wordD t v]
  | .ldw => [wordD t v]
  | .ldd => [wordD t (v % 2 ^ 32), wordD (t + 1) (v / 2 ^ 32)]
  | .ldp => [wordP t v]
  | .lda => [.a t (accOfImage v)]
/-- The value a store writes (R306, R312). -/
def Act.storeVal (a : Act) (k : StoreOp) (t : Nat) : Nat :=
  match k with
  | .stb => a.dv t % 256
  | .sth => a.dv t % 65536
  | .stw => a.dv t
  | .std => a.dv t + a.dv (t + 1) * 2 ^ 32
  | .stp => a.pv t
  | .sta => accImage (a.av t)

/-- The post-modify of a MEM syllable (R307, R308). -/
def Act.postWr (a : Act) (pb : Nat) (m : Int) : List Wr := if m = 0 then [] else [.p pb (a.postMod pb m)]

/-- The operand of a MACD or VMAC: from the X or the Y memory (R315, R329). -/
def macFetch (slot p : Nat) (sz : Bool) (y : Bool) : EM Nat := do
  let a ← get
  loadVa slot 1 a.act.ring (a.act.pv p) (if sz then 2 else 4) (permRead a.act.ring) (fun pa => if y then inY a.e pa else inX a.e pa)

/-- A MEM effective address from an offset. -/
def Act.offs (a : Act) (pb o : Nat) : Nat := ux 32 ((a.pv pb : Int) + sx 12 o)

/-- One syllable. -/
def doSyl (y : Syl) : EM Unit := do
  let a ← get
  let act := a.act
  let pc := act.pc.toNat
  let u := y.slot
  if !y.ok then raise 1 u 0 false false 0 pc
  else match act.alu y.op with
  | some r =>
    addWr r.1
    addFl u r.2
    match y.op with
    | .mac .. => modify (fun b => { b with macs := b.macs + 1 })
    | _ => pure ()
  | none =>
    match y.op with
    | .br c v => if condHolds c act.fl.toNat then jumpTo (ux 32 ((pc : Int) + 4 * sx 19 v)) else pure ()
    | .jmp ps => jumpTo (act.pv ps)
    | .call v => do
      callPush
      jumpTo (ux 32 ((pc : Int) + 4 * sx 23 v))
    | .callr ps => do
      callPush
      jumpTo (act.pv ps)
    | .ret => do
      let sp := act.pv 15
      let w ← loadVa 0 1 act.ring sp 4 (permRead act.ring) anyPlace
      addWr [wordP 15 ((sp + 4) % 2 ^ 32)]
      jumpTo w
    | .mfc dd n => if crReadRing n < act.ring then raise 5 0 0 false false 0 pc else addWr [.d dd (act.cr a.e a.s.now n)]
    | .mtc n ds =>
      if crWriteRing n < act.ring then raise 5 0 0 false false 0 pc
      else if n = 0 then modify (fun b => { b with setFl := some (Nat.land (act.dv ds) flMask) })
      else addWr [.cr n (BitVec.ofNat 32 (act.dv ds))]
    | .clrf m => modify (fun b => { b with setFl := some (act.fl.toNat - Nat.land act.fl.toNat m) })
    | .gate n => gateGo n
    | .retg => retgGo
    | .rete => reteGo
    | .wait => modify (fun b => { b with fin := fun x => { x with wait := true } })
    | .brk => if a.s.brkOn a.e act.tenant then modify (fun b => { b with brk := true }) else raise 1 0 0 false false 0 pc
    | .macd an px py mx my sz f neg clr => do
      let x ← macFetch u px sz false
      let v ← macFetch u py sz true
      let w : Int := if sz then 2 else 4
      let r := act.macStep an f sz neg clr x v
      addWr (r.1 ++ act.postWr px (sx 4 mx * w) ++ act.postWr py (sx 4 my * w))
      addFl u r.2
      modify (fun b => { b with macs := b.macs + 1 })
    | .long k dd da db =>
      let r := longOp k (act.dv da) (act.dv db)
      let ws := (List.range r.1.length).map (fun i => (dd + i, BitVec.ofNat 32 (lget 0 r.1 i)))
      modify (fun b => { b with longs := b.longs ++ [(ws, r.2.1, r.2.2)] })
    | .load k t pb ad => do
      let ea := act.ea pb ad
      let v ← loadVa 3 1 act.ring ea.1 k.size (permRead act.ring) anyPlace
      addWr (loadWr k t v ++ act.postWr pb ea.2)
    | .store k t pb ad => do
      let ea := act.ea pb ad
      let l ← storeVa 3 2 act.ring ea.1 k.size (act.storeVal k t)
      modify (fun b => { b with stores := b.stores ++ l })
      addWr (act.postWr pb ea.2)
    | .ldrx t pb o => resvGo t (act.offs pb o) none
    | .stcx t pb o => resvGo t (act.offs pb o) (some (act.dv t))
    | .atom k dd pb ds => atomGo k dd pb ds
    | .iflush _ pb o => do
      let va := act.offs pb o
      let x ← xlate 3 1 va false permAny
      modify (fun b => { b with flush := some (leafPA x.entry va / 64 * 64) })
    | .fence => modify (fun b => { b with drain := true })
    | _ => pure ()

def doSyls : List Syl → EM Unit
  | [] => pure ()
  | y :: r => do
    doSyl y
    doSyls r

/-- A bundle that R298 refuses as a whole. -/
def bundleOk : EM Unit := do
  let a ← get
  let ring := a.act.ring
  if !ascending a.b ∨ !distinct ((a.b.filter Syl.ok).flatMap (fun y => opDests ring y.op)) ∨ (a.micro ∧ 1 < a.b.length) then
    raise 1 ((a.b.map (·.slot)).headD 0) 0 false false 0 a.act.pc.toNat
  else pure ()

end Sys2Proof.Machine
end

