-- ==== Sys2Proof/Machine/EngExec.lean ====
section
/-! DEFINITION. Bundles of the engines and the copies: commit (R294-R296, R331, R490, R493), micro-routines (R322-R325, R353), fault entry (R355-R357), waiting and going on (R333, R338, R372). -/

namespace Sys2Proof.Machine

/-! ## Commit -/

/-- A GOVF trap follows the bundle (R314). -/
def Att.govf (a : Att) : Bool := bitOf a.act.fl.toNat 11 && a.flags.any (fun f => f.2.g) && !a.ends

/-- The activation after the bundle (R294, R295). -/
def Att.act' (a : Att) : Act :=
  let fl := a.setFl.getD (flApply a.act.fl.toNat (a.flags.map (·.2)))
  a.fin { a.writes.foldl Act.put a.act with fl := BitVec.ofNat 32 fl, pc := BitVec.ofNat 32 a.next, trapEntry := false }

/-- The bytes a bundle adds to SIG (R493, log 23). -/
def Att.sigBytes (a : Att) : List Nat :=
  a.writes.flatMap Wr.bytes
    ++ (if a.flags.any (fun f => f.2.mask != 0 || f.2.s || f.2.g) ∨ a.setFl.isSome then Wr.bytes (.cr 0 a.act'.fl) else [])
    ++ (a.stores ++ a.push).flatMap (fun r => if a.s.place a.e r.pa = .far then [] else leBytes r.pa 5 ++ leBytes r.value r.size)

/-- IC, SIG and the checkpoint of a copy's commit (R490, R493). -/
def pedCommit (k ring : Nat) (bytes : List Nat) (counts : Bool) (s : State) : State :=
  let c := s.copy k
  let ic := if counts then (c.ic + 1) % 2 ^ 48 else c.ic
  let s := s.setCopy k { c with ic := ic, sig := crc64 c.sig bytes }
  let n := (s.reg Reg.PEDESTAL.CKINT).toNat
  if counts ∧ n ≠ 0 ∧ ic % n = 0 then pedIssue k (s.ckptAcc k ring none) s else s

/-- The long-operation unit takes the bundle's operations; of two in one bundle the second waits for the first (R317, R319). -/
def longStart (e level : Nat) : List (List (Nat × Word) × Bool × Nat) → State → State
  | [], s => s
  | (ws, sat, lat) :: r, s =>
    let s := s.setCore e { s.core e with long := some ⟨s.now + lat * coreClk e, ws, sat, some level⟩ }
    if r.isEmpty then s else longStart e level r (longResult e s)

/-- What committing does beyond the stores. `done`: the bundle is complete, not stopped after an element (R322). -/
def Att.finish (a : Att) (done : Bool) : State :=
  let e := a.e
  let s := if a.drain ∨ a.flush.isSome then wbDrain e a.s else a.s
  let k := s.core e
  let act := { a.act' with acyc := if 96 ≤ e ∧ done then a.act.acyc + 1 else a.act.acyc }
  let lines := match a.flush with
    | some l => k.lines.filter (fun x => x.1 != l)
    | none => k.lines
  let lines := if e < 96 ∧ s.f (Reg.ENG.CFG e) 1 0 = 0 then [] else lines
  let s := s.setCore e { k with cur := some act, stall := none, resv := a.resv.getD k.resv, lines := lines }
  let s := longStart e act.level a.longs s
  let n := a.b.length
  let t := a.act.tenant
  let r := a.act.ring
  let s := if done then perfRetire e n t (perfCount e 0x03 n t r (perfCount e 0x02 1 t r s)) else s
  let s := perfCount e 0x04 a.macs t r (perfCount e 0x0E a.splits t r s)
  let s := if a.taken then perfCount e 0x0B 1 t r s else s
  let s := if 96 ≤ e then pedCommit (e - 96) r a.sigBytes done s else s
  let s :=
    if a.brk then coreHalt e .brk s
    else if (s.core e).stepReq then coreHalt e .step s
    else s
  if a.ends then coreNext e (if e < 96 then armJudge e act.slot act.rel s else s) else s

/-- The attempt commits: marks, stores, registers. -/
def commit (done : Bool) : EM Unit := do
  let a ← get
  storeAll (a.stores ++ a.push)
  modify (fun b => { b with s := b.finish done })

/-- A bundle from its fetch to its commit. -/
def bundleGo : EM Unit := do
  fetch
  bundleOk
  let a ← get
  doSyls a.b
  commit true

/-! ## Micro-routine elements (R322-R325) -/

/-- Bytes from `va`, read in pieces that do not cross a multiple of `m`; their values and physical addresses. -/
def loadPieces (va n m : Nat) : EM (List (Nat × Nat)) := do
  let a ← get
  let ring := a.act.ring
  let piece : Nat → Nat → EM (List (Nat × Nat)) := fun va n => do
    let x ← xlate 3 1 va false (permRead ring)
    let v ← loadPart 3 1 ring x va n false anyPlace
    pure ((List.range n).map (fun i => (v / 256 ^ i % 256, leafPA x.entry va + i)))
  let k := min n (m - va % m)
  let lo ← piece va k
  if k < n then
    let hi ← piece ((va + k) % 2 ^ 32) (n - k)
    pure (lo ++ hi)
  else pure lo

/-- The bytes of a BLKMOV element as the byte loop of R323 moves them: a source byte that the element itself has written is read back. -/
def moveBytes (dst : Nat) : List (Nat × Nat) → List Nat → List Nat
  | [], out => out
  | (v, p) :: r, out =>
    let i := out.length
    let w := if dst ≤ p ∧ p < dst + i then lget v out (p - dst) else v
    moveBytes dst r (out ++ [w])

/-- One element; true where nothing remains after it. -/
def elemGo (op : Op) : EM Bool := do
  let a ← get
  let act := a.act
  let stay : Nat → EM Unit := fun left => if left = 0 then pure () else modify (fun b => { b with next := act.pc.toNat })
  match op with
  | .vmac an px py dn sz f neg => do
    let n := act.dv dn
    if n = 0 then pure true
    else
      let x ← macFetch 1 px sz false
      let v ← macFetch 1 py sz true
      let w : Int := if sz then 2 else 4
      let r := act.macStep an f sz neg false x v
      addWr (r.1 ++ [.p px (act.postMod px w), .p py (act.postMod py w), wordD dn (n - 1)])
      addFl 1 r.2
      modify (fun b => { b with macs := b.macs + 1 })
      stay (n - 1)
      pure (n == 1)
  | .blkmov dn ps pd => do
    let n := act.dv dn
    if n = 0 then pure true
    else
      let d := act.pv pd
      let src := act.pv ps
      let m := min n (8 - d % 8)
      let l ← loadPieces src m 8
      let x ← xlate 3 2 d false (permWrite act.ring)
      let v := leNat (moveBytes (leafPA x.entry d) l [])
      let r ← storePart 3 2 act.ring x d m v false false
      modify (fun b => { b with stores := b.stores ++ [r] })
      addWr [wordD dn (n - m), wordP ps ((src + m) % 2 ^ 32), wordP pd ((d + m) % 2 ^ 32)]
      stay (n - m)
      pure (n == m)
  | .blkcrc dc ps dn => do
    let n := act.dv dn
    if n = 0 then pure true
    else
      let src := act.pv ps
      let m := min n 4
      let l ← loadPieces src m 4
      let c := l.foldl (fun c p => crcBits act.crcp.toNat 8 (Nat.xor c p.1)) (act.dv dc)
      addWr [wordD dc c, wordP ps ((src + m) % 2 ^ 32), wordD dn (n - m)]
      stay (n - m)
      pure (n == m)
  | _ => pure true

/-- One element as an attempt: fetch, element, commit. -/
def elemTry (y : Syl) : EM Bool := do
  fetch
  bundleOk
  let a ← get
  if !y.ok then raise 1 y.slot 0 false false 0 a.act.pc.toNat
  else
    let done ← elemGo y.op
    commit done
    pure done

/-! ## Fault entry (R355-R357) -/

/-- The push of the frame and the vector read; the handler's first bundle is next. -/
def entryGo (f : Flt) (ret : Word) : EM Unit := do
  let a ← get
  let act := a.act
  let hr := if act.ring = 0 then 0 else 1
  let sp := ((act.spv hr).toNat + 2 ^ 32 - 16) % 2 ^ 32
  let frame := ret.toNat + act.fl.toNat * 2 ^ 32 + act.finfo.toNat * 2 ^ 64 + act.faddr.toNat * 2 ^ 96
  let l ← storeVa f.slot 2 hr sp 16 frame
  let w ← loadVa f.slot 1 hr ((act.tvec.toNat + 4 * f.cause) % 2 ^ 32) 4 (permRead hr) anyPlace
  storeAll l
  modify (fun b => { b with s := b.s.setCore b.e { b.s.core b.e with
    stall := none, cur := some { ({ act with pc := BitVec.ofNat 32 (w / 4 * 4) }).toRing hr with p := lput (act.toRing hr).p 15 (BitVec.ofNat 32 sp) } } })

/-- An attempt about to begin. -/
def Att.start (e : Nat) (b : List Syl) (act : Act) (got : List Got) (wf : Option (Nat × Nat × Bool)) (s : State) : Att :=
  { s := s, base := s, e := e, b := b, act := act, got := got, used := [], walkFault := wf, writes := [], flags := [], setFl := none,
    stores := [], push := [], next := (act.pc.toNat + 4 * b.length) % 2 ^ 32, taken := false, fin := id, ends := false, brk := false,
    longs := [], macs := 0, splits := 0, resv := none, flush := none, drain := false }

/-- The core waits: what it waits for, and what the attempt has used. A copy issues the access (R491). -/
def stallSet (w : Work) (n : Need) (a : Att) : State :=
  let e := a.e
  let s := a.base.setCore e { a.base.core e with stall := some ⟨w, n, a.used, none⟩ }
  let s := match n with
    | .walk _ _ => perfCount e 0x09 1 a.act.tenant a.act.ring s
    | .fill _ => perfCount e 0x08 1 a.act.tenant a.act.ring s
    | .data _ => s
  if e < 96 then s
  else match n with
    | .walk t va => pedIssue (e - 96) ⟨.walk, va, 8, a.act.ring, t, 0, false⟩ s
    | .data x => pedIssue (e - 96) x s
    | .fill _ => s

/-- A third fault: the slot fails, and the Armature hears of it; a copy's is compared (R357, R493). -/
def thirdGo (e cause : Nat) (s : State) : State :=
  match (s.core e).cur with
  | none => s
  | some act =>
    let ic := (s.copy (e - 96)).ic
    let s := thirdFault e cause s
    if e < 96 then armFailed e act.slot cause s
    else pedIssue (e - 96) ⟨.third, 0, 0, act.ring, 0, ic, false⟩ s

/-- A double fault (R356). -/
def doubleGo (e : Nat) (f : Flt) (ret first : Word) (ring : Nat) (s : State) : State :=
  match (s.core e).cur with
  | none => s
  | some act =>
    let hr := if ring = 0 then 0 else 1
    let info := f.info act.ring
    let a1 := act.toRing hr
    let a2 : Act := { a1 with
      dfret := ret, dffl := act.fl, dfinfo := BitVec.ofNat 32 (info.toNat % 65536 * 65536 + first.toNat % 65536),
      df := true, tdepth := 0, faddr := BitVec.ofNat 32 f.addr, finfo := info, trapEntry := false,
      p := lput a1.p 15 (lget 0#32 act.sp0 hr), pc := s.ctxW e act.ctx 7 }
    let s := s.setCore e { s.core e with cur := some a2, stall := none, resv := none }
    let s := if 96 ≤ e then pedIssue (e - 96) (s.ckptAcc (e - 96) ring none) s else s
    if e < 96 then (s.cntAdd (Reg.ENG.DFCNT e) 31 0 1 false).setStatBit (Reg.ENG.page e) 2 else s

/-- The entry to a handler is made, or goes on; a fault of it is a double fault. -/
def entryTry (e : Nat) (f : Flt) (ret : Word) (got : List Got) (wf : Option (Nat × Nat × Bool)) (s : State) : State :=
  match (s.core e).cur with
  | none => s
  | some act =>
    match (entryGo f ret).run (Att.start e [] act got wf s) with
    | .ok _ a => a.s
    | .error (.stall n) a => stallSet (.fault f ret) n a
    | .error (.fault g) a => doubleGo e g ret act.finfo (if act.ring = 0 then 0 else 1) a.s

/-- A fault or trap of the current activation (R354-R357). -/
def faultGo (e : Nat) (f : Flt) (ret : Word) (s : State) : State :=
  match (s.core e).cur with
  | none => s
  | some act =>
    if act.df then thirdGo e f.cause s
    else if act.trapEntry ∨ act.tdepth = 15 then doubleGo e f ret act.finfo act.ring s
    else
      let a1 : Act := { act with tdepth := act.tdepth + 1, faddr := BitVec.ofNat 32 f.addr, finfo := f.info act.ring, trapEntry := true }
      let s := s.setCore e { s.core e with cur := some a1, stall := none, resv := none }
      let s := if e < 96 then s.cntAdd (Reg.ENG.FAULTCNT e) 31 0 1 false else s
      let s := perfCount e 0x0D 1 act.tenant act.ring s
      let s := if 96 ≤ e then pedIssue (e - 96) (s.ckptAcc (e - 96) act.ring none) s else s
      entryTry e f ret [] none s

/-- A bundle has faulted: nothing of it was written; under STEP the core halts again at the handler (R297, R634). -/
def bundleFault (e : Nat) (f : Flt) (a : Att) : State :=
  let k := a.s.core e
  faultGo e f a.act.pc (a.s.setCore e { k with stall := none, stepReq := false, halted := if k.stepReq then some .step else k.halted })

/-- A GOVF trap, after the commit (R314). -/
def govfGo (e slot : Nat) (pc ret : Word) (s : State) : State := faultGo e ⟨6, slot, 0, false, false, false, 0, pc.toNat⟩ ret s

/-- The slot of the first syllable that overflowed. -/
def Att.govfSlot (a : Att) : Nat := ((a.flags.find? (fun f => f.2.g)).map (·.1)).getD 1

/-- A bundle is attempted. -/
def bundleTry (e : Nat) (b : List Syl) (got : List Got) (wf : Option (Nat × Nat × Bool)) (s : State) : State :=
  match (s.core e).cur with
  | none => s
  | some act =>
    match bundleGo.run (Att.start e b act got wf s) with
    | .ok _ a => if a.govf then govfGo e a.govfSlot act.pc (BitVec.ofNat 32 a.next) a.s else a.s
    | .error (.stall n) a => stallSet (.bundle b 0) n a
    | .error (.fault f) a => bundleFault e f a

/-- The elements of a micro-routine, at most `n` of them. -/
def microGo (e : Nat) (y : Syl) : Nat → List Got → Option (Nat × Nat × Bool) → State → State
  | 0, _, _, s => s
  | n + 1, got, wf, s =>
    match (s.core e).cur with
    | none => s
    | some act =>
      match (elemTry y).run (Att.start e [y] act got wf s) with
      | .ok done a =>
        if a.govf then govfGo e y.slot act.pc act.pc a.s
        else if done then a.s else microGo e y n [] none a.s
      | .error (.stall x) a => stallSet (.bundle [y] (n + 1)) x a
      | .error (.fault f) a => bundleFault e f a

/-- Bundle `b` with `limit` elements is attempted with the results `got`. -/
def workTry (e : Nat) (b : List Syl) (limit : Nat) (got : List Got) (wf : Option (Nat × Nat × Bool)) (s : State) : State :=
  match b with
  | [y] => if opIsMicro y.op then microGo e y limit got wf s else bundleTry e b got wf s
  | _ => bundleTry e b got wf s

/-! ## Running -/

/-- The next bundle must wait for the long-operation unit (R317, R319). -/
def longWaits (l : LongRun) (level : Nat) (b : List Syl) : Bool :=
  b.any (fun y => opIsLong y.op) ||
    (l.level == some level && (b.any (fun y => (opDregs y.op).any (fun d => l.dst.any (fun p => p.1 == d))) ||
      (l.sat && b.any (fun y => opUsesS y.op))))

/-- Core `e` may run its next bundle: an activation that is not held by WAIT (R351), power and EN or a STEP (R365, R634), nothing waited for, and on a copy nothing that holds it (R492, R497, R498). -/
def State.bundleReady (s : State) (e : Nat) : Bool :=
  let k := s.core e
  (s.coreReady e || (k.stepReq && k.halted.isSome && k.rst.isNone)) && k.cur.isSome && k.stall.isNone && !s.waitHeld e &&
    (decide (e < 96) || (decide (e < 99) && !s.pedHolds (e - 96) && s.pedRoom (e - 96)))

/-- Elements that a micro-routine performs: as many as the row names on an engine, all on a copy (R490), one under STEP (R634). -/
def State.elements (s : State) (e limit : Nat) (b : List Syl) : Nat :=
  let k := s.core e
  let all := match k.cur, b with
    | some a, [y] => (match y.op with
      | .vmac _ _ _ dn _ _ _ => a.dv dn
      | .blkmov dn _ _ => a.dv dn
      | .blkcrc _ _ dn => a.dv dn
      | _ => 0) + 1
    | _, _ => 1
  if k.stepReq then 1 else if e < 96 then min limit all else all

/-- Core `e` runs bundle `b`: the row of each instruction. -/
def runBundle (e limit : Nat) (b : List Syl) (s : State) : State :=
  if !s.bundleReady e then s
  else
    let k := s.core e
    let s := s.setCore e { k with cur := k.cur.map (fun a => { a with wait := false }) }
    let s := match k.long, k.cur with
      | some l, some a => if longWaits l a.level b then longResult e s else s
      | _, _ => s
    workTry e b (s.elements e limit b) [] none s

/-- What waits goes on with one more result. -/
def resume (e : Nat) (st : Stall) (g : List Got) (s : State) : State :=
  let s := s.setCore e { s.core e with stall := none }
  match st.work with
  | .bundle b limit => workTry e b limit (st.got ++ g) st.walkFault s
  | .fault f ret => entryTry e f ret (st.got ++ g) st.walkFault s

/-- A copy's latest access has been performed: its result is delivered (R491, R492). -/
def pedDeliver (e : Nat) (st : Stall) (s : State) : State :=
  let k := e - 96
  if !s.inVote k ∨ !s.pedRoom k then s
  else
    match s.pedGot k with
    | none => s
    | some (x, g) =>
      pedPrune (match st.need with
        | .walk t va =>
          let s := walkEnd e t va g s
          resume e (((s.core e).stall).getD st) [] s
        | _ =>
          let g := if x.kind = .read ∧ pedOwn x.pa then ⟨some (s.pedOwnRead k x), false⟩ else g
          resume e st [g] s)

/-- LOAD_DATA_RETURN: the data of an access beyond local memory arrives and the bundle proceeds (R333). -/
def loadReturn (e : Nat) (s : State) : State :=
  match (s.core e).stall with
  | none => s
  | some st =>
    match st.need with
    | .data x =>
      if 96 ≤ e then pedDeliver e st s
      else if s.extHeld e x then memWait x.pa s
      else
        let r := extPerform e x s
        let wb := (r.2.core e).wbuf
        let g := if x.kind = .read ∧ !x.dev then { r.1 with val := r.1.val.map (fun v => wbMerge wb x.pa x.size v) } else r.1
        resume e st [g] r.2
    | _ => s

/-- STORE_PERFORM: the oldest buffered store is performed (R336); for a copy, the store it waits for. -/
def storeReturn (e : Nat) (s : State) : State :=
  if e < 96 then wbPerform e s
  else match (s.core e).stall with
    | none => s
    | some st => match st.need with
      | .data x => if x.kind = .write then pedDeliver e st s else s
      | _ => s

/-- TABLE_WALK (R372): the walk of a miss ends in a fill or in the fault its bundle takes. -/
def tableWalk (e : Nat) (s : State) : State :=
  match (s.core e).stall with
  | none => s
  | some st =>
    match st.need with
    | .walk t va =>
      if 96 ≤ e then pedDeliver e st s
      else
        let r := walkMark e t va s
        let s := walkEnd e t va r.1.got r.2
        resume e (((s.core e).stall).getD st) [] s
    | _ => s

/-- ICACHE_FILL (R338, R340): the line enters its set of four; one that cannot be read is refused. -/
def icacheFill (e : Nat) (s : State) : State :=
  match (s.core e).stall, (s.core e).cur with
  | some st, some act =>
    match st.need with
    | .fill line =>
      let rq := coreRq e act.tenant act.ring
      if isRegAddr line ∨ (memRefused rq line 64 false s).isSome then resume e { st with walkFault := some (line, 15, false) } [] s
      else if s.memHeld line then memWait line s
      else
        let r := memPerform ⟨act.tenant, e + 1, 0⟩ line 64 none (perfTransfer e line 64 false act.tenant s)
        let k := r.2.2.core e
        let z := r.2.2.f (Reg.ENG.CFG e) 1 0
        let sets := if z = 1 then 32 else if z = 2 then 64 else 128
        let mine := k.lines.filter (fun l => l.1 / 64 % sets == line / 64 % sets)
        let rest := k.lines.filter (fun l => l.1 / 64 % sets != line / 64 % sets)
        resume e st [] (r.2.2.setCore e { k with lines := (line, act.ctx, r.1 != .ok) :: mine.take 3 ++ rest })
    | _ => s
  | _, _ => s

end Sys2Proof.Machine
end

