-- ==== Sys2Proof/Machine/HostAcc.lean ====
section
/-! DEFINITION. Accesses that come from outside: the host SPI target (R611-R613), the test access port and the debug port (R627-R632), and the taggers (R624). -/

namespace Sys2Proof.Machine

/-! ## Host SPI -/

def State.setHspi (s : State) (h : HspiSt) : State := s.setHost { s.host with hspi := h }
/-- The requester that the host is (R481, R612). -/
def State.hspiRq (s : State) : Rq := ⟨s.f Reg.HSPI.CFG 8 0, s.f Reg.HSPI.CFG 17 16, 100, false⟩

/-- A host access is refused before it reaches anything (R612). -/
def State.hspiRefused (s : State) (a : Nat) : Bool :=
  if isRegAddr a then false
  else
    let base := s.f Reg.HSPI.WINBASE 29 0 * 1024
    !s.b Reg.HSPI.CFG 31 || decide (a < base) || decide (base + s.f Reg.HSPI.WINSIZE 23 0 * 1024 < a + 4)

/-- The target answers: it has power and the device runs; a selection ends DOZE (R583, R612). -/
def hspiOn (f : State → State) (s : State) : State :=
  let s := dozeWake 4 s
  if s.awake ∧ !s.off Reg.HSPI.page then f s else s

/-- WRITE: each word enters the write queue, or sets WOVF (R611, R612). -/
def hspiQueue : Nat → List Word → HspiSt → HspiSt
  | _, [], h => h
  | a, w :: r, h => hspiQueue ((a + 4) % 2 ^ 40) r (if h.wq.length < 16 then { h with wq := h.wq ++ [(a, w)] } else { h with wovf := true })
def hspiWriteCmd (a : Nat) (ws : List Word) (s : State) : State := s.setHspi (hspiQueue (a % 2 ^ 40) ws s.host.hspi)

/-- The oldest queued write is performed, or sets WERR (R612). -/
def hspiPerform (s : State) : State :=
  match s.host.hspi.wq with
  | [] => s
  | (a, w) :: r =>
    let h := { s.host.hspi with wq := r }
    if s.hspiRefused a then s.setHspi { h with werr := true }
    else if s.accessHeld s.hspiRq a (some w.toNat) then memWait a s
    else
      let x := busPerform s.hspiRq 1 a 4 (some w.toNat) (s.setHspi h)
      if x.1 = .ok ∨ x.1 = .held then x.2.2 else x.2.2.setHspi { x.2.2.host.hspi with werr := true }

/-- One word of a READ: wait byte, marker and data (R611). -/
def hspiReadWord (a : Nat) (s : State) : List Nat × State :=
  let no := [0xFF, 0xE0, 0, 0, 0, 0]
  if a % 4 ≠ 0 ∨ s.hspiRefused a then (no, s)
  else
    let x := busPerform s.hspiRq 1 a 4 none s
    (if x.1 = .ok then 0xFF :: 0x5A :: leBytes x.2.1 4 else no, x.2.2)
def hspiReadGo : Nat → Nat → List Nat → State → List Nat × State
  | 0, _, out, s => (out, s)
  | n + 1, a, out, s =>
    let r := hspiReadWord a s
    hspiReadGo n ((a + 4) % 2 ^ 40) (out ++ r.1) r.2
/-- READ of N words, 0 meaning 256; while one is held by its page the target sends wait bytes, so the transaction is not over (R611). -/
def hspiReadCmd (a n : Nat) (s : State) : State :=
  let k := if n % 256 = 0 then 256 else n % 256
  if (List.range k).any (fun i => !s.hspiRefused (a + 4 * i) && s.accessHeld s.hspiRq (a + 4 * i) none) then s
  else
    let r := hspiReadGo k (a % 2 ^ 40) [] s
    r.2.setHspi { r.2.host.hspi with miso := r.1 }

/-- STATUS: the byte, and the clear of WERR and WOVF (R611). -/
def State.hspiStatus (s : State) : Nat :=
  let h := s.host.hspi
  b2n (!h.wq.isEmpty) + 2 * b2n h.werr + 4 * b2n h.wovf + 8 * b2n s.plat.boot.wait + 16 * b2n (decide (h.boot.length ≤ 32)) +
    32 * b2n (s.reg Reg.HSPI.HOSTIRQ != 0#32)
def hspiStatusCmd (s : State) : State := s.setHspi { s.host.hspi with miso := [s.hspiStatus], werr := false, wovf := false }

/-- IRQACK (R611). -/
def hspiAck (m : Nat) (s : State) : State := s.setReg Reg.HSPI.HOSTIRQ (s.reg Reg.HSPI.HOSTIRQ &&& ~~~(BitVec.ofNat 32 m))

/-- BOOTLOAD: at most 32 words; a word that comes while BOOTWAIT is 0, or to a full queue, is dropped and sets WOVF (R611, R613). -/
def hspiBootWord (s : State) (w : Word) : State :=
  let h := s.host.hspi
  if s.plat.boot.wait ∧ h.boot.length < 64 then s.setHspi { h with boot := h.boot ++ [w], pushAt := some s.now } else s.setHspi { h with wovf := true }
def hspiBoot (ws : List Word) (s : State) : State := (ws.take 32).foldl hspiBootWord s

/-- BOOTDATA_POP: the boot ROM, on the copies, reads BOOTDATA (R613, R614). -/
def bootPop (s : State) : State := wordReadBy ⟨0, 0, 97, false⟩ (Reg.HSPI.page + 0x50) s

/-! ## Test access port -/

def State.setTap (s : State) (t : TapSt) : State := s.setHost { s.host with tap := t }
/-- The instruction register takes a code; another instruction than EXTEST drives nothing (R627). -/
def tapSelect (ir : Nat) (s : State) : State := s.setTap { s.host.tap with ir := ir, driving := false }
/-- EXTEST drives the chain while the voter is in SAFE HOLD, and acts as BYPASS otherwise (R628). -/
def tapExtest (s : State) : State :=
  if s.b Reg.PEDESTAL.STATUS 31 then s.setTap { s.host.tap with ir := 0, driving := true } else s.setTap { s.host.tap with ir := 0, driving := false }
/-- IDCODE (R627): the data register reads the identification. -/
def tapIdcode (s : State) : State := { tapSelect 1 s with data := 0x2C048001#64 }
/-- SAMPLE/PRELOAD: the chain takes what it captured or was loaded with (R627). -/
def tapSample (bits : List Bool) (s : State) : State := (tapSelect 2 s).setTap { s.host.tap with ir := 2, driving := false, chain := bits }
/-- BYPASS: one bit (R627). -/
def tapBypass (bit : Bool) (s : State) : State := s.setTap { s.host.tap with ir := 0xFF, driving := false, bypass := bit }
/-- TRST_N low: the port is reset and the session closes (R631). -/
def tapReset (s : State) : State := sessionClose (s.setTap { TapSt.idle with chain := s.host.tap.chain })

/-! ## Debug accesses -/

/-- The registers that every open session reaches (R632). -/
def dbgFree (a : Nat) : Bool :=
  let o := a - Reg.DEBUG.page
  decide (Reg.DEBUG.page ≤ a) && (o == 0x40 || (decide (0xC0 ≤ o) && decide (o < 0xDC)))
/-- STATUS, CHAL and REQ, which need no session (R630). -/
def dbgAlways (a : Nat) : Bool :=
  let o := a - Reg.DEBUG.page
  decide (Reg.DEBUG.page ≤ a) && (o == 0x44 || (decide (0x50 ≤ o) && decide (o < 0xC0)))

/-- A debug access begins, or is discarded while one runs (R629). -/
def dbgBegin (a : Nat) (v : Option Word) (s : State) : State :=
  let s := s.setTap { s.host.tap with ir := 0x20, driving := false }
  if s.host.tap.acc.isSome then dbgErr s else s.setTap { s.host.tap with acc := some ⟨a % 2 ^ 40, v⟩ }

/-- Where the access goes: the requester and the physical address, or a refusal (R630, R632). -/
def dbgTarget_ (a : Nat) (write : Bool) (s : State) : Option (Rq × Nat) × State :=
  let root : Rq := ⟨0, 0, 103, true⟩
  if dbgAlways a then (some (root, a), s)
  else if !s.dbgOpen then (none, s)
  else if dbgFree a then (some (root, a), s)
  else if s.dbgRoot then (if isRegAddr a ∨ s.dbgCap 28 then (some (root, a), s) else (none, s))
  else
    let t := s.dbgTenant
    let r := s.dbgRing
    let rq : Rq := ⟨t, r, 103, true⟩
    match walkMark 102 t (a % 2 ^ 32) s with
    | (.leaf x at_ _, s) =>
      let pa := leafPA x a
      let ok := (if write then leafWrites x r else leafReads x r) && (if isRegAddr pa then entDev x else s.dbgCap 28)
      if !ok then (none, s)
      else if write && !entD x then
        let m := markEntry ⟨t, 103, 3⟩ at_ x 9 s
        (if m.1 then some (rq, pa) else none, m.2)
      else (some (rq, pa), s)
    | (_, s) => (none, s)

/-- DBGACC_DONE: the access is performed; ERR tells of a refusal, and a refused read brings zeros (R629, R632). -/
def dbgDone (s : State) : State :=
  match s.host.tap.acc with
  | none => s
  | some x =>
    let put := fun (d : Option Nat) (s : State) =>
      s.setTap { s.host.tap with acc := none, data := match d with
        | some v => BitVec.ofNat 32 v
        | none => s.host.tap.data }
    let refuse := fun (s : State) => put (if x.value.isNone then some 0 else none) (dbgErr s)
    if x.addr % 4 ≠ 0 then refuse s
    else
      let w := x.value.map (·.toNat)
      match dbgTarget_ x.addr x.value.isSome s with
      | (none, s) => refuse s
      | (some (rq, a), s) =>
        if s.accessHeld rq a w then memWait a s
        else
          let r := busPerform rq 1 a 4 w s
          if r.1 = .ok ∨ r.1 = .held then put (if x.value.isNone then some r.2.1 else none) r.2.2 else refuse r.2.2

/-! ## Taggers (R624) -/

/-- TAG_CHOOSE: the next bundle of the unit's tenant is chosen, or skipped while a record is held. -/
def tagChoose (e : Nat) (s : State) : State :=
  match (s.core e).cur with
  | none => s
  | some a =>
    if !(decide (e < 96) && s.b (Reg.PERF.TAGCFG e) 31 && s.perfOwned e 9 a.tenant && s.coreReady e && !s.waitHeld e) ∨ (s.host.tags.lookup e).isSome then s
    else if s.b (Reg.PERF.TAGINFO e) 31 then s.cntAdd (Reg.PERF.TAGLOST e) 31 0 1 false
    else s.setHost { s.host with tags := (e, a.pc.toNat) :: s.host.tags }

/-- TAG_COMPLETE: the record of the chosen bundle. What the pipeline saw of it comes with the row. -/
def tagComplete (e outcome slots met target fd dh xw : Nat) (s : State) : State :=
  match s.host.tags.lookup e with
  | none => s
  | some pc =>
    if outcome = 0 ∨ 4 < outcome ∨ 5 < target then s
    else
      let s := s.setHost { s.host with tags := s.host.tags.filter (fun t => t.1 != e) }
      let s := s.setReg (Reg.PERF.TAGPC e) (BitVec.ofNat 32 pc)
      let s := s.setReg (Reg.PERF.TAGT1 e) (BitVec.ofNat 32 (satN 65535 fd * 65536 + satN 65535 dh))
      let s := s.setReg (Reg.PERF.TAGT2 e) (BitVec.ofNat 32 (satN 65535 xw))
      let s := s.hwLoadRC (Reg.PERF.TAGINFO e) 31 0 (2 ^ 31 + outcome * 2 ^ 28 + slots % 16 * 2 ^ 24 + met % 16 * 2 ^ 20 + target * 2 ^ 17)
      if s.b (Reg.PERF.TAGCFG e) 30 then s.raiseSw (s.f (Reg.PERF.TAGCFG e) 27 16) else s

end Sys2Proof.Machine
end

