-- ==== Sys2Proof/Machine/Occurrences.lean ====
section
/-! DEFINITION. What several blocks do together at one occurrence, as the commands need it. -/

namespace Sys2Proof.Machine

/-- SECOND_BOUNDARY; where time stepped, the line ports start again from the new time (R243, R246, R528). -/
def secondBoundary (s : State) : State :=
  let r := calSecond s
  if r.2 then lineStep r.1 else r.1

/-- CALIPER_BOUNDARY, which exists while no line cycle runs (R231). -/
def caliperBoundary (s : State) : State := if (List.range 4).any (fun p => s.lineFull p) then s else calQuarter s

/-- CYCLE_MISS; a formed system that lost its head begins again on that segment (R529, R565). -/
def cycleMissed (p : Nat) (s : State) : State :=
  let r := cycleMiss p s
  if r.1 then headLost p r.2 else r.2

/-- POLL_RECEIVE at an awake port, or at the keeper on port 0 (R548). -/
def pollHeard (p : Nat) (body : List Nat) (at_ : Nat) (s : State) : State :=
  if s.dozing then pollReceive p s else if p = 0 then keeperPoll body at_ s else s
/-- PRESENT_SEND likewise (R548). -/
def presentAnswer (p : Nat) (s : State) : State :=
  if s.dozing then presentSend p s else if p = 0 then keeperPresent s else s

/-- RESET_RECEIVE; a T already passed acts at once (R572, R573). -/
def resetHeard (p : Nat) (s : State) : State :=
  let r := resetReceive p s
  if r.1 then resetBegin 6 r.2 else r.2
/-- LINE_RESET (R572). -/
def lineReset (s : State) : State :=
  match s.resetEdge with
  | some e => resetBegin 6 (s.moveTo e)
  | none => s

/-- PIN_RESET: RESET_N is a core input and has no effect in OFF, WATCH and SHELF (R581, R592). -/
def pinReset (s : State) : State :=
  if s.dozing ∨ s.plat.power = .start then resetBegin 2 s else s

/-- WATCHOK_CHANGE (R135). -/
def watchOkChange (ok : Bool) (s : State) : State :=
  let s := s.setPlat { s.plat with watchOk := ok }
  if s.dozing then cmpWatchOk ok s else s

/-- X32_CRYSTAL_VALID (R579). -/
def x32Valid (s : State) : State :=
  if s.plat.power = .off then s
  else
    let s := s.setPlat { s.plat with x32 := true }
    if s.dozing then s.setF Reg.CLK.STATUS 26 26 1 else s

/-- A debug access of the port to a physical address that completes (R630, R632): the registers open to it without a session, to every session, or to one bound to T0 and ring 0. -/
def dbgWriteBy (a v : Nat) (s : State) : State :=
  if dbgAlways a || (s.dbgOpen && dbgFree a) || s.dbgRoot then wordWriteBy ⟨0, 0, 103, true⟩ a v s else dbgErr s

end Sys2Proof.Machine
end

