-- ==== Sys2Proof/WellFormed.lean ====
section
/-! DEFINITION. The commands that can be sent: operands that name something the device has and values of the width of what they are written to. -/

namespace Sys2Proof

open Machine

/-- A tenant of 9 bits, a ring, an agent of R481. -/
def Rq.ok (q : Rq) : Bool := q.tenant < 512 && q.ring < 4 && q.agent < 122
/-- A count of things. -/
def below (n k : Nat) : Bool := k < n
/-- A value of `n` bits. -/
def inBits (n v : Nat) : Bool := v < 2 ^ n
/-- A signed 12-bit code. -/
def code12 (v : Int) : Bool := -2048 ≤ v && v < 2048
/-- CH0-CH47. -/
def isChannel (c : Nat) : Bool := c < 48
/-- E0-E95. -/
def isEngine (e : Nat) : Bool := e < 96
/-- E0-E95, and PD0-PD2 as 96-98. -/
def isCore (e : Nat) : Bool := e < 99
/-- The Maquettes. -/
def isMaq (p : Nat) : Bool := p < 12
/-- The line ports. -/
def isPort (p : Nat) : Bool := p < 4
/-- The base address of a register page (R45, R46). -/
def isPage (base : Nat) : Bool := (pageAt base).isSome
/-- What else stands in the bundle of an instruction (R293). -/
def restOk (rest : List Syl) : Bool := rest.length < 4

/-- The command can be sent. -/
def Instr.wf : Instr → Bool
  | .registerWrite rq addr size value => rq.ok && isRegAddr addr && (size == 1 || size == 2 || size == 4 || size == 8) && inBits (8 * size) value
  | .rcRead rq addr => rq.ok && isRegAddr addr
  | .pageStatClear rq page bits => rq.ok && isPage page && inBits 32 bits
  | .irqSet rq page bits => rq.ok && isPage page && inBits 32 bits
  | .irqEnableWrite rq page value => rq.ok && isPage page && inBits 32 value
  | .commitNow rq page => rq.ok && isPage page
  | .commitArm rq page => rq.ok && isPage page
  | .commitDisarm rq page => rq.ok && isPage page
  | .softReset rq page => rq.ok && isPage page
  | .softResetDone page => isPage page
  | .setPwrpol rq page pol => rq.ok && isPage page && inBits 2 pol
  | .blockRelease page => isPage page
  | .changeOwner rq page t => rq.ok && isPage page && inBits 9 t
  | .ownerChangeDone page => isPage page
  | .evtRaise rq k bits => rq.ok && below 64 k && inBits 32 bits
  | .eventArrival => true
  | .modeWrite rq c value => rq.ok && isChannel c && inBits 32 value
  | .refEnable rq c _ => rq.ok && isChannel c
  | .refReady c => isChannel c
  | .seqSwtrig rq c u => rq.ok && isChannel c && below 4 u
  | .pendedTriggerAccept c u => isChannel c && below 4 u
  | .seqAbort rq c by_ => rq.ok && isChannel c && (match by_ with | .unit u => below 4 u | .seq => true | .adc => true)
  | .acquisitionOpen c => isChannel c
  | .conversionEnd c u rawA rawB => isChannel c && below 8 u && inBits 14 rawA && inBits 14 rawB
  | .fifoFlush rq c _ _ => rq.ok && isChannel c
  | .fifoPop rq c _ => rq.ok && isChannel c
  | .calZero rq c input cvs => rq.ok && isChannel c && inBits 3 input && inBits 2 cvs
  | .calSpan rq c input cvs => rq.ok && isChannel c && inBits 3 input && inBits 2 cvs
  | .calSkew rq c input cvs => rq.ok && isChannel c && inBits 3 input && inBits 2 cvs
  | .calAbort rq c => rq.ok && isChannel c
  | .calComplete c => isChannel c
  | .refCodeWrite rq c _ value => rq.ok && isChannel c && inBits 32 value
  | .driftEnable rq c => rq.ok && isChannel c
  | .comparatorCrossing c n _ => isChannel c && below 5 n
  | .cmpCfgWrite rq c n value => rq.ok && isChannel c && below 5 n && inBits 32 value
  | .settleEnd c n => isChannel c && below 5 n
  | .thresholdWrite rq c n value => rq.ok && isChannel c && below 5 n && inBits 32 value
  | .positionHold c sin cos => isChannel c && code12 sin && code12 cos
  | .positionUpdate c => isChannel c
  | .quadrantStep c k => isChannel c && below 4 k
  | .posLoad rq c rev => rq.ok && isChannel c && inBits 16 rev
  | .posMload rq c => rq.ok && isChannel c
  | .posEnable rq c => rq.ok && isChannel c
  | .posZmk c _ => isChannel c
  | .ssiSwtrig rq c => rq.ok && isChannel c
  | .ssiWord c _ _ => isChannel c
  | .ssiTimeout c => isChannel c
  | .ssiRecoveryEnd c => isChannel c
  | .ssiEnable rq c => rq.ok && isChannel c
  | .ssiDisable rq c => rq.ok && isChannel c
  | .pwmEnable rq c => rq.ok && isChannel c
  | .counterStart c => isChannel c
  | .pwmDisable rq c => rq.ok && isChannel c
  | .pwmValley c => isChannel c
  | .pwmPeak c => isChannel c
  | .triggerPointReached c k => isChannel c && below 2 k
  | .compareMatch c n => isChannel c && below 3 n
  | .deadTimeEnd c n => isChannel c && below 3 n
  | .blankEnd c n => isChannel c && below 3 n
  | .legPeriodStart c n => isChannel c && below 3 n
  | .onTimeEnd c n => isChannel c && below 3 n
  | .cmpShadowWrite rq c n value => rq.ok && isChannel c && below 3 n && inBits 32 value
  | .tripPinChange c k _ => isChannel c && below 2 k
  | .tripQualify c k => isChannel c && below 2 k
  | .softwareTrip rq c => rq.ok && isChannel c
  | .latchClear rq c bits => rq.ok && isChannel c && inBits 32 bits
  | .tripCfgWrite rq c value => rq.ok && isChannel c && inBits 32 value
  | .chiselResult c => isChannel c
  | .chiselDone c late => isChannel c && below 20 late
  | .chiselDisable rq c _ => rq.ok && isChannel c
  | .caliperHit n => below 4096 n
  | .entrySeat rq n ctl => rq.ok && below 4096 n && inBits 32 ctl && bitOf ctl 31
  | .tabownWrite rq b value => rq.ok && below 128 b && inBits 32 value
  | .secondBoundary => true
  | .timeRead rq => rq.ok
  | .timeApply rq => rq.ok
  | .timeCancel rq => rq.ok
  | .offsetSubmit rq => rq.ok
  | .holdover => true
  | .intakeDeliver p => isMaq p
  | .jobEnable rq p k => rq.ok && isMaq p && below 32 k
  | .jobStop rq p k => rq.ok && isMaq p && below 32 k
  | .jobReseed rq p k => rq.ok && isMaq p && below 32 k
  | .streamProcess p k => isMaq p && below 32 k
  | .blockWork p => isMaq p
  | .frameComplete p => isMaq p
  | .frrdWrite rq p k value => rq.ok && isMaq p && below 32 k && inBits 32 value
  | .maqDisable rq p => rq.ok && isMaq p
  | .loadUpdate p => isMaq p
  | .nop e rest => isCore e && (Op.nop).slotOk 0 && restOk rest
  | .add e slot dd da b rest => isCore e && (Op.int .add dd da b).slotOk slot && restOk rest
  | .adc e slot dd da b rest => isCore e && (Op.int .adc dd da b).slotOk slot && restOk rest
  | .sub e slot dd da b rest => isCore e && (Op.int .sub dd da b).slotOk slot && restOk rest
  | .sbc e slot dd da b rest => isCore e && (Op.int .sbc dd da b).slotOk slot && restOk rest
  | .and e slot dd da b rest => isCore e && (Op.int .and dd da b).slotOk slot && restOk rest
  | .or e slot dd da b rest => isCore e && (Op.int .or dd da b).slotOk slot && restOk rest
  | .xor e slot dd da b rest => isCore e && (Op.int .xor dd da b).slotOk slot && restOk rest
  | .andn e slot dd da b rest => isCore e && (Op.int .andn dd da b).slotOk slot && restOk rest
  | .shl e slot dd da b rest => isCore e && (Op.int .shl dd da b).slotOk slot && restOk rest
  | .shr e slot dd da b rest => isCore e && (Op.int .shr dd da b).slotOk slot && restOk rest
  | .sar e slot dd da b rest => isCore e && (Op.int .sar dd da b).slotOk slot && restOk rest
  | .ror e slot dd da b rest => isCore e && (Op.int .ror dd da b).slotOk slot && restOk rest
  | .min e slot dd da b rest => isCore e && (Op.int .min dd da b).slotOk slot && restOk rest
  | .max e slot dd da b rest => isCore e && (Op.int .max dd da b).slotOk slot && restOk rest
  | .cmp e slot da b rest => isCore e && (Op.int .cmp 0 da b).slotOk slot && restOk rest
  | .tst e slot da b rest => isCore e && (Op.int .tst 0 da b).slotOk slot && restOk rest
  | .adds e slot dd da db rest => isCore e && (Op.reg .adds dd da db).slotOk slot && restOk rest
  | .subs e slot dd da db rest => isCore e && (Op.reg .subs dd da db).slotOk slot && restOk rest
  | .abs e slot dd da rest => isCore e && (Op.reg .abs dd da 0).slotOk slot && restOk rest
  | .neg e slot dd da rest => isCore e && (Op.reg .neg dd da 0).slotOk slot && restOk rest
  | .clz e slot dd da rest => isCore e && (Op.reg .clz dd da 0).slotOk slot && restOk rest
  | .exts e slot func dd da rest => isCore e && (Op.exts func dd da).slotOk slot && restOk rest
  | .mull e dd da db rest => isCore e && (Op.reg .mull dd da db).slotOk 1 && restOk rest
  | .movi e slot dd imm18 rest => isCore e && (Op.movi dd imm18).slotOk slot && restOk rest
  | .movh e slot dd imm16 rest => isCore e && (Op.movh dd imm16).slotOk slot && restOk rest
  | .mov e slot dd da rest => isCore e && (Op.reg .mov dd da 0).slotOk slot && restOk rest
  | .padd e slot pd ps imm13 rest => isCore e && (Op.padd pd ps imm13).slotOk slot && restOk rest
  | .movdp e slot dd ps rest => isCore e && (Op.movdp dd ps).slotOk slot && restOk rest
  | .movpd e slot pd ds rest => isCore e && (Op.movpd pd ds).slotOk slot && restOk rest
  | .sel e slot cond dd da db rest => isCore e && (Op.sel cond dd da db).slotOk slot && restOk rest
  | .br e cond imm19 rest => isCore e && (Op.br cond imm19).slotOk 0 && restOk rest
  | .jmp e ps rest => isCore e && (Op.jmp ps).slotOk 0 && restOk rest
  | .call e imm23 rest => isCore e && (Op.call imm23).slotOk 0 && restOk rest
  | .callr e ps rest => isCore e && (Op.callr ps).slotOk 0 && restOk rest
  | .ret e rest => isCore e && (Op.ret).slotOk 0 && restOk rest
  | .mfc e dd cr rest => isCore e && (Op.mfc dd cr).slotOk 0 && restOk rest
  | .mtc e cr ds rest => isCore e && (Op.mtc cr ds).slotOk 0 && restOk rest
  | .clrf e mask rest => isCore e && (Op.clrf mask).slotOk 0 && restOk rest
  | .gate e n rest => isCore e && (Op.gate n).slotOk 0 && restOk rest
  | .retg e rest => isCore e && (Op.retg).slotOk 0 && restOk rest
  | .rete e rest => isCore e && (Op.rete).slotOk 0 && restOk rest
  | .wait e rest => isCore e && (Op.wait).slotOk 0 && restOk rest
  | .brk e rest => isCore e && (Op.brk).slotOk 0 && restOk rest
  | .mac e slot an da db f sz rest => isCore e && (Op.mac .mac an da db f sz).slotOk slot && restOk rest
  | .msu e slot an da db f sz rest => isCore e && (Op.mac .msu an da db f sz).slotOk slot && restOk rest
  | .mul e slot an da db f sz rest => isCore e && (Op.mac .mul an da db f sz).slotOk slot && restOk rest
  | .macd e slot an px py mx my sz f minus clr rest => isCore e && (Op.macd an px py mx my sz f minus clr).slotOk slot && restOk rest
  | .ext e slot dd an sh rnd rest => isCore e && (Op.ext dd an sh rnd).slotOk slot && restOk rest
  | .amov e slot an ds sh rest => isCore e && (Op.amov an ds sh).slotOk slot && restOk rest
  | .ash e slot an sh7 rest => isCore e && (Op.ash an sh7).slotOk slot && restOk rest
  | .aadd e slot an am rest => isCore e && (Op.aadd an am).slotOk slot && restOk rest
  | .fadd e slot dd da db rest => isCore e && (Op.fp .fadd dd da db).slotOk slot && restOk rest
  | .fsub e slot dd da db rest => isCore e && (Op.fp .fsub dd da db).slotOk slot && restOk rest
  | .fmul e slot dd da db rest => isCore e && (Op.fp .fmul dd da db).slotOk slot && restOk rest
  | .fma e slot dd da db rest => isCore e && (Op.fp .fma dd da db).slotOk slot && restOk rest
  | .fcmp e slot da db rest => isCore e && (Op.fcmp da db).slotOk slot && restOk rest
  | .fcvt e slot func dd da rest => isCore e && (Op.fcvt func dd da).slotOk slot && restOk rest
  | .divs e slot dd da db rest => isCore e && (Op.long .divs dd da db).slotOk slot && restOk rest
  | .divu e slot dd da db rest => isCore e && (Op.long .divu dd da db).slotOk slot && restOk rest
  | .sqrt e slot dd da rest => isCore e && (Op.long .sqrt dd da 0).slotOk slot && restOk rest
  | .sincos e slot dd da rest => isCore e && (Op.long .sincos dd da 0).slotOk slot && restOk rest
  | .atan2 e slot dd da db rest => isCore e && (Op.long .atan2 dd da db).slotOk slot && restOk rest
  | .fdiv e slot dd da db rest => isCore e && (Op.long .fdiv dd da db).slotOk slot && restOk rest
  | .longResult e => isCore e
  | .vmac e an px py dn sz f minus _ rest => isCore e && (Op.vmac an px py dn sz f minus).slotOk 1 && restOk rest
  | .ldb e t pb a rest => isCore e && (Op.load .ldb t pb a).slotOk 3 && restOk rest
  | .ldbu e t pb a rest => isCore e && (Op.load .ldbu t pb a).slotOk 3 && restOk rest
  | .ldh e t pb a rest => isCore e && (Op.load .ldh t pb a).slotOk 3 && restOk rest
  | .ldhu e t pb a rest => isCore e && (Op.load .ldhu t pb a).slotOk 3 && restOk rest
  | .ldw e t pb a rest => isCore e && (Op.load .ldw t pb a).slotOk 3 && restOk rest
  | .ldd e t pb a rest => isCore e && (Op.load .ldd t pb a).slotOk 3 && restOk rest
  | .ldp e t pb a rest => isCore e && (Op.load .ldp t pb a).slotOk 3 && restOk rest
  | .lda e t pb a rest => isCore e && (Op.load .lda t pb a).slotOk 3 && restOk rest
  | .stb e t pb a rest => isCore e && (Op.store .stb t pb a).slotOk 3 && restOk rest
  | .sth e t pb a rest => isCore e && (Op.store .sth t pb a).slotOk 3 && restOk rest
  | .stw e t pb a rest => isCore e && (Op.store .stw t pb a).slotOk 3 && restOk rest
  | .std e t pb a rest => isCore e && (Op.store .std t pb a).slotOk 3 && restOk rest
  | .stp e t pb a rest => isCore e && (Op.store .stp t pb a).slotOk 3 && restOk rest
  | .sta e t pb a rest => isCore e && (Op.store .sta t pb a).slotOk 3 && restOk rest
  | .ldrx e t pb ofs rest => isCore e && (Op.ldrx t pb ofs).slotOk 3 && restOk rest
  | .stcx e t pb ofs rest => isCore e && (Op.stcx t pb ofs).slotOk 3 && restOk rest
  | .aaddm e dd pb ds rest => isCore e && (Op.atom .aaddm dd pb ds).slotOk 3 && restOk rest
  | .aorm e dd pb ds rest => isCore e && (Op.atom .aorm dd pb ds).slotOk 3 && restOk rest
  | .aswap e dd pb ds rest => isCore e && (Op.atom .aswap dd pb ds).slotOk 3 && restOk rest
  | .blkmov e dn ps pd _ rest => isCore e && (Op.blkmov dn ps pd).slotOk 3 && restOk rest
  | .blkcrc e dc ps dn _ rest => isCore e && (Op.blkcrc dc ps dn).slotOk 3 && restOk rest
  | .iflush e t pb ofs rest => isCore e && (Op.iflush t pb ofs).slotOk 3 && restOk rest
  | .fence e rest => isCore e && (Op.fence).slotOk 3 && restOk rest
  | .loadDataReturn e => isCore e
  | .storePerform e => isCore e
  | .icacheFill e => isCore e
  | .tableWalk e => isCore e
  | .engineResetDone e => isCore e
  | .eventEntry e => isCore e
  | .contextWrite rq e x value => rq.ok && isEngine e && below 8 x && inBits 32 value
  | .invalidateAddress rq t => rq.ok && inBits 9 t
  | .invalidateTenant rq t => rq.ok && inBits 9 t
  | .invalidateAll rq => rq.ok
  | .invalidateDone => true
  | .rootWrite rq t value => rq.ok && inBits 9 t && inBits 32 value
  | .eccLogPop rq => rq.ok
  | .scrubBurst => true
  | .sweepStart => true
  | .sweepEnd => true
  | .dramScrubLine => true
  | .sramFill bad => bad.all (fun w => inBits 40 w.1 && inBits 8 w.2)
  | .fillDone bootmode => inBits 2 bootmode
  | .dramEnable rq => rq.ok
  | .trainingDone _ => true
  | .dramFillRegion => true
  | .raspClear rq => rq.ok
  | .clearDone => true
  | .armSubmit => true
  | .armWithdraw => true
  | .armQuery => true
  | .armRestart => true
  | .armCtxset => true
  | .armUnknownOp => true
  | .armCommandDone => true
  | .engineRetire rq k value => rq.ok && below 4 k && inBits 32 value
  | .slowDetect k => below 352 k
  | .migrationStart e => isEngine e
  | .migrationDone e => isEngine e
  | .reportPop rq => rq.ok
  | .tenantRemove rq t => rq.ok && inBits 9 t
  | .tenantScan rq t => rq.ok && inBits 9 t
  | .scanDone => true
  | .dwEnd rq => rq.ok
  | .mboxStage rq m value => rq.ok && below 256 m && inBits 32 value
  | .mboxPush rq m value => rq.ok && below 256 m && inBits 32 value
  | .mboxPop rq m _ => rq.ok && below 256 m
  | .mboxConfig rq m value => rq.ok && below 256 m && inBits 32 value
  | .doorbellRing rq d => rq.ok && below 1024 d
  | .lockAcquire rq k => rq.ok && below 64 k
  | .lockRelease rq k value => rq.ok && below 64 k && inBits 32 value
  | .lockForce k => below 64 k
  | .lockConfig rq k value => rq.ok && below 64 k && inBits 32 value
  | .externalAccessVote => true
  | .checkpoint => true
  | .lagTimeout => true
  | .checkpointTimeout => true
  | .exchangeBatch => true
  | .batchApply k => below 3 k
  | .psreqWrite k which value => below 3 k && below 2 which && inBits 32 value
  | .safeToggle => true
  | .resyncStart rq copy => rq.ok && inBits 2 copy
  | .resyncCopy => true
  | .resyncFreeze => true
  | .resyncCheck => true
  | .cycleStart p => isPort p
  | .cycleMiss p => isPort p
  | .frameReceive p _ body _ _ => isPort p && body.all (inBits 8)
  | .cycleReceive p => isPort p
  | .isoReceive p => isPort p
  | .msgReceive p => isPort p
  | .ackReceive p => isPort p
  | .dlyreqReceive p => isPort p
  | .dlyrspReceive p => isPort p
  | .pollReceive p body _ => isPort p && body.all (inBits 8)
  | .presentReceive p => isPort p
  | .wakeFrame body => body.all (inBits 8)
  | .slotReadStart p k => isPort p && below 8 k
  | .slotLaunch p k => isPort p && below 8 k
  | .contentionSend p _ => isPort p
  | .ackTimeout p => isPort p
  | .ackSend p => isPort p
  | .dlyrspSend p => isPort p
  | .dlyreqDue p => isPort p
  | .presentSend p => isPort p
  | .keyLoad rq ix => rq.ok && below 64 ix
  | .keyErase rq ix => rq.ok && below 64 ix
  | .keyTxuse rq ix => rq.ok && below 64 ix
  | .form rq => rq.ok
  | .formAbort rq => rq.ok
  | .keychkRerun rq => rq.ok
  | .claim p _ => isPort p
  | .claimReceive p => isPort p
  | .headConfirm p => isPort p
  | .turn p => isPort p
  | .turnAnswer p => isPort p
  | .joinReceive p => isPort p
  | .regreq p => isPort p
  | .registerReceive p => isPort p
  | .rootReceive p => isPort p
  | .keychkReceive p => isPort p
  | .keyresReceive p => isPort p
  | .formedReceive p => isPort p
  | .rootRepeat => true
  | .barrierArrive rq value => rq.ok && inBits 32 value
  | .arriveReceive p => isPort p
  | .releaseReceive p => isPort p
  | .barrierRelease => true
  | .snapReceive p => isPort p
  | .snapshotCapture => true
  | .resetReceive p => isPort p
  | .lineReset => true
  | .powerOn _ => true
  | .coreEnable => true
  | .ioEnable _ => true
  | .railsGood _ => true
  | .oscValid _ => true
  | .pllLock _ => true
  | .fuseReadDone => true
  | .bootImageLoad bytes => bytes.all (inBits 8)
  | .imageVerify => true
  | .bootSourceTimeout => true
  | .pinReset => true
  | .supplyWarning rail => below 5 rail
  | .brownout rail => below 4 rail
  | .clockLoss => true
  | .clockRecover => true
  | .throttleStart k t => below 13 k && inBits 16 t
  | .throttleEnd k t => below 13 k && inBits 16 t
  | .overtemp k t => below 13 k && inBits 16 t
  | .powerCycleRestart => true
  | .systemSoftReset rq => rq.ok
  | .doze rq => rq.ok
  | .dozeEntry => true
  | .dozeWake src => below 5 src
  | .watch rq => rq.ok
  | .shelf rq => rq.ok
  | .powerDownStep => true
  | .wakePin n => below 4 n
  | .wakeTimer => true
  | .wakeShock c _ => isChannel c
  | .enginePowerGate e => isEngine e
  | .enginePowerUp e => isEngine e
  | .fuseProgram rq word bit => rq.ok && inBits 5 word && inBits 5 bit
  | .fuseProgramDone => true
  | .txkick rq n => rq.ok && below 2 n
  | .ethTxDone n _ _ => below 2 n
  | .ethRxFrame n bytes _ _ _ => below 2 n && bytes.all (inBits 8)
  | .mdioTransfer rq _ phy reg data => rq.ok && inBits 5 phy && inBits 5 reg && inBits 16 data
  | .mdioDone data => inBits 16 data
  | .hspiWrite addr _ => inBits 40 addr
  | .hspiRead addr n => inBits 40 addr && inBits 8 n
  | .hspiStatus => true
  | .hspiIrqack mask => inBits 32 mask
  | .hspiBootload _ => true
  | .hspiWritePerform => true
  | .bootdataPop => true
  | .qspiTransfer rq value => rq.ok && inBits 30 value
  | .qspiDone bytes => bytes.all (inBits 8)
  | .gpioSet rq pins => rq.ok && inBits 32 pins
  | .gpioClr rq pins => rq.ok && inBits 32 pins
  | .gpioEdge pins => inBits 32 pins
  | .perfOwnWrite rq e j value => rq.ok && isEngine e && below 11 j && inBits 32 value
  | .tagChoose e => isEngine e
  | .tagComplete e outcome slots met target _ _ _ => isEngine e && inBits 3 outcome && inBits 4 slots && inBits 4 met && inBits 3 target
  | .bwWindowEnd e => isEngine e
  | .tapExtest => true
  | .tapIdcode => true
  | .tapSamplePreload _ => true
  | .tapBypass _ => true
  | .tapReset => true
  | .dbgRead addr => inBits 40 addr
  | .dbgWrite addr _ => inBits 40 addr
  | .dbgaccDone => true
  | .debugRequest value => inBits 32 value
  | .sessionOpen rq t ring cap => rq.ok && inBits 9 t && inBits 2 ring && inBits 4 cap
  | .sessionClose rq => rq.ok
  | .halt t => inBits 7 t
  | .resume t => inBits 7 t
  | .step t => inBits 7 t
  | .debugReset => true
  | .syncOutputFall c n _ => isChannel c && below 5 n
  | .tripBlankLimit c src => isChannel c && below 13 src
  | .watchokChange _ => true
  | .supplyWarningEnd rail => below 5 rail
  | .lossOfVaon => true
  | .resetRelease => true
  | .x32CrystalValid => true
  | .pedestalClearDone => true
  | .dlyrspTimeout p => isPort p
  | .caliperBoundary => true

end Sys2Proof
end

