-- ==== Sys2Proof/Machine/RowsCaliper.lean ====
section
/-! DEFINITION. The commands of the Caliper (chapter 08). -/

namespace Sys2Proof.Machine

/-- CALIPER_HIT (R236): A source update passes an enabled entry's target, advancing or disabling it and raising its action. -/
def execCaliperHit (n : Nat) (s : State) : Host.Outcome State Fault Refusal :=
  if below 4096 n then .next (onDoze (calHit n) s) else .refused .noSuchInstance
/-- ENTRY_SEAT (R238): A CTL write that sets EN seats the entry at the current source value after the checks of R235. -/
def execEntrySeat (rq : Rq) (n ctl : Nat) (s : State) : Host.Outcome State Fault Refusal :=
  if rq.ok && below 4096 n && inBits 32 ctl && bitOf ctl 31 then .next (onRun (wordWriteBy rq (entCtl n) ctl) s) else .refused .noSuchInstance
/-- TABOWN_WRITE (R234): A write that changes TABOWN[b] returns all 32 entries of the block to reset values. -/
def execTabownWrite (rq : Rq) (b value : Nat) (s : State) : Host.Outcome State Fault Refusal :=
  if rq.ok && below 128 b && inBits 32 value then .next (onRun (wordWriteBy rq (Reg.CALIPER2.TABOWN b) value) s) else .refused .noSuchInstance
/-- SECOND_BOUNDARY (R243): TIME_NS reaches 10⁹, TIME_SEC increments, SEC is set and any staged time is applied. -/
def execSecondBoundary (s : State) : Host.Outcome State Fault Refusal :=
  .next (onDoze secondBoundary s)
/-- TIME_READ (R244): A read of TIME_NS returns nanoseconds and latches seconds into the requester's copy. -/
def execTimeRead (rq : Rq) (s : State) : Host.Outcome State Fault Refusal :=
  if rq.ok then .next (onRun (wordReadBy rq (Reg.CALIPER0.TIME_NS)) s) else .refused .noSuchInstance
/-- TIME_APPLY (R245): SETCTL.APPLY arms the staged time for the next second boundary. -/
def execTimeApply (rq : Rq) (s : State) : Host.Outcome State Fault Refusal :=
  if rq.ok then .next (onRun (fieldWriteBy rq (Reg.CALIPER0.SETCTL) 0 0 1) s) else .refused .noSuchInstance
/-- TIME_CANCEL (R245): SETCTL.CANCEL clears a pending staged time. -/
def execTimeCancel (rq : Rq) (s : State) : Host.Outcome State Fault Refusal :=
  if rq.ok then .next (onRun (fieldWriteBy rq (Reg.CALIPER0.SETCTL) 1 1 1) s) else .refused .noSuchInstance
/-- OFFSET_SUBMIT (R247): SETCTL.OFSGO submits OFSIN as a time offset to the servo. -/
def execOffsetSubmit (rq : Rq) (s : State) : Host.Outcome State Fault Refusal :=
  if rq.ok then .next (onRun (fieldWriteBy rq (Reg.CALIPER0.SETCTL) 2 2 1) s) else .refused .noSuchInstance
/-- HOLDOVER (R248): No offset for HOLDT µs under line or software discipline sets HOLD. -/
def execHoldover (s : State) : Host.Outcome State Fault Refusal :=
  .next (onDoze timeHoldover s)
/-- CALIPER_BOUNDARY (R231): While no line cycle runs, TIME_NS reaching a multiple of 250,000 is the CALIPER[1] boundary and transfers its shadow fields. -/
def execCaliperBoundary (s : State) : Host.Outcome State Fault Refusal :=
  .next (onDoze caliperBoundary s)

end Sys2Proof.Machine
end

