-- ==== Sys2Proof/Machine/RowsConverters.lean ====
section
/-! DEFINITION. The commands of the converters (chapter 03). -/

namespace Sys2Proof.Machine

/-- REF_ENABLE (R94): A write to ADC[c].REF.EN starts or stops the reference buffer and restarts its warm-up count. -/
def execRefEnable (rq : Rq) (c : Nat) (on : Bool) (s : State) : Host.Outcome State Fault Refusal :=
  if rq.ok && isChannel c then .next (onRun (fieldWriteBy rq (Reg.ADC.REF c) 0 0 (b2n on)) s) else .refused .noSuchInstance
/-- REF_READY (R94): At the 40,000th ACLK edge after REF.EN is set, READY and REFRDY are set and REF_READY is raised. -/
def execRefReady (c : Nat) (s : State) : Host.Outcome State Fault Refusal :=
  if isChannel c then .next (onRun (refReadyAt c) s) else .refused .noSuchInstance
/-- SEQ_SWTRIG (R82): A write of 1 to SEQCTL[s].SWTRIG triggers sequencer s. -/
def execSeqSwtrig (rq : Rq) (c u : Nat) (s : State) : Host.Outcome State Fault Refusal :=
  if rq.ok && isChannel c && below 4 u then .next (onRun (fieldWriteBy rq (Reg.SEQ.SEQCTL c u) 12 12 1) s) else .refused .noSuchInstance
/-- PENDED_TRIGGER_ACCEPT (R85): At the edge after a run writes its last results, a pended trigger is accepted and PEND clears. -/
def execPendedTriggerAccept (c u : Nat) (s : State) : Host.Outcome State Fault Refusal :=
  if isChannel c && below 4 u then .next (onRun (seqPendedAccept c u) s) else .refused .noSuchInstance
/-- SEQ_ABORT (R86): Clearing a sequencer, SEQ or ADC enable while a sequence runs aborts the run and clears PEND. -/
def execSeqAbort (rq : Rq) (c : Nat) (by_ : AbortBy) (s : State) : Host.Outcome State Fault Refusal :=
  if rq.ok && isChannel c && (match by_ with | .unit u => below 4 u | .seq => true | .adc => true) then .next (onRun (match by_ with | .unit u => fieldWriteBy rq (Reg.SEQ.SEQCTL c u) 0 0 0 | .seq => fieldWriteBy rq (Reg.SEQ.page c + 8) 0 0 0 | .adc => fieldWriteBy rq (Reg.ADC.page c + 8) 0 0 0) s) else .refused .noSuchInstance
/-- ACQUISITION_OPEN (R88): At an ACLK edge the highest-ranked waiting step whose converters are free opens acquisition, preempting lower-ranked steps. -/
def execAcquisitionOpen (c : Nat) (s : State) : Host.Outcome State Fault Refusal :=
  if isChannel c then .next (onRun (acqOpen c) s) else .refused .noSuchInstance
/-- CONVERSION_END (R75): A conversion ends 20 ACLK after the sampling instant and its formatted result is written to its destinations. -/
def execConversionEnd (c u rawA rawB : Nat) (s : State) : Host.Outcome State Fault Refusal :=
  if isChannel c && below 8 u && inBits 14 rawA && inBits 14 rawB then .next (onRun (convEnd c u rawA rawB) s) else .refused .noSuchInstance
/-- FIFO_FLUSH (R103): A write of 1 to a FLUSH bit empties its result FIFO. -/
def execFifoFlush (rq : Rq) (c : Nat) (a b : Bool) (s : State) : Host.Outcome State Fault Refusal :=
  if rq.ok && isChannel c then .next (onRun (wordWriteBy rq (Reg.ADCFIFO.FLUSH c) (b2n a + 2 * b2n b)) s) else .refused .noSuchInstance
/-- FIFO_POP (R104): A read of ADATA_HI or BDATA_HI returns the head entry's stamp and pops the FIFO. -/
def execFifoPop (rq : Rq) (c : Nat) (b : Bool) (s : State) : Host.Outcome State Fault Refusal :=
  if rq.ok && isChannel c then .next (onRun (wordReadBy rq (if b then Reg.ADCFIFO.BDATA_HI c else Reg.ADCFIFO.ADATA_HI c)) s) else .refused .noSuchInstance
/-- CAL_ZERO (R107): CALCTL.ZERO takes 256 conversions of the input on each selected converter and keeps their mean. -/
def execCalZero (rq : Rq) (c input cvs : Nat) (s : State) : Host.Outcome State Fault Refusal :=
  if rq.ok && isChannel c && inBits 3 input && inBits 2 cvs then .next (onRun (wordWriteBy rq (Reg.ADCCAL.CALCTL c) (2 ^ 16 + cvs * 2 ^ 8 + input)) s) else .refused .noSuchInstance
/-- CAL_SPAN (R108): CALCTL.SPAN measures the span point and the internal levels and computes GAIN, OFS, LO0 and HI0. -/
def execCalSpan (rq : Rq) (c input cvs : Nat) (s : State) : Host.Outcome State Fault Refusal :=
  if rq.ok && isChannel c && inBits 3 input && inBits 2 cvs then .next (onRun (wordWriteBy rq (Reg.ADCCAL.CALCTL c) (2 ^ 17 + cvs * 2 ^ 8 + input)) s) else .refused .noSuchInstance
/-- CAL_SKEW (R110): CALCTL.SKEW runs a 4,096-sample interleaved burst and computes SKEWC. -/
def execCalSkew (rq : Rq) (c input cvs : Nat) (s : State) : Host.Outcome State Fault Refusal :=
  if rq.ok && isChannel c && inBits 3 input && inBits 2 cvs then .next (onRun (wordWriteBy rq (Reg.ADCCAL.CALCTL c) (2 ^ 18 + cvs * 2 ^ 8 + input)) s) else .refused .noSuchInstance
/-- CAL_ABORT (R106): CALCTL.ABORT aborts the running calibration command with code 0x19. -/
def execCalAbort (rq : Rq) (c : Nat) (s : State) : Host.Outcome State Fault Refusal :=
  if rq.ok && isChannel c then .next (onRun (fieldWriteBy rq (Reg.ADCCAL.CALCTL c) 19 19 1) s) else .refused .noSuchInstance
/-- CAL_COMPLETE (R107): A calibration command ends by setting CALDONE or CALFAIL and clearing BUSY. -/
def execCalComplete (c : Nat) (s : State) : Host.Outcome State Fault Refusal :=
  if isChannel c then .next (onRun (calComplete c) s) else .refused .noSuchInstance
/-- REF_CODE_WRITE (R113): A write to REFA or REFB is refused when HI0 is not above LO0, otherwise it reseeds drift tracking. -/
def execRefCodeWrite (rq : Rq) (c : Nat) (b : Bool) (value : Nat) (s : State) : Host.Outcome State Fault Refusal :=
  if rq.ok && isChannel c && inBits 32 value then .next (onRun (wordWriteBy rq (if b then Reg.ADCCAL.REFB c else Reg.ADCCAL.REFA c) value) s) else .refused .noSuchInstance
/-- DRIFT_ENABLE (R112): Setting DRIFTCTL.EN seeds L and H from LO0 and HI0 and starts drift tracking. -/
def execDriftEnable (rq : Rq) (c : Nat) (s : State) : Host.Outcome State Fault Refusal :=
  if rq.ok && isChannel c then .next (onRun (fieldWriteBy rq (Reg.ADCCAL.DRIFTCTL c) 0 0 1) s) else .refused .noSuchInstance

end Sys2Proof.Machine
end

