-- ==== Sys2Proof/Machine/RowsDebug.lean ====
section
/-! DEFINITION. The commands of counters and debug (chapter 22). -/

namespace Sys2Proof.Machine

/-- PERF_OWN_WRITE (R620): A write changing OWN[j] returns the unit's registers to reset values. -/
def execPerfOwnWrite (rq : Rq) (e j value : Nat) (s : State) : Host.Outcome State Fault Refusal :=
  if rq.ok && isEngine e && below 11 j && inBits 32 value then .next (onRun (wordWriteBy rq (Reg.PERF.OWN e j) value) s) else .refused .noSuchInstance
/-- TAG_CHOOSE (R624): When its random count expires the tagger chooses the next bundle entering F1. -/
def execTagChoose (e : Nat) (s : State) : Host.Outcome State Fault Refusal :=
  if isEngine e then .next (onRun (tagChoose e) s) else .refused .noSuchInstance
/-- TAG_COMPLETE (R624): The tagged bundle commits or is discarded and its record is written. -/
def execTagComplete (e outcome slots met target fd dh xw : Nat) (s : State) : Host.Outcome State Fault Refusal :=
  if isEngine e && inBits 3 outcome && inBits 4 slots && inBits 4 met && inBits 3 target then .next (onRun (tagComplete e outcome slots met target fd dh xw) s) else .refused .noSuchInstance
/-- BW_WINDOW_END (R625): At each window's last edge the bandwidth monitor loads BWLAST and BWPEAK and restarts. -/
def execBwWindowEnd (e : Nat) (s : State) : Host.Outcome State Fault Refusal :=
  if isEngine e then .next (onRun (bwWindowEnd e) s) else .refused .noSuchInstance
/-- TAP_EXTEST (R628): EXTEST drives boundary scan, only while the voter is in SAFE HOLD. -/
def execTapExtest (s : State) : Host.Outcome State Fault Refusal :=
  .next (onDoze tapExtest s)
/-- TAP_IDCODE (R627): IDCODE selects the 32-bit identification register. -/
def execTapIdcode (s : State) : Host.Outcome State Fault Refusal :=
  .next (onDoze tapIdcode s)
/-- TAP_SAMPLE_PRELOAD (R627): SAMPLE/PRELOAD captures or loads the boundary-scan chain. -/
def execTapSamplePreload (bits : List Bool) (s : State) : Host.Outcome State Fault Refusal :=
  .next (onDoze (tapSample bits) s)
/-- TAP_BYPASS (R627): BYPASS selects the one-bit register. -/
def execTapBypass (bit : Bool) (s : State) : Host.Outcome State Fault Refusal :=
  .next (onDoze (tapBypass bit) s)
/-- TAP_RESET (R631): TRST_N low closes the debug session. -/
def execTapReset (s : State) : Host.Outcome State Fault Refusal :=
  .next (onDoze tapReset s)
/-- DBG_READ (R629): DBGACC OP 0b01 performs a debug-marked read as agent 103. -/
def execDbgRead (addr : Nat) (s : State) : Host.Outcome State Fault Refusal :=
  if inBits 40 addr then .next (onDoze (dbgBegin addr none) s) else .refused .noSuchInstance
/-- DBG_WRITE (R629): DBGACC OP 0b10 performs a debug-marked write as agent 103. -/
def execDbgWrite (addr : Nat) (value : Word) (s : State) : Host.Outcome State Fault Refusal :=
  if inBits 40 addr then .next (onDoze (dbgBegin addr (some value)) s) else .refused .noSuchInstance
/-- DBGACC_DONE (R629): A debug access completes and BUSY clears. -/
def execDbgaccDone (s : State) : Host.Outcome State Fault Refusal :=
  .next (onDoze dbgDone s)
/-- DEBUG_REQUEST (R630): A write to REQ[15] posts a request and raises the DEBUG page event. -/
def execDebugRequest (value : Nat) (s : State) : Host.Outcome State Fault Refusal :=
  if inBits 32 value then .next (onDoze (dbgWriteBy (Reg.DEBUG.REQ 15) value) s) else .refused .noSuchInstance
/-- SESSION_OPEN (R630): Ring 0 opens a debug session bound to a tenant, ring and capabilities. -/
def execSessionOpen (rq : Rq) (t ring cap : Nat) (s : State) : Host.Outcome State Fault Refusal :=
  if rq.ok && inBits 9 t && inBits 2 ring && inBits 4 cap then .next (onRun (wordWriteBy rq (Reg.DEBUG.SESSION) (2 ^ 31 + cap * 2 ^ 27 + ring * 2 ^ 16 + t)) s) else .refused .noSuchInstance
/-- SESSION_CLOSE (R631): Closing a session resumes halted engines, clears BRKEN and DBG_CONSUME and renews CHAL. -/
def execSessionClose (rq : Rq) (s : State) : Host.Outcome State Fault Refusal :=
  if rq.ok then .next (onRun (fieldWriteBy rq (Reg.DEBUG.SESSION) 31 31 0) s) else .refused .noSuchInstance
/-- HALT (R634): ECMD HALT stops an engine as at an entry, or takes a Pedestal copy out of the vote. -/
def execHalt (t : Nat) (s : State) : Host.Outcome State Fault Refusal :=
  if inBits 7 t then .next (onDoze (dbgWriteBy Reg.DEBUG.ECMD (2 ^ 31 + 0 * 2 ^ 28 + t)) s) else .refused .noSuchInstance
/-- RESUME (R634): ECMD RESUME continues a halted target with its reservation cleared. -/
def execResume (t : Nat) (s : State) : Host.Outcome State Fault Refusal :=
  if inBits 7 t then .next (onDoze (dbgWriteBy Reg.DEBUG.ECMD (2 ^ 31 + 1 * 2 ^ 28 + t)) s) else .refused .noSuchInstance
/-- STEP (R634): ECMD STEP performs one bundle or micro-routine element and halts again. -/
def execStep (t : Nat) (s : State) : Host.Outcome State Fault Refusal :=
  if inBits 7 t then .next (onDoze (dbgWriteBy Reg.DEBUG.ECMD (2 ^ 31 + 2 * 2 ^ 28 + t)) s) else .refused .noSuchInstance
/-- DEBUG_RESET (R639): DEBUG CTRL.SYSRST from a privileged session starts a reset with cause DEBUG. -/
def execDebugReset (s : State) : Host.Outcome State Fault Refusal :=
  .next (onDoze (fun s => dbgWriteBy Reg.DEBUG.CTRL (s.fieldWord Reg.DEBUG.CTRL 1 1 1) s) s)

end Sys2Proof.Machine
end

