-- ==== Sys2Proof/Machine/RowsDrive.lean ====
section
/-! DEFINITION. The commands of the PWM generators, the trips and the Chisel (chapters 06 and 07). -/

namespace Sys2Proof.Machine

/-- PWM_ENABLE (R171): Setting PWM PAGE_CTRL.EN arms the counter to start at the next ACLK edge or on its sync event. -/
def execPwmEnable (rq : Rq) (c : Nat) (s : State) : Host.Outcome State Fault Refusal :=
  if rq.ok && isChannel c then .next (onRun (fieldWriteBy rq (Reg.PWM.page c + 8) 0 0 1) s) else .refused .noSuchInstance
/-- COUNTER_START (R171): The PWM counter starts at value 0 at an ACLK edge, which is a valley boundary. -/
def execCounterStart (c : Nat) (s : State) : Host.Outcome State Fault Refusal :=
  if isChannel c then .next (onRun (pwmStart c) s) else .refused .noSuchInstance
/-- PWM_DISABLE (R171): Clearing PWM EN stops the counter and COUNT reads 0. -/
def execPwmDisable (rq : Rq) (c : Nat) (s : State) : Host.Outcome State Fault Refusal :=
  if rq.ok && isChannel c then .next (onRun (fieldWriteBy rq (Reg.PWM.page c + 8) 0 0 0) s) else .refused .noSuchInstance
/-- PWM_VALLEY (R173): The counter reaches its valley: PERLIVE reloads, shadows transfer, PWM_VALLEY is raised and outputs may resume. -/
def execPwmValley (c : Nat) (s : State) : Host.Outcome State Fault Refusal :=
  if isChannel c then .next (onRun (pwmValley c) s) else .refused .noSuchInstance
/-- PWM_PEAK (R186): The centre-aligned counter reaches its peak: shadows transfer and PWM_PEAK is raised. -/
def execPwmPeak (c : Nat) (s : State) : Host.Outcome State Fault Refusal :=
  if isChannel c then .next (onRun (pwmPeak c) s) else .refused .noSuchInstance
/-- TRIGGER_POINT_REACHED (R175): The counter equals TRGPT[k].VAL in a selected direction and raises PWM_TRG0 or PWM_TRG1. -/
def execTriggerPointReached (c k : Nat) (s : State) : Host.Outcome State Fault Refusal :=
  if isChannel c && below 2 k then .next (onRun (pwmTrigger c k) s) else .refused .noSuchInstance
/-- COMPARE_MATCH (R177): The counter reaches a leg's compare instant and the high-side target changes. -/
def execCompareMatch (c n : Nat) (s : State) : Host.Outcome State Fault Refusal :=
  if isChannel c && below 3 n then .next (onRun (pwmCompare c n) s) else .refused .noSuchInstance
/-- DEAD_TIME_END (R183): When a leg's dead time expires with its target unchanged, the complementary output turns on. -/
def execDeadTimeEnd (c n : Nat) (s : State) : Host.Outcome State Fault Refusal :=
  if isChannel c && below 3 n then .next (onRun (legTurnOn c n) s) else .refused .noSuchInstance
/-- BLANK_END (R189): A leg's blanking window expires and trip sources of that leg are judged again. -/
def execBlankEnd (c n : Nat) (s : State) : Host.Outcome State Fault Refusal :=
  if isChannel c && below 3 n then .next (onRun (pwmBlankEnd c n) s) else .refused .noSuchInstance
/-- LEG_PERIOD_START (R180): A VON or VOFF leg starts a period and turns its target on, latching its timing values. -/
def execLegPeriodStart (c n : Nat) (s : State) : Host.Outcome State Fault Refusal :=
  if isChannel c && below 3 n then .next (onRun (legPeriod c n) s) else .refused .noSuchInstance
/-- ON_TIME_END (R180): A VON leg's TON or a VOFF leg's TONMAX expires and the target turns off. -/
def execOnTimeEnd (c n : Nat) (s : State) : Host.Outcome State Fault Refusal :=
  if isChannel c && below 3 n then .next (onRun (legOnEnd c n) s) else .refused .noSuchInstance
/-- CMP_SHADOW_WRITE (R67): A fabric write to a leg compare shadow lands and takes effect at the next boundary it precedes. -/
def execCmpShadowWrite (rq : Rq) (c n value : Nat) (s : State) : Host.Outcome State Fault Refusal :=
  if rq.ok && isChannel c && below 3 n && inBits 32 value then .next (onRun (wordWriteBy rq (Reg.PWM.CMP c n) value) s) else .refused .noSuchInstance
/-- TRIP_PIN_CHANGE (R192): A change at TRIPA or TRIPB reaches the synchronised level and starts or ends qualification. -/
def execTripPinChange (c k : Nat) (lvl : Bool) (s : State) : Host.Outcome State Fault Refusal :=
  if isChannel c && below 2 k then .next (onRun (tripPin c k lvl) s) else .refused .noSuchInstance
/-- TRIP_QUALIFY (R192): A trip pin level active for FILT edges qualifies as an active trip source. -/
def execTripQualify (c k : Nat) (s : State) : Host.Outcome State Fault Refusal :=
  if isChannel c && below 2 k then .next (onRun (tripQualify c k) s) else .refused .noSuchInstance
/-- SOFTWARE_TRIP (R191): A write of 1 to TRIP CTRL.SWTRIP makes the software source active at the landing edge. -/
def execSoftwareTrip (rq : Rq) (c : Nat) (s : State) : Host.Outcome State Fault Refusal :=
  if rq.ok && isChannel c then .next (onRun (fieldWriteBy rq (Reg.TRIP.CTRL c) 0 0 1) s) else .refused .noSuchInstance
/-- LATCH_CLEAR (R194): A write of 1 to a TRIP LATCH bit clears it unless its cause persists; when all clear the trip waits for a valley. -/
def execLatchClear (rq : Rq) (c bits : Nat) (s : State) : Host.Outcome State Fault Refusal :=
  if rq.ok && isChannel c && inBits 32 bits then .next (onRun (wordWriteBy rq (Reg.TRIP.LATCH c) bits) s) else .refused .noSuchInstance
/-- TRIP_CFG_WRITE (R196): An accepted TRIP CFG write restarts qualification of TRIPA and TRIPB under the new values. -/
def execTripCfgWrite (rq : Rq) (c value : Nat) (s : State) : Host.Outcome State Fault Refusal :=
  if rq.ok && isChannel c && inBits 32 value then .next (onRun (wordWriteBy rq (Reg.TRIP.CFG c) value) s) else .refused .noSuchInstance
/-- CHISEL_RESULT (R209): At edge 39-40 the Chisel updates its state registers and issues the compare shadow write, or tracks when OWN is 0. -/
def execChiselResult (c : Nat) (s : State) : Host.Outcome State Fault Refusal :=
  if isChannel c then .next (onRun (chiselResult c) s) else .refused .noSuchInstance
/-- CHISEL_DONE (R209): The Chisel's shadow write lands on CMP[0]-CMP[2] in one cycle and CHISEL_DONE is raised. -/
def execChiselDone (c late : Nat) (s : State) : Host.Outcome State Fault Refusal :=
  if isChannel c && below 20 late then .next (onRun (chiselDone c late) s) else .refused .noSuchInstance
/-- CHISEL_DISABLE (R213): Clearing CHISEL or CHAN EN aborts the computation in flight and holds the integrators. -/
def execChiselDisable (rq : Rq) (c : Nat) (slice : Bool) (s : State) : Host.Outcome State Fault Refusal :=
  if rq.ok && isChannel c then .next (onRun (fieldWriteBy rq ((if slice then Reg.CHAN.page c else Reg.CHISEL.page c) + 8) 0 0 0) s) else .refused .noSuchInstance
/-- TRIP_BLANK_LIMIT (R190): A blanked trip source active without interruption for the largest BLANK of the enabled legs is no longer ignored and latches the trip. -/
def execTripBlankLimit (c src : Nat) (s : State) : Host.Outcome State Fault Refusal :=
  if isChannel c && below 13 src then .next (onRun (tripLimit c src) s) else .refused .noSuchInstance

end Sys2Proof.Machine
end

