-- ==== Sys2Proof/Machine/RowsEngineEvents.lean ====
section
/-! DEFINITION. The commands of what happens on an engine beside its instructions (chapters 11 and 12). -/

namespace Sys2Proof.Machine

/-- LOAD_DATA_RETURN (R333): Data of a load beyond local memory returns and the waiting bundle proceeds. -/
def execLoadDataReturn (e : Nat) (s : State) : Host.Outcome State Fault Refusal :=
  if isCore e then .next (onRun (loadReturn e) s) else .refused .noSuchInstance
/-- STORE_PERFORM (R336): The write buffer performs its oldest store at memory and frees an entry. -/
def execStorePerform (e : Nat) (s : State) : Host.Outcome State Fault Refusal :=
  if isCore e then .next (onRun (storeReturn e) s) else .refused .noSuchInstance
/-- ICACHE_FILL (R338): An instruction cache miss fills its line and the fetch proceeds. -/
def execIcacheFill (e : Nat) (s : State) : Host.Outcome State Fault Refusal :=
  if isCore e then .next (onRun (icacheFill e) s) else .refused .noSuchInstance
/-- TABLE_WALK (R372): A TLB miss walks the tenant's tables, sets A, and fills the TLB or faults. -/
def execTableWalk (e : Nat) (s : State) : Host.Outcome State Fault Refusal :=
  if isCore e then .next (onRun (tableWalk e) s) else .refused .noSuchInstance
/-- ENGINE_RESET_DONE (R357): After 32 CCLK the third-fault reset completes and the engine continues as after RETE. -/
def execEngineResetDone (e : Nat) (s : State) : Host.Outcome State Fault Refusal :=
  if isCore e then .next (onRun (resetDone e) s) else .refused .noSuchInstance
/-- EVENT_ENTRY (R345): An eligible slot is entered: the pipeline drains, the context is saved, and the new activation starts clean. -/
def execEventEntry (e : Nat) (s : State) : Host.Outcome State Fault Refusal :=
  if isCore e then .next (onRun (eventEntry e) s) else .refused .noSuchInstance
/-- CONTEXT_WRITE (R461): A CTXCFG write that changes TENANT or VALID discards the context's instruction-cache lines. -/
def execContextWrite (rq : Rq) (e x value : Nat) (s : State) : Host.Outcome State Fault Refusal :=
  if rq.ok && isEngine e && below 8 x && inBits 32 value then .next (onRun (wordWriteBy rq (Reg.ENG.CTXCFG e x) value) s) else .refused .noSuchInstance

end Sys2Proof.Machine
end

