-- ==== Sys2Proof/Machine/RowsEngineFlow.lean ====
section
/-! DEFINITION. The commands of the control instructions of the engines (R302). -/

namespace Sys2Proof.Machine

/-- BR (R303): Conditional relative branch. -/
def execBr (e : Nat) (cond imm19 : Nat) (rest : List Syl) (s : State) : Host.Outcome State Fault Refusal :=
  if isCore e && (Op.br cond imm19).slotOk 0 && restOk rest then .next (onRun (runBundle e 1 (bundleOf ⟨0, Op.br cond imm19⟩ rest)) s) else .refused .noSuchInstance
/-- JMP (R302): Jump to Ps. -/
def execJmp (e : Nat) (ps : Nat) (rest : List Syl) (s : State) : Host.Outcome State Fault Refusal :=
  if isCore e && (Op.jmp ps).slotOk 0 && restOk rest then .next (onRun (runBundle e 1 (bundleOf ⟨0, Op.jmp ps⟩ rest)) s) else .refused .noSuchInstance
/-- CALL (R326): Push the return address and branch relative. -/
def execCall (e : Nat) (imm23 : Nat) (rest : List Syl) (s : State) : Host.Outcome State Fault Refusal :=
  if isCore e && (Op.call imm23).slotOk 0 && restOk rest then .next (onRun (runBundle e 1 (bundleOf ⟨0, Op.call imm23⟩ rest)) s) else .refused .noSuchInstance
/-- CALLR (R326): Push the return address and jump to Ps. -/
def execCallr (e : Nat) (ps : Nat) (rest : List Syl) (s : State) : Host.Outcome State Fault Refusal :=
  if isCore e && (Op.callr ps).slotOk 0 && restOk rest then .next (onRun (runBundle e 1 (bundleOf ⟨0, Op.callr ps⟩ rest)) s) else .refused .noSuchInstance
/-- RET (R326): Pop the return address and continue there. -/
def execRet (e : Nat) (rest : List Syl) (s : State) : Host.Outcome State Fault Refusal :=
  if isCore e && (Op.ret).slotOk 0 && restOk rest then .next (onRun (runBundle e 1 (bundleOf ⟨0, Op.ret⟩ rest)) s) else .refused .noSuchInstance
/-- MFC (R291): Dd gets a control register, subject to ring restrictions. -/
def execMfc (e : Nat) (dd cr : Nat) (rest : List Syl) (s : State) : Host.Outcome State Fault Refusal :=
  if isCore e && (Op.mfc dd cr).slotOk 0 && restOk rest then .next (onRun (runBundle e 1 (bundleOf ⟨0, Op.mfc dd cr⟩ rest)) s) else .refused .noSuchInstance
/-- MTC (R291): A control register gets Ds, subject to ring restrictions. -/
def execMtc (e : Nat) (cr ds : Nat) (rest : List Syl) (s : State) : Host.Outcome State Fault Refusal :=
  if isCore e && (Op.mtc cr ds).slotOk 0 && restOk rest then .next (onRun (runBundle e 1 (bundleOf ⟨0, Op.mtc cr ds⟩ rest)) s) else .refused .noSuchInstance
/-- CLRF (R302): Clear the flags selected by the mask. -/
def execClrf (e : Nat) (mask : Nat) (rest : List Syl) (s : State) : Host.Outcome State Fault Refusal :=
  if isCore e && (Op.clrf mask).slotOk 0 && restOk rest then .next (onRun (runBundle e 1 (bundleOf ⟨0, Op.clrf mask⟩ rest)) s) else .refused .noSuchInstance
/-- GATE (R361): Ring crossing through the gate table, or PRIV when refused. -/
def execGate (e : Nat) (n : Nat) (rest : List Syl) (s : State) : Host.Outcome State Fault Refusal :=
  if isCore e && (Op.gate n).slotOk 0 && restOk rest then .next (onRun (runBundle e 1 (bundleOf ⟨0, Op.gate n⟩ rest)) s) else .refused .noSuchInstance
/-- RETG (R362): Return from a gate to the popped ring and address. -/
def execRetg (e : Nat) (rest : List Syl) (s : State) : Host.Outcome State Fault Refusal :=
  if isCore e && (Op.retg).slotOk 0 && restOk rest then .next (onRun (runBundle e 1 (bundleOf ⟨0, Op.retg⟩ rest)) s) else .refused .noSuchInstance
/-- RETE (R358): Return from a fault frame, or end the activation and chain, restore or idle. -/
def execRete (e : Nat) (rest : List Syl) (s : State) : Host.Outcome State Fault Refusal :=
  if isCore e && (Op.rete).slotOk 0 && restOk rest then .next (onRun (runBundle e 1 (bundleOf ⟨0, Op.rete⟩ rest)) s) else .refused .noSuchInstance
/-- WAIT (R351): Hold the next bundle with clocks gated until an event for the activation or an entry and restore. -/
def execWait (e : Nat) (rest : List Syl) (s : State) : Host.Outcome State Fault Refusal :=
  if isCore e && (Op.wait).slotOk 0 && restOk rest then .next (onRun (runBundle e 1 (bundleOf ⟨0, Op.wait⟩ rest)) s) else .refused .noSuchInstance
/-- BRK (R636): Halt the engine for the debug port when breakpoints are enabled, otherwise ILLOP. -/
def execBrk (e : Nat) (rest : List Syl) (s : State) : Host.Outcome State Fault Refusal :=
  if isCore e && (Op.brk).slotOk 0 && restOk rest then .next (onRun (runBundle e 1 (bundleOf ⟨0, Op.brk⟩ rest)) s) else .refused .noSuchInstance

end Sys2Proof.Machine
end

