-- ==== Sys2Proof/Machine/RowsEngineS0S1.lean ====
section
/-! DEFINITION. The commands of the integer instructions of the engines (R300, R301). -/

namespace Sys2Proof.Machine

/-- NOP (R300): Slot S0 no-operation. -/
def execNop (e : Nat) (rest : List Syl) (s : State) : Host.Outcome State Fault Refusal :=
  if isCore e && (Op.nop).slotOk 0 && restOk rest then .next (onRun (runBundle e 1 (bundleOf ⟨0, Op.nop⟩ rest)) s) else .refused .noSuchInstance
/-- ADD (R300): Dd gets Da plus b, setting Z, N, C and V. -/
def execAdd (e slot : Nat) (dd da : Nat) (b : Src) (rest : List Syl) (s : State) : Host.Outcome State Fault Refusal :=
  if isCore e && (Op.int .add dd da b).slotOk slot && restOk rest then .next (onRun (runBundle e 1 (bundleOf ⟨slot, Op.int .add dd da b⟩ rest)) s) else .refused .noSuchInstance
/-- ADC (R300): Dd gets Da plus b plus carry. -/
def execAdc (e slot : Nat) (dd da : Nat) (b : Src) (rest : List Syl) (s : State) : Host.Outcome State Fault Refusal :=
  if isCore e && (Op.int .adc dd da b).slotOk slot && restOk rest then .next (onRun (runBundle e 1 (bundleOf ⟨slot, Op.int .adc dd da b⟩ rest)) s) else .refused .noSuchInstance
/-- SUB (R300): Dd gets Da minus b, C set when no borrow. -/
def execSub (e slot : Nat) (dd da : Nat) (b : Src) (rest : List Syl) (s : State) : Host.Outcome State Fault Refusal :=
  if isCore e && (Op.int .sub dd da b).slotOk slot && restOk rest then .next (onRun (runBundle e 1 (bundleOf ⟨slot, Op.int .sub dd da b⟩ rest)) s) else .refused .noSuchInstance
/-- SBC (R300): Dd gets Da minus b minus borrow. -/
def execSbc (e slot : Nat) (dd da : Nat) (b : Src) (rest : List Syl) (s : State) : Host.Outcome State Fault Refusal :=
  if isCore e && (Op.int .sbc dd da b).slotOk slot && restOk rest then .next (onRun (runBundle e 1 (bundleOf ⟨slot, Op.int .sbc dd da b⟩ rest)) s) else .refused .noSuchInstance
/-- AND (R300): Dd gets Da AND b. -/
def execAnd (e slot : Nat) (dd da : Nat) (b : Src) (rest : List Syl) (s : State) : Host.Outcome State Fault Refusal :=
  if isCore e && (Op.int .and dd da b).slotOk slot && restOk rest then .next (onRun (runBundle e 1 (bundleOf ⟨slot, Op.int .and dd da b⟩ rest)) s) else .refused .noSuchInstance
/-- OR (R300): Dd gets Da OR b. -/
def execOr (e slot : Nat) (dd da : Nat) (b : Src) (rest : List Syl) (s : State) : Host.Outcome State Fault Refusal :=
  if isCore e && (Op.int .or dd da b).slotOk slot && restOk rest then .next (onRun (runBundle e 1 (bundleOf ⟨slot, Op.int .or dd da b⟩ rest)) s) else .refused .noSuchInstance
/-- XOR (R300): Dd gets Da XOR b. -/
def execXor (e slot : Nat) (dd da : Nat) (b : Src) (rest : List Syl) (s : State) : Host.Outcome State Fault Refusal :=
  if isCore e && (Op.int .xor dd da b).slotOk slot && restOk rest then .next (onRun (runBundle e 1 (bundleOf ⟨slot, Op.int .xor dd da b⟩ rest)) s) else .refused .noSuchInstance
/-- ANDN (R300): Dd gets Da AND NOT b. -/
def execAndn (e slot : Nat) (dd da : Nat) (b : Src) (rest : List Syl) (s : State) : Host.Outcome State Fault Refusal :=
  if isCore e && (Op.int .andn dd da b).slotOk slot && restOk rest then .next (onRun (runBundle e 1 (bundleOf ⟨slot, Op.int .andn dd da b⟩ rest)) s) else .refused .noSuchInstance
/-- SHL (R301): Logical shift left with C from the last bit shifted out. -/
def execShl (e slot : Nat) (dd da : Nat) (b : Src) (rest : List Syl) (s : State) : Host.Outcome State Fault Refusal :=
  if isCore e && (Op.int .shl dd da b).slotOk slot && restOk rest then .next (onRun (runBundle e 1 (bundleOf ⟨slot, Op.int .shl dd da b⟩ rest)) s) else .refused .noSuchInstance
/-- SHR (R301): Logical shift right with C from the last bit shifted out. -/
def execShr (e slot : Nat) (dd da : Nat) (b : Src) (rest : List Syl) (s : State) : Host.Outcome State Fault Refusal :=
  if isCore e && (Op.int .shr dd da b).slotOk slot && restOk rest then .next (onRun (runBundle e 1 (bundleOf ⟨slot, Op.int .shr dd da b⟩ rest)) s) else .refused .noSuchInstance
/-- SAR (R301): Arithmetic shift right. -/
def execSar (e slot : Nat) (dd da : Nat) (b : Src) (rest : List Syl) (s : State) : Host.Outcome State Fault Refusal :=
  if isCore e && (Op.int .sar dd da b).slotOk slot && restOk rest then .next (onRun (runBundle e 1 (bundleOf ⟨slot, Op.int .sar dd da b⟩ rest)) s) else .refused .noSuchInstance
/-- ROR (R301): Rotate right by n mod 32. -/
def execRor (e slot : Nat) (dd da : Nat) (b : Src) (rest : List Syl) (s : State) : Host.Outcome State Fault Refusal :=
  if isCore e && (Op.int .ror dd da b).slotOk slot && restOk rest then .next (onRun (runBundle e 1 (bundleOf ⟨slot, Op.int .ror dd da b⟩ rest)) s) else .refused .noSuchInstance
/-- MIN (R300): Dd gets the signed minimum. -/
def execMin (e slot : Nat) (dd da : Nat) (b : Src) (rest : List Syl) (s : State) : Host.Outcome State Fault Refusal :=
  if isCore e && (Op.int .min dd da b).slotOk slot && restOk rest then .next (onRun (runBundle e 1 (bundleOf ⟨slot, Op.int .min dd da b⟩ rest)) s) else .refused .noSuchInstance
/-- MAX (R300): Dd gets the signed maximum. -/
def execMax (e slot : Nat) (dd da : Nat) (b : Src) (rest : List Syl) (s : State) : Host.Outcome State Fault Refusal :=
  if isCore e && (Op.int .max dd da b).slotOk slot && restOk rest then .next (onRun (runBundle e 1 (bundleOf ⟨slot, Op.int .max dd da b⟩ rest)) s) else .refused .noSuchInstance
/-- CMP (R300): Sets flags from Da minus b without writing a register. -/
def execCmp (e slot : Nat) (da : Nat) (b : Src) (rest : List Syl) (s : State) : Host.Outcome State Fault Refusal :=
  if isCore e && (Op.int .cmp 0 da b).slotOk slot && restOk rest then .next (onRun (runBundle e 1 (bundleOf ⟨slot, Op.int .cmp 0 da b⟩ rest)) s) else .refused .noSuchInstance
/-- TST (R300): Sets Z and N from Da AND b without writing a register. -/
def execTst (e slot : Nat) (da : Nat) (b : Src) (rest : List Syl) (s : State) : Host.Outcome State Fault Refusal :=
  if isCore e && (Op.int .tst 0 da b).slotOk slot && restOk rest then .next (onRun (runBundle e 1 (bundleOf ⟨slot, Op.int .tst 0 da b⟩ rest)) s) else .refused .noSuchInstance
/-- ADDS (R301): Saturating 32-bit add setting V and S. -/
def execAdds (e slot : Nat) (dd da db : Nat) (rest : List Syl) (s : State) : Host.Outcome State Fault Refusal :=
  if isCore e && (Op.reg .adds dd da db).slotOk slot && restOk rest then .next (onRun (runBundle e 1 (bundleOf ⟨slot, Op.reg .adds dd da db⟩ rest)) s) else .refused .noSuchInstance
/-- SUBS (R301): Saturating 32-bit subtract setting V and S. -/
def execSubs (e slot : Nat) (dd da db : Nat) (rest : List Syl) (s : State) : Host.Outcome State Fault Refusal :=
  if isCore e && (Op.reg .subs dd da db).slotOk slot && restOk rest then .next (onRun (runBundle e 1 (bundleOf ⟨slot, Op.reg .subs dd da db⟩ rest)) s) else .refused .noSuchInstance
/-- ABS (R301): Saturating absolute value. -/
def execAbs (e slot : Nat) (dd da : Nat) (rest : List Syl) (s : State) : Host.Outcome State Fault Refusal :=
  if isCore e && (Op.reg .abs dd da 0).slotOk slot && restOk rest then .next (onRun (runBundle e 1 (bundleOf ⟨slot, Op.reg .abs dd da 0⟩ rest)) s) else .refused .noSuchInstance
/-- NEG (R301): Saturating negation. -/
def execNeg (e slot : Nat) (dd da : Nat) (rest : List Syl) (s : State) : Host.Outcome State Fault Refusal :=
  if isCore e && (Op.reg .neg dd da 0).slotOk slot && restOk rest then .next (onRun (runBundle e 1 (bundleOf ⟨slot, Op.reg .neg dd da 0⟩ rest)) s) else .refused .noSuchInstance
/-- CLZ (R300): Count leading zeros of Da. -/
def execClz (e slot : Nat) (dd da : Nat) (rest : List Syl) (s : State) : Host.Outcome State Fault Refusal :=
  if isCore e && (Op.reg .clz dd da 0).slotOk slot && restOk rest then .next (onRun (runBundle e 1 (bundleOf ⟨slot, Op.reg .clz dd da 0⟩ rest)) s) else .refused .noSuchInstance
/-- EXTS (R300): Sign or zero extension of a byte or halfword selected by FUNC. -/
def execExts (e slot : Nat) (func dd da : Nat) (rest : List Syl) (s : State) : Host.Outcome State Fault Refusal :=
  if isCore e && (Op.exts func dd da).slotOk slot && restOk rest then .next (onRun (runBundle e 1 (bundleOf ⟨slot, Op.exts func dd da⟩ rest)) s) else .refused .noSuchInstance
/-- MULL (R300): Low 32 bits of Da times Db, slot S1 only. -/
def execMull (e : Nat) (dd da db : Nat) (rest : List Syl) (s : State) : Host.Outcome State Fault Refusal :=
  if isCore e && (Op.reg .mull dd da db).slotOk 1 && restOk rest then .next (onRun (runBundle e 1 (bundleOf ⟨1, Op.reg .mull dd da db⟩ rest)) s) else .refused .noSuchInstance
/-- MOVI (R300): Dd gets a sign-extended 18-bit immediate. -/
def execMovi (e slot : Nat) (dd imm18 : Nat) (rest : List Syl) (s : State) : Host.Outcome State Fault Refusal :=
  if isCore e && (Op.movi dd imm18).slotOk slot && restOk rest then .next (onRun (runBundle e 1 (bundleOf ⟨slot, Op.movi dd imm18⟩ rest)) s) else .refused .noSuchInstance
/-- MOVH (R300): Dd's upper half gets a 16-bit immediate. -/
def execMovh (e slot : Nat) (dd imm16 : Nat) (rest : List Syl) (s : State) : Host.Outcome State Fault Refusal :=
  if isCore e && (Op.movh dd imm16).slotOk slot && restOk rest then .next (onRun (runBundle e 1 (bundleOf ⟨slot, Op.movh dd imm16⟩ rest)) s) else .refused .noSuchInstance
/-- MOV (R300): Dd gets Da. -/
def execMov (e slot : Nat) (dd da : Nat) (rest : List Syl) (s : State) : Host.Outcome State Fault Refusal :=
  if isCore e && (Op.reg .mov dd da 0).slotOk slot && restOk rest then .next (onRun (runBundle e 1 (bundleOf ⟨slot, Op.reg .mov dd da 0⟩ rest)) s) else .refused .noSuchInstance
/-- PADD (R300): Pd gets Ps plus a signed 13-bit immediate. -/
def execPadd (e slot : Nat) (pd ps imm13 : Nat) (rest : List Syl) (s : State) : Host.Outcome State Fault Refusal :=
  if isCore e && (Op.padd pd ps imm13).slotOk slot && restOk rest then .next (onRun (runBundle e 1 (bundleOf ⟨slot, Op.padd pd ps imm13⟩ rest)) s) else .refused .noSuchInstance
/-- MOVDP (R300): Dd gets Ps. -/
def execMovdp (e slot : Nat) (dd ps : Nat) (rest : List Syl) (s : State) : Host.Outcome State Fault Refusal :=
  if isCore e && (Op.movdp dd ps).slotOk slot && restOk rest then .next (onRun (runBundle e 1 (bundleOf ⟨slot, Op.movdp dd ps⟩ rest)) s) else .refused .noSuchInstance
/-- MOVPD (R300): Pd gets Ds. -/
def execMovpd (e slot : Nat) (pd ds : Nat) (rest : List Syl) (s : State) : Host.Outcome State Fault Refusal :=
  if isCore e && (Op.movpd pd ds).slotOk slot && restOk rest then .next (onRun (runBundle e 1 (bundleOf ⟨slot, Op.movpd pd ds⟩ rest)) s) else .refused .noSuchInstance
/-- SEL (R300): Dd gets Da or Db depending on COND. -/
def execSel (e slot : Nat) (cond dd da db : Nat) (rest : List Syl) (s : State) : Host.Outcome State Fault Refusal :=
  if isCore e && (Op.sel cond dd da db).slotOk slot && restOk rest then .next (onRun (runBundle e 1 (bundleOf ⟨slot, Op.sel cond dd da db⟩ rest)) s) else .refused .noSuchInstance

end Sys2Proof.Machine
end

