-- ==== Sys2Proof/Machine/RowsEngineS1S2.lean ====
section
/-! DEFINITION. The commands of the accumulator, fp32 and long instructions (R305). -/

namespace Sys2Proof.Machine

/-- MAC (R312): An gets An plus the product of Da and Db. -/
def execMac (e slot : Nat) (an da db : Nat) (f sz : Bool) (rest : List Syl) (s : State) : Host.Outcome State Fault Refusal :=
  if isCore e && (Op.mac .mac an da db f sz).slotOk slot && restOk rest then .next (onRun (runBundle e 1 (bundleOf ⟨slot, Op.mac .mac an da db f sz⟩ rest)) s) else .refused .noSuchInstance
/-- MSU (R312): An gets An minus the product. -/
def execMsu (e slot : Nat) (an da db : Nat) (f sz : Bool) (rest : List Syl) (s : State) : Host.Outcome State Fault Refusal :=
  if isCore e && (Op.mac .msu an da db f sz).slotOk slot && restOk rest then .next (onRun (runBundle e 1 (bundleOf ⟨slot, Op.mac .msu an da db f sz⟩ rest)) s) else .refused .noSuchInstance
/-- MUL (R312): An gets the product. -/
def execMul (e slot : Nat) (an da db : Nat) (f sz : Bool) (rest : List Syl) (s : State) : Host.Outcome State Fault Refusal :=
  if isCore e && (Op.mac .mul an da db f sz).slotOk slot && restOk rest then .next (onRun (runBundle e 1 (bundleOf ⟨slot, Op.mac .mul an da db f sz⟩ rest)) s) else .refused .noSuchInstance
/-- MACD (R315): Fetch X and Y operands, accumulate their product and post-modify the pointers. -/
def execMacd (e slot : Nat) (an px py mx my : Nat) (sz f minus clr : Bool) (rest : List Syl) (s : State) : Host.Outcome State Fault Refusal :=
  if isCore e && (Op.macd an px py mx my sz f minus clr).slotOk slot && restOk rest then .next (onRun (runBundle e 1 (bundleOf ⟨slot, Op.macd an px py mx my sz f minus clr⟩ rest)) s) else .refused .noSuchInstance
/-- EXT (R312): Dd gets An shifted, optionally rounded, and saturated to 32 bits. -/
def execExt (e slot : Nat) (dd an sh : Nat) (rnd : Bool) (rest : List Syl) (s : State) : Host.Outcome State Fault Refusal :=
  if isCore e && (Op.ext dd an sh rnd).slotOk slot && restOk rest then .next (onRun (runBundle e 1 (bundleOf ⟨slot, Op.ext dd an sh rnd⟩ rest)) s) else .refused .noSuchInstance
/-- AMOV (R305): An gets sign-extended Ds shifted left. -/
def execAmov (e slot : Nat) (an ds sh : Nat) (rest : List Syl) (s : State) : Host.Outcome State Fault Refusal :=
  if isCore e && (Op.amov an ds sh).slotOk slot && restOk rest then .next (onRun (runBundle e 1 (bundleOf ⟨slot, Op.amov an ds sh⟩ rest)) s) else .refused .noSuchInstance
/-- ASH (R305): Shift An left or arithmetically right. -/
def execAsh (e slot : Nat) (an sh7 : Nat) (rest : List Syl) (s : State) : Host.Outcome State Fault Refusal :=
  if isCore e && (Op.ash an sh7).slotOk slot && restOk rest then .next (onRun (runBundle e 1 (bundleOf ⟨slot, Op.ash an sh7⟩ rest)) s) else .refused .noSuchInstance
/-- AADD (R305): An gets An plus Am. -/
def execAadd (e slot : Nat) (an am : Nat) (rest : List Syl) (s : State) : Host.Outcome State Fault Refusal :=
  if isCore e && (Op.aadd an am).slotOk slot && restOk rest then .next (onRun (runBundle e 1 (bundleOf ⟨slot, Op.aadd an am⟩ rest)) s) else .refused .noSuchInstance
/-- FADD (R320): fp32 add. -/
def execFadd (e slot : Nat) (dd da db : Nat) (rest : List Syl) (s : State) : Host.Outcome State Fault Refusal :=
  if isCore e && (Op.fp .fadd dd da db).slotOk slot && restOk rest then .next (onRun (runBundle e 1 (bundleOf ⟨slot, Op.fp .fadd dd da db⟩ rest)) s) else .refused .noSuchInstance
/-- FSUB (R320): fp32 subtract. -/
def execFsub (e slot : Nat) (dd da db : Nat) (rest : List Syl) (s : State) : Host.Outcome State Fault Refusal :=
  if isCore e && (Op.fp .fsub dd da db).slotOk slot && restOk rest then .next (onRun (runBundle e 1 (bundleOf ⟨slot, Op.fp .fsub dd da db⟩ rest)) s) else .refused .noSuchInstance
/-- FMUL (R320): fp32 multiply. -/
def execFmul (e slot : Nat) (dd da db : Nat) (rest : List Syl) (s : State) : Host.Outcome State Fault Refusal :=
  if isCore e && (Op.fp .fmul dd da db).slotOk slot && restOk rest then .next (onRun (runBundle e 1 (bundleOf ⟨slot, Op.fp .fmul dd da db⟩ rest)) s) else .refused .noSuchInstance
/-- FMA (R320): fp32 fused multiply-add. -/
def execFma (e slot : Nat) (dd da db : Nat) (rest : List Syl) (s : State) : Host.Outcome State Fault Refusal :=
  if isCore e && (Op.fp .fma dd da db).slotOk slot && restOk rest then .next (onRun (runBundle e 1 (bundleOf ⟨slot, Op.fp .fma dd da db⟩ rest)) s) else .refused .noSuchInstance
/-- FCMP (R320): fp32 compare setting Z, N, C and V. -/
def execFcmp (e slot : Nat) (da db : Nat) (rest : List Syl) (s : State) : Host.Outcome State Fault Refusal :=
  if isCore e && (Op.fcmp da db).slotOk slot && restOk rest then .next (onRun (runBundle e 1 (bundleOf ⟨slot, Op.fcmp da db⟩ rest)) s) else .refused .noSuchInstance
/-- FCVT (R321): Conversion between fp32 and integer or fixed point selected by FUNC. -/
def execFcvt (e slot : Nat) (func dd da : Nat) (rest : List Syl) (s : State) : Host.Outcome State Fault Refusal :=
  if isCore e && (Op.fcvt func dd da).slotOk slot && restOk rest then .next (onRun (runBundle e 1 (bundleOf ⟨slot, Op.fcvt func dd da⟩ rest)) s) else .refused .noSuchInstance
/-- DIVS (R318): Long operation: signed divide with remainder. -/
def execDivs (e slot : Nat) (dd da db : Nat) (rest : List Syl) (s : State) : Host.Outcome State Fault Refusal :=
  if isCore e && (Op.long .divs dd da db).slotOk slot && restOk rest then .next (onRun (runBundle e 1 (bundleOf ⟨slot, Op.long .divs dd da db⟩ rest)) s) else .refused .noSuchInstance
/-- DIVU (R318): Long operation: unsigned divide with remainder. -/
def execDivu (e slot : Nat) (dd da db : Nat) (rest : List Syl) (s : State) : Host.Outcome State Fault Refusal :=
  if isCore e && (Op.long .divu dd da db).slotOk slot && restOk rest then .next (onRun (runBundle e 1 (bundleOf ⟨slot, Op.long .divu dd da db⟩ rest)) s) else .refused .noSuchInstance
/-- SQRT (R318): Long operation: unsigned square root. -/
def execSqrt (e slot : Nat) (dd da : Nat) (rest : List Syl) (s : State) : Host.Outcome State Fault Refusal :=
  if isCore e && (Op.long .sqrt dd da 0).slotOk slot && restOk rest then .next (onRun (runBundle e 1 (bundleOf ⟨slot, Op.long .sqrt dd da 0⟩ rest)) s) else .refused .noSuchInstance
/-- SINCOS (R318): Long operation: sine and cosine of an angle. -/
def execSincos (e slot : Nat) (dd da : Nat) (rest : List Syl) (s : State) : Host.Outcome State Fault Refusal :=
  if isCore e && (Op.long .sincos dd da 0).slotOk slot && restOk rest then .next (onRun (runBundle e 1 (bundleOf ⟨slot, Op.long .sincos dd da 0⟩ rest)) s) else .refused .noSuchInstance
/-- ATAN2 (R318): Long operation: angle of a vector. -/
def execAtan2 (e slot : Nat) (dd da db : Nat) (rest : List Syl) (s : State) : Host.Outcome State Fault Refusal :=
  if isCore e && (Op.long .atan2 dd da db).slotOk slot && restOk rest then .next (onRun (runBundle e 1 (bundleOf ⟨slot, Op.long .atan2 dd da db⟩ rest)) s) else .refused .noSuchInstance
/-- FDIV (R317): Long operation: fp32 divide. -/
def execFdiv (e slot : Nat) (dd da db : Nat) (rest : List Syl) (s : State) : Host.Outcome State Fault Refusal :=
  if isCore e && (Op.long .fdiv dd da db).slotOk slot && restOk rest then .next (onRun (runBundle e 1 (bundleOf ⟨slot, Op.long .fdiv dd da db⟩ rest)) s) else .refused .noSuchInstance
/-- LONG_RESULT (R317): The long-operation unit writes its results at the end of its latency. -/
def execLongResult (e : Nat) (s : State) : Host.Outcome State Fault Refusal :=
  if isCore e then .next (onRun (longResult e) s) else .refused .noSuchInstance
/-- VMAC (R325): Micro-routine accumulating Dn products from X and Y memory. -/
def execVmac (e : Nat) (an px py dn : Nat) (sz f minus : Bool) (limit : Nat) (rest : List Syl) (s : State) : Host.Outcome State Fault Refusal :=
  if isCore e && (Op.vmac an px py dn sz f minus).slotOk 1 && restOk rest then .next (onRun (runBundle e limit (bundleOf ⟨1, Op.vmac an px py dn sz f minus⟩ rest)) s) else .refused .noSuchInstance

end Sys2Proof.Machine
end

