-- ==== Sys2Proof/Machine/RowsEngineS3.lean ====
section
/-! DEFINITION. The commands of the memory instructions (R306). -/

namespace Sys2Proof.Machine

/-- LDB (R306): Load a sign-extended byte. -/
def execLdb (e : Nat) (t pb : Nat) (a : Addr) (rest : List Syl) (s : State) : Host.Outcome State Fault Refusal :=
  if isCore e && (Op.load .ldb t pb a).slotOk 3 && restOk rest then .next (onRun (runBundle e 1 (bundleOf ⟨3, Op.load .ldb t pb a⟩ rest)) s) else .refused .noSuchInstance
/-- LDBU (R306): Load a zero-extended byte. -/
def execLdbu (e : Nat) (t pb : Nat) (a : Addr) (rest : List Syl) (s : State) : Host.Outcome State Fault Refusal :=
  if isCore e && (Op.load .ldbu t pb a).slotOk 3 && restOk rest then .next (onRun (runBundle e 1 (bundleOf ⟨3, Op.load .ldbu t pb a⟩ rest)) s) else .refused .noSuchInstance
/-- LDH (R306): Load a sign-extended halfword. -/
def execLdh (e : Nat) (t pb : Nat) (a : Addr) (rest : List Syl) (s : State) : Host.Outcome State Fault Refusal :=
  if isCore e && (Op.load .ldh t pb a).slotOk 3 && restOk rest then .next (onRun (runBundle e 1 (bundleOf ⟨3, Op.load .ldh t pb a⟩ rest)) s) else .refused .noSuchInstance
/-- LDHU (R306): Load a zero-extended halfword. -/
def execLdhu (e : Nat) (t pb : Nat) (a : Addr) (rest : List Syl) (s : State) : Host.Outcome State Fault Refusal :=
  if isCore e && (Op.load .ldhu t pb a).slotOk 3 && restOk rest then .next (onRun (runBundle e 1 (bundleOf ⟨3, Op.load .ldhu t pb a⟩ rest)) s) else .refused .noSuchInstance
/-- LDW (R306): Load a word. -/
def execLdw (e : Nat) (t pb : Nat) (a : Addr) (rest : List Syl) (s : State) : Host.Outcome State Fault Refusal :=
  if isCore e && (Op.load .ldw t pb a).slotOk 3 && restOk rest then .next (onRun (runBundle e 1 (bundleOf ⟨3, Op.load .ldw t pb a⟩ rest)) s) else .refused .noSuchInstance
/-- LDD (R306): Load a register pair. -/
def execLdd (e : Nat) (t pb : Nat) (a : Addr) (rest : List Syl) (s : State) : Host.Outcome State Fault Refusal :=
  if isCore e && (Op.load .ldd t pb a).slotOk 3 && restOk rest then .next (onRun (runBundle e 1 (bundleOf ⟨3, Op.load .ldd t pb a⟩ rest)) s) else .refused .noSuchInstance
/-- LDP (R306): Load a P register. -/
def execLdp (e : Nat) (t pb : Nat) (a : Addr) (rest : List Syl) (s : State) : Host.Outcome State Fault Refusal :=
  if isCore e && (Op.load .ldp t pb a).slotOk 3 && restOk rest then .next (onRun (runBundle e 1 (bundleOf ⟨3, Op.load .ldp t pb a⟩ rest)) s) else .refused .noSuchInstance
/-- LDA (R306): Load an accumulator image. -/
def execLda (e : Nat) (t pb : Nat) (a : Addr) (rest : List Syl) (s : State) : Host.Outcome State Fault Refusal :=
  if isCore e && (Op.load .lda t pb a).slotOk 3 && restOk rest then .next (onRun (runBundle e 1 (bundleOf ⟨3, Op.load .lda t pb a⟩ rest)) s) else .refused .noSuchInstance
/-- STB (R306): Store a byte. -/
def execStb (e : Nat) (t pb : Nat) (a : Addr) (rest : List Syl) (s : State) : Host.Outcome State Fault Refusal :=
  if isCore e && (Op.store .stb t pb a).slotOk 3 && restOk rest then .next (onRun (runBundle e 1 (bundleOf ⟨3, Op.store .stb t pb a⟩ rest)) s) else .refused .noSuchInstance
/-- STH (R306): Store a halfword. -/
def execSth (e : Nat) (t pb : Nat) (a : Addr) (rest : List Syl) (s : State) : Host.Outcome State Fault Refusal :=
  if isCore e && (Op.store .sth t pb a).slotOk 3 && restOk rest then .next (onRun (runBundle e 1 (bundleOf ⟨3, Op.store .sth t pb a⟩ rest)) s) else .refused .noSuchInstance
/-- STW (R306): Store a word. -/
def execStw (e : Nat) (t pb : Nat) (a : Addr) (rest : List Syl) (s : State) : Host.Outcome State Fault Refusal :=
  if isCore e && (Op.store .stw t pb a).slotOk 3 && restOk rest then .next (onRun (runBundle e 1 (bundleOf ⟨3, Op.store .stw t pb a⟩ rest)) s) else .refused .noSuchInstance
/-- STD (R306): Store a register pair. -/
def execStd (e : Nat) (t pb : Nat) (a : Addr) (rest : List Syl) (s : State) : Host.Outcome State Fault Refusal :=
  if isCore e && (Op.store .std t pb a).slotOk 3 && restOk rest then .next (onRun (runBundle e 1 (bundleOf ⟨3, Op.store .std t pb a⟩ rest)) s) else .refused .noSuchInstance
/-- STP (R306): Store a P register. -/
def execStp (e : Nat) (t pb : Nat) (a : Addr) (rest : List Syl) (s : State) : Host.Outcome State Fault Refusal :=
  if isCore e && (Op.store .stp t pb a).slotOk 3 && restOk rest then .next (onRun (runBundle e 1 (bundleOf ⟨3, Op.store .stp t pb a⟩ rest)) s) else .refused .noSuchInstance
/-- STA (R306): Store an accumulator image. -/
def execSta (e : Nat) (t pb : Nat) (a : Addr) (rest : List Syl) (s : State) : Host.Outcome State Fault Refusal :=
  if isCore e && (Op.store .sta t pb a).slotOk 3 && restOk rest then .next (onRun (runBundle e 1 (bundleOf ⟨3, Op.store .sta t pb a⟩ rest)) s) else .refused .noSuchInstance
/-- LDRX (R310): Load a word and set the reservation on its granule. -/
def execLdrx (e : Nat) (t pb ofs : Nat) (rest : List Syl) (s : State) : Host.Outcome State Fault Refusal :=
  if isCore e && (Op.ldrx t pb ofs).slotOk 3 && restOk rest then .next (onRun (runBundle e 1 (bundleOf ⟨3, Op.ldrx t pb ofs⟩ rest)) s) else .refused .noSuchInstance
/-- STCX (R310): Store a word if the reservation holds, setting Z, and clear the reservation. -/
def execStcx (e : Nat) (t pb ofs : Nat) (rest : List Syl) (s : State) : Host.Outcome State Fault Refusal :=
  if isCore e && (Op.stcx t pb ofs).slotOk 3 && restOk rest then .next (onRun (runBundle e 1 (bundleOf ⟨3, Op.stcx t pb ofs⟩ rest)) s) else .refused .noSuchInstance
/-- AADDM (R309): Atomic fetch and add at memory. -/
def execAaddm (e : Nat) (dd pb ds : Nat) (rest : List Syl) (s : State) : Host.Outcome State Fault Refusal :=
  if isCore e && (Op.atom .aaddm dd pb ds).slotOk 3 && restOk rest then .next (onRun (runBundle e 1 (bundleOf ⟨3, Op.atom .aaddm dd pb ds⟩ rest)) s) else .refused .noSuchInstance
/-- AORM (R309): Atomic fetch and OR at memory. -/
def execAorm (e : Nat) (dd pb ds : Nat) (rest : List Syl) (s : State) : Host.Outcome State Fault Refusal :=
  if isCore e && (Op.atom .aorm dd pb ds).slotOk 3 && restOk rest then .next (onRun (runBundle e 1 (bundleOf ⟨3, Op.atom .aorm dd pb ds⟩ rest)) s) else .refused .noSuchInstance
/-- ASWAP (R309): Atomic swap at memory. -/
def execAswap (e : Nat) (dd pb ds : Nat) (rest : List Syl) (s : State) : Host.Outcome State Fault Refusal :=
  if isCore e && (Op.atom .aswap dd pb ds).slotOk 3 && restOk rest then .next (onRun (runBundle e 1 (bundleOf ⟨3, Op.atom .aswap dd pb ds⟩ rest)) s) else .refused .noSuchInstance
/-- BLKMOV (R323): Micro-routine copying Dn bytes from Ps to Pd. -/
def execBlkmov (e : Nat) (dn ps pd : Nat) (limit : Nat) (rest : List Syl) (s : State) : Host.Outcome State Fault Refusal :=
  if isCore e && (Op.blkmov dn ps pd).slotOk 3 && restOk rest then .next (onRun (runBundle e limit (bundleOf ⟨3, Op.blkmov dn ps pd⟩ rest)) s) else .refused .noSuchInstance
/-- BLKCRC (R324): Micro-routine folding Dn bytes into a CRC. -/
def execBlkcrc (e : Nat) (dc ps dn : Nat) (limit : Nat) (rest : List Syl) (s : State) : Host.Outcome State Fault Refusal :=
  if isCore e && (Op.blkcrc dc ps dn).slotOk 3 && restOk rest then .next (onRun (runBundle e limit (bundleOf ⟨3, Op.blkcrc dc ps dn⟩ rest)) s) else .refused .noSuchInstance
/-- IFLUSH (R339): Discard the instruction copy of a line and the younger fetched bundles. -/
def execIflush (e : Nat) (t pb ofs : Nat) (rest : List Syl) (s : State) : Host.Outcome State Fault Refusal :=
  if isCore e && (Op.iflush t pb ofs).slotOk 3 && restOk rest then .next (onRun (runBundle e 1 (bundleOf ⟨3, Op.iflush t pb ofs⟩ rest)) s) else .refused .noSuchInstance
/-- FENCE (R311): Hold later accesses until every earlier access is complete. -/
def execFence (e : Nat) (rest : List Syl) (s : State) : Host.Outcome State Fault Refusal :=
  if isCore e && (Op.fence).slotOk 3 && restOk rest then .next (onRun (runBundle e 1 (bundleOf ⟨3, Op.fence⟩ rest)) s) else .refused .noSuchInstance

end Sys2Proof.Machine
end

