-- ==== Sys2Proof/Machine/RowsIsolation.lean ====
section
/-! DEFINITION. The commands of tenants (chapter 15). -/

namespace Sys2Proof.Machine

/-- TENANT_REMOVE (R449): Clearing TCFG[t].VALID runs a reference scan and is discarded with 0x7A if references remain. -/
def execTenantRemove (rq : Rq) (t : Nat) (s : State) : Host.Outcome State Fault Refusal :=
  if rq.ok && inBits 9 t then .next (onRun (fieldWriteBy rq (Reg.TENANT.TCFG t) 31 31 0) s) else .refused .noSuchInstance
/-- TENANT_SCAN (R451): CHECK.GO scans all registers and stores for references to a tenant. -/
def execTenantScan (rq : Rq) (t : Nat) (s : State) : Host.Outcome State Fault Refusal :=
  if rq.ok && inBits 9 t then .next (onRun (wordWriteBy rq (Reg.TENANT.CHECK) (2 ^ 31 + t)) s) else .refused .noSuchInstance
/-- SCAN_DONE (R451): The reference scan completes and CHECKRES holds its findings. -/
def execScanDone (s : State) : Host.Outcome State Fault Refusal :=
  .next (onRun (fun s => performHeld (scanDone s)) s)
/-- DW_END (R458): A ring-0 write of DWEND.END ends the episode and raises 0x7C1. -/
def execDwEnd (rq : Rq) (s : State) : Host.Outcome State Fault Refusal :=
  if rq.ok then .next (onRun (wordWriteBy rq (Reg.DEVICE.DWEND) 1) s) else .refused .noSuchInstance

end Sys2Proof.Machine
end

