-- ==== Sys2Proof/Machine/RowsLine.lean ====
section
/-! DEFINITION. The commands of the Pelzia line (chapter 18). -/

namespace Sys2Proof.Machine

/-- CYCLE_START (R527): At each cycle start T_c ports raise CYC, heads send CYCLE, stale slots are marked and the Caliper boundary passes. -/
def execCycleStart (p : Nat) (s : State) : Host.Outcome State Fault Refusal :=
  if isPort p then .next (onDoze (cycleStart p) s) else .refused .noSuchInstance
/-- CYCLE_MISS (R529): No CYCLE frame by T_c + L/2 counts a miss and after 8 sets HEADLOSS. -/
def execCycleMiss (p : Nat) (s : State) : Host.Outcome State Fault Refusal :=
  if isPort p then .next (onDoze (cycleMissed p) s) else .refused .noSuchInstance
/-- FRAME_RECEIVE (R522): A received frame passes format, CRC, key, enrolment and replay checks before reaching its consumer. -/
def execFrameReceive (p : Nat) (ok : Bool) (body : List Nat) (ref chk : Nat) (s : State) : Host.Outcome State Fault Refusal :=
  if isPort p && body.all (inBits 8) then .next (onDoze (frameReceive p ok body ref chk) s) else .refused .noSuchInstance
/-- CYCLE_RECEIVE (R541): An accepted CYCLE frame gives a time offset to the Caliper and delivers its angle records. -/
def execCycleReceive (p : Nat) (s : State) : Host.Outcome State Fault Refusal :=
  if isPort p then .next (onDoze (cycleReceive p) s) else .refused .noSuchInstance
/-- ISO_RECEIVE (R533): An accepted ISO frame is stored in the matching receive slot's buffer half and NOTIFY is raised. -/
def execIsoReceive (p : Nat) (s : State) : Host.Outcome State Fault Refusal :=
  if isPort p then .next (onDoze (isoReceive p) s) else .refused .noSuchInstance
/-- MSG_RECEIVE (R537): An accepted MSG frame is written into a receive message channel's ring. -/
def execMsgReceive (p : Nat) (s : State) : Host.Outcome State Fault Refusal :=
  if isPort p then .next (onDoze (msgReceive p) s) else .refused .noSuchInstance
/-- ACK_RECEIVE (R535): An accepted matching ACK completes a sent message as acknowledged. -/
def execAckReceive (p : Nat) (s : State) : Host.Outcome State Fault Refusal :=
  if isPort p then .next (onDoze (ackReceive p) s) else .refused .noSuchInstance
/-- DLYREQ_RECEIVE (R542): The head stamps an accepted DLYREQ for its reply. -/
def execDlyreqReceive (p : Nat) (s : State) : Host.Outcome State Fault Refusal :=
  if isPort p then .next (onDoze (dlyreqReceive p) s) else .refused .noSuchInstance
/-- DLYRSP_RECEIVE (R542): A member computes the path delay from an accepted DLYRSP and updates D. -/
def execDlyrspReceive (p : Nat) (s : State) : Host.Outcome State Fault Refusal :=
  if isPort p then .next (onDoze (dlyrspReceive p) s) else .refused .noSuchInstance
/-- POLL_RECEIVE (R548): An awake port or the link keeper accepts a POLL and schedules a PRESENT answer. -/
def execPollReceive (p : Nat) (body : List Nat) (at_ : Nat) (s : State) : Host.Outcome State Fault Refusal :=
  if isPort p && body.all (inBits 8) then .next (pollHeard p body at_ s) else .refused .noSuchInstance
/-- PRESENT_RECEIVE (R546): An accepted PRESENT frame is delivered to T0's message channel. -/
def execPresentReceive (p : Nat) (s : State) : Host.Outcome State Fault Refusal :=
  if isPort p then .next (onDoze (presentReceive p) s) else .refused .noSuchInstance
/-- WAKE_FRAME (R548): An accepted WAKE frame in WATCH starts the device's wake with cause LINE. -/
def execWakeFrame (body : List Nat) (s : State) : Host.Outcome State Fault Refusal :=
  if body.all (inBits 8) then .next (wakeFrame body s) else .refused .noSuchInstance
/-- SLOT_READ_START (R531): 4 µs before launch a transmit slot latches HALF and starts reading its buffer. -/
def execSlotReadStart (p k : Nat) (s : State) : Host.Outcome State Fault Refusal :=
  if isPort p && below 8 k then .next (onDoze (slotReadStart p k) s) else .refused .noSuchInstance
/-- SLOT_LAUNCH (R531): At launch time a transmit slot sends its ISO frame, or counts SLOTMISS if the data has not arrived. -/
def execSlotLaunch (p k : Nat) (s : State) : Host.Outcome State Fault Refusal :=
  if isPort p && below 8 k then .next (onDoze (slotLaunch p k) s) else .refused .noSuchInstance
/-- CONTENTION_SEND (R534): When its backoff count expires in an open window a port sends its next contention frame. -/
def execContentionSend (p at_ : Nat) (s : State) : Host.Outcome State Fault Refusal :=
  if isPort p then .next (onDoze (contentionSend p at_) s) else .refused .noSuchInstance
/-- ACK_TIMEOUT (R535): A missing acknowledgement causes a retry with larger backoff, or failure with COLL after RETRY. -/
def execAckTimeout (p : Nat) (s : State) : Host.Outcome State Fault Refusal :=
  if isPort p then .next (onDoze (ackTimeout p) s) else .refused .noSuchInstance
/-- ACK_SEND (R535): GAP after an addressed frame requesting it, the receiver launches an ACK. -/
def execAckSend (p : Nat) (s : State) : Host.Outcome State Fault Refusal :=
  if isPort p then .next (onDoze (ackSend p) s) else .refused .noSuchInstance
/-- DLYRSP_SEND (R542): GAP after a DLYREQ the head launches DLYRSP carrying t2 and t3. -/
def execDlyrspSend (p : Nat) (s : State) : Host.Outcome State Fault Refusal :=
  if isPort p then .next (onDoze (dlyrspSend p) s) else .refused .noSuchInstance
/-- DLYREQ_DUE (R542): Every DLYINT cycles a member queues a DLYREQ to its head. -/
def execDlyreqDue (p : Nat) (s : State) : Host.Outcome State Fault Refusal :=
  if isPort p then .next (onDoze (dlyreqDue p) s) else .refused .noSuchInstance
/-- PRESENT_SEND (R548): After its delay the port or keeper launches the PRESENT answer to a POLL. -/
def execPresentSend (p : Nat) (s : State) : Host.Outcome State Fault Refusal :=
  if isPort p then .next (presentAnswer p s) else .refused .noSuchInstance
/-- KEY_LOAD (R552): KCMD LOAD copies KEYIN into a key entry, sets VALID and clears KEYIN. -/
def execKeyLoad (rq : Rq) (ix : Nat) (s : State) : Host.Outcome State Fault Refusal :=
  if rq.ok && below 64 ix then .next (onRun (wordWriteBy rq (Reg.LINEKEY.KCMD) (2 ^ 31 + ix)) s) else .refused .noSuchInstance
/-- KEY_ERASE (R552): KCMD ERASE zeroes a key entry and clears VALID and TXUSE. -/
def execKeyErase (rq : Rq) (ix : Nat) (s : State) : Host.Outcome State Fault Refusal :=
  if rq.ok && below 64 ix then .next (onRun (wordWriteBy rq (Reg.LINEKEY.KCMD) (2 ^ 31 + 2 ^ 29 + ix)) s) else .refused .noSuchInstance
/-- KEY_TXUSE (R521): Setting TXUSE on a key entry clears TXUSE on the owner's other entries. -/
def execKeyTxuse (rq : Rq) (ix : Nat) (s : State) : Host.Outcome State Fault Refusal :=
  if rq.ok && below 64 ix then .next (onRun (fieldWriteBy rq (Reg.LINEKEY.KCTL ix) 28 28 1) s) else .refused .noSuchInstance
/-- DLYRSP_TIMEOUT (R542): A DLYRSP not received within GAP + 12 µs of its DLYREQ is skipped and the pending delay exchange ends. -/
def execDlyrspTimeout (p : Nat) (s : State) : Host.Outcome State Fault Refusal :=
  if isPort p then .next (onDoze (dlyrspTimeout p) s) else .refused .noSuchInstance

end Sys2Proof.Machine
end

