-- ==== Sys2Proof/Machine/RowsMaquettes.lean ====
section
/-! DEFINITION. The commands of the Maquettes (chapter 09). -/

namespace Sys2Proof.Machine

/-- INTAKE_DELIVER (R253): The intake queue delivers one copy of its head word per CCLK to each matching job's input ring. -/
def execIntakeDeliver (p : Nat) (s : State) : Host.Outcome State Fault Refusal :=
  if isMaq p then .next (onRun (intakeDeliver p) s) else .refused .noSuchInstance
/-- JOB_ENABLE (R256): Setting JCTL.EN validates and latches the job descriptor, clears state and seeds the resampler. -/
def execJobEnable (rq : Rq) (p k : Nat) (s : State) : Host.Outcome State Fault Refusal :=
  if rq.ok && isMaq p && below 32 k then .next (onRun (fieldWriteBy rq (Reg.MAQ.JCTL p k) 31 31 1) s) else .refused .noSuchInstance
/-- JOB_STOP (R284): JCTL.STOP clears EN at the next quantum boundary, abandoning the job's block work. -/
def execJobStop (rq : Rq) (p k : Nat) (s : State) : Host.Outcome State Fault Refusal :=
  if rq.ok && isMaq p && below 32 k then .next (onRun (fieldWriteBy rq (Reg.MAQ.JCTL p k) 0 0 1) s) else .refused .noSuchInstance
/-- JOB_RESEED (R284): JCTL.RESEED reseeds the job's resampler without clearing its counters or limit states. -/
def execJobReseed (rq : Rq) (p k : Nat) (s : State) : Host.Outcome State Fault Refusal :=
  if rq.ok && isMaq p && below 32 k then .next (onRun (fieldWriteBy rq (Reg.MAQ.JCTL p k) 1 1 1) s) else .refused .noSuchInstance
/-- STREAM_PROCESS (R282): The datapath resamples a kept copy, forms grid points and runs the streaming stages. -/
def execStreamProcess (p k : Nat) (s : State) : Host.Outcome State Fault Refusal :=
  if isMaq p && below 32 k then .next (onRun (streamProcess p k) s) else .refused .noSuchInstance
/-- BLOCK_WORK (R282): At a quantum boundary the datapath runs windows, FFTs, statistics, features and limits of a complete record. -/
def execBlockWork (p : Nat) (s : State) : Host.Outcome State Fault Refusal :=
  if isMaq p then .next (onRun (blockWork p) s) else .refused .noSuchInstance
/-- FRAME_COMPLETE (R280): When a frame's last byte is written, FRWR increments and the frame event is raised. -/
def execFrameComplete (p : Nat) (s : State) : Host.Outcome State Fault Refusal :=
  if isMaq p then .next (onRun (frameComplete p) s) else .refused .noSuchInstance
/-- FRRD_WRITE (R281): A software write of FRRD frees frame entries, or is refused with 0x53 if out of range. -/
def execFrrdWrite (rq : Rq) (p k value : Nat) (s : State) : Host.Outcome State Fault Refusal :=
  if rq.ok && isMaq p && below 32 k && inBits 32 value then .next (onRun (wordWriteBy rq (Reg.MAQ.FRRD p k) value) s) else .refused .noSuchInstance
/-- MAQ_DISABLE (R284): Clearing MAQ PAGE_CTRL.EN empties the intake queue and abandons block work. -/
def execMaqDisable (rq : Rq) (p : Nat) (s : State) : Host.Outcome State Fault Refusal :=
  if rq.ok && isMaq p then .next (onRun (fieldWriteBy rq (Reg.MAQ.page p + 8) 0 0 0) s) else .refused .noSuchInstance
/-- LOAD_UPDATE (R283): At the end of each millisecond of device time LOAD takes the datapath's busy count. -/
def execLoadUpdate (p : Nat) (s : State) : Host.Outcome State Fault Refusal :=
  if isMaq p then .next (onRun (loadUpdate p) s) else .refused .noSuchInstance

end Sys2Proof.Machine
end

