-- ==== Sys2Proof/Machine/RowsMemory.lean ====
section
/-! DEFINITION. The commands of translation and memory (chapters 12 and 13). -/

namespace Sys2Proof.Machine

/-- INVALIDATE_ADDRESS (R385): INVCMD OP 0b00 removes a tenant's TLB entries covering INVVA. -/
def execInvalidateAddress (rq : Rq) (t : Nat) (s : State) : Host.Outcome State Fault Refusal :=
  if rq.ok && inBits 9 t then .next (onRun (wordWriteBy rq (Reg.MMU.INVCMD) (2 ^ 31 + t)) s) else .refused .noSuchInstance
/-- INVALIDATE_TENANT (R385): INVCMD OP 0b01 removes every TLB entry of a tenant. -/
def execInvalidateTenant (rq : Rq) (t : Nat) (s : State) : Host.Outcome State Fault Refusal :=
  if rq.ok && inBits 9 t then .next (onRun (wordWriteBy rq (Reg.MMU.INVCMD) (2 ^ 31 + 2 ^ 24 + t)) s) else .refused .noSuchInstance
/-- INVALIDATE_ALL (R385): INVCMD OP 0b10 removes every TLB entry. -/
def execInvalidateAll (rq : Rq) (s : State) : Host.Outcome State Fault Refusal :=
  if rq.ok then .next (onRun (wordWriteBy rq (Reg.MMU.INVCMD) (2 ^ 31 + 2 * 2 ^ 24)) s) else .refused .noSuchInstance
/-- INVALIDATE_DONE (R385): An invalidation completes when covered entries are gone and their accesses performed; DONE increments. -/
def execInvalidateDone (s : State) : Host.Outcome State Fault Refusal :=
  .next (onRun (fun s => performHeld (invDone s)) s)
/-- ROOT_WRITE (R387): A ROOT[t] write changing BASE or VALID issues a tenant invalidation. -/
def execRootWrite (rq : Rq) (t value : Nat) (s : State) : Host.Outcome State Fault Refusal :=
  if rq.ok && inBits 9 t && inBits 32 value then .next (onRun (wordWriteBy rq (Reg.MMU.ROOT t) value) s) else .refused .noSuchInstance
/-- ECC_LOG_POP (R411): A read of ECC LOG2 pops the log. -/
def execEccLogPop (rq : Rq) (s : State) : Host.Outcome State Fault Refusal :=
  if rq.ok then .next (onRun (wordReadBy rq (Reg.ECC.LOG2)) s) else .refused .noSuchInstance
/-- SCRUB_BURST (R400): Every SINTV CCLK the SRAM walker scrubs a burst of 64 words. -/
def execScrubBurst (s : State) : Host.Outcome State Fault Refusal :=
  .next (onRun scrubBurst s)
/-- SWEEP_START (R402): A queued sweep of a bank with an error begins scrubbing it continuously. -/
def execSweepStart (s : State) : Host.Outcome State Fault Refusal :=
  .next (onRun (fun s => slowRefresh (sweepStart s)) s)
/-- SWEEP_END (R402): A sweep finishes its bank and its BANKSTAT bit clears. -/
def execSweepEnd (s : State) : Host.Outcome State Fault Refusal :=
  .next (onRun (fun s => slowRefresh (sweepEnd s)) s)
/-- DRAM_SCRUB_LINE (R403): Every DINTV CCLK the DRAM walker reads one line and rewrites it if corrected. -/
def execDramScrubLine (s : State) : Host.Outcome State Fault Refusal :=
  .next (onRun dramScrub s)
/-- SRAM_FILL (R404): At the Rasp's release it checks itself, fills and verifies all SRAM. -/
def execSramFill (bad : List (Nat × Nat)) (s : State) : Host.Outcome State Fault Refusal :=
  if bad.all (fun w => inBits 40 w.1 && inBits 8 w.2) then .next (onRun (sramFill bad) s) else .refused .noSuchInstance
/-- FILL_DONE (R404): SDONE is set at the end of the verify read and cores may be released. -/
def execFillDone (bootmode : Nat) (s : State) : Host.Outcome State Fault Refusal :=
  if inBits 2 bootmode then .next (onRun (fillRelease bootmode) s) else .refused .noSuchInstance
/-- DRAM_ENABLE (R398): Setting DRAM PAGE_CTRL.EN starts LPDDR4 initialisation and training. -/
def execDramEnable (rq : Rq) (s : State) : Host.Outcome State Fault Refusal :=
  if rq.ok then .next (onRun (fieldWriteBy rq (Reg.DRAM.page + 8) 0 0 1) s) else .refused .noSuchInstance
/-- TRAINING_DONE (R398): Training completes, TRAINED is set and the background fill begins. -/
def execTrainingDone (ok : Bool) (s : State) : Host.Outcome State Fault Refusal :=
  .next (onRun (trainingDone ok) s)
/-- DRAM_FILL_REGION (R406): The Rasp finishes filling a 256-block region, releasing stalled accesses, and takes the next. -/
def execDramFillRegion (s : State) : Host.Outcome State Fault Refusal :=
  .next (onRun (fun s => performHeld (dramFillRegion s)) s)
/-- RASP_CLEAR (R407): CLRCTL.GO starts clearing a memory range, or is refused with 0x75. -/
def execRaspClear (rq : Rq) (s : State) : Host.Outcome State Fault Refusal :=
  if rq.ok then .next (onRun (fieldWriteBy rq (Reg.RASP.CLRCTL) 0 0 1) s) else .refused .noSuchInstance
/-- CLEAR_DONE (R407): The last word of a clear is written, BUSY clears and CLRDONE is set. -/
def execClearDone (s : State) : Host.Outcome State Fault Refusal :=
  .next (onRun (fun s => performHeld (clearDone s)) s)

end Sys2Proof.Machine
end

