-- ==== Sys2Proof/Machine/RowsMessages.lean ====
section
/-! DEFINITION. The commands of mailboxes, doorbells and locks (chapter 16). -/

namespace Sys2Proof.Machine

/-- MBOX_STAGE (R471): A write to DATA_LO stores the requester's staging copy. -/
def execMboxStage (rq : Rq) (m value : Nat) (s : State) : Host.Outcome State Fault Refusal :=
  if rq.ok && below 256 m && inBits 32 value then .next (onRun (wordWriteBy rq (Reg.MBOX.DATA_LO (m / 32) (m % 32)) value) s) else .refused .noSuchInstance
/-- MBOX_PUSH (R472): A write to DATA_HI pushes a message, raising NOTIFY and flagging crossings, or drops it when full. -/
def execMboxPush (rq : Rq) (m value : Nat) (s : State) : Host.Outcome State Fault Refusal :=
  if rq.ok && below 256 m && inBits 32 value then .next (onRun (wordWriteBy rq (Reg.MBOX.DATA_HI (m / 32) (m % 32)) value) s) else .refused .noSuchInstance
/-- MBOX_POP (R471): A read of DATA_HI, or an aligned 64-bit read, returns and pops the head message. -/
def execMboxPop (rq : Rq) (m : Nat) (wide : Bool) (s : State) : Host.Outcome State Fault Refusal :=
  if rq.ok && below 256 m then .next (onRun (fun s => if wide then answered (busAccess rq 1 (Reg.MBOX.DATA_LO (m / 32) (m % 32)) 8 none s) else wordReadBy rq (Reg.MBOX.DATA_HI (m / 32) (m % 32)) s) s) else .refused .noSuchInstance
/-- MBOX_CONFIG (R476): A CFG write changing EN, X12, SNDT or RCVT empties the channel. -/
def execMboxConfig (rq : Rq) (m value : Nat) (s : State) : Host.Outcome State Fault Refusal :=
  if rq.ok && below 256 m && inBits 32 value then .next (onRun (wordWriteBy rq (Reg.MBOX.CFG (m / 32) (m % 32)) value) s) else .refused .noSuchInstance
/-- DOORBELL_RING (R479): A permitted write to RING raises event 0x800 + d and counts the ring. -/
def execDoorbellRing (rq : Rq) (d : Nat) (s : State) : Host.Outcome State Fault Refusal :=
  if rq.ok && below 1024 d then .next (onRun (wordWriteBy rq (Reg.DBELL.RING (d / 256) (d % 256)) 1) s) else .refused .noSuchInstance
/-- LOCK_ACQUIRE (R482): A read of LOCK[k] acquires a free lock or returns the holder. -/
def execLockAcquire (rq : Rq) (k : Nat) (s : State) : Host.Outcome State Fault Refusal :=
  if rq.ok && below 64 k then .next (onRun (wordReadBy rq (Reg.LOCK.LOCK k)) s) else .refused .noSuchInstance
/-- LOCK_RELEASE (R482): A write by the holding agent releases the lock; others are refused with 0x82. -/
def execLockRelease (rq : Rq) (k value : Nat) (s : State) : Host.Outcome State Fault Refusal :=
  if rq.ok && below 64 k && inBits 32 value then .next (onRun (wordWriteBy rq (Reg.LOCK.LOCK k) value) s) else .refused .noSuchInstance
/-- LOCK_FORCE (R484): A ring-0 debug write of FORCE.GO releases lock INDEX and sets FORCED. -/
def execLockForce (k : Nat) (s : State) : Host.Outcome State Fault Refusal :=
  if below 64 k then .next (onDoze (dbgWriteBy Reg.LOCK.FORCE (2 ^ 31 + k)) s) else .refused .noSuchInstance
/-- LOCK_CONFIG (R483): A LOCKCFG write changing TENANT or VALID releases the lock. -/
def execLockConfig (rq : Rq) (k value : Nat) (s : State) : Host.Outcome State Fault Refusal :=
  if rq.ok && below 64 k && inBits 32 value then .next (onRun (wordWriteBy rq (Reg.LOCK.LOCKCFG k) value) s) else .refused .noSuchInstance

end Sys2Proof.Machine
end

