-- ==== Sys2Proof/Machine/RowsPages.lean ====
section
/-! DEFINITION. The commands of the register pages and events (chapters 01 and 02). -/

namespace Sys2Proof.Machine

/-- REGISTER_WRITE (R22): A write to a register field that has no row of its own stores, clears, sets or is ignored according to its access class. -/
def execRegisterWrite (rq : Rq) (addr size value : Nat) (s : State) : Host.Outcome State Fault Refusal :=
  if rq.ok && isRegAddr addr && (size == 1 || size == 2 || size == 4 || size == 8) && inBits (8 * size) value then .next (onRun (fun s => answered (busAccess rq 1 addr size (some value) s)) s) else .refused .noSuchInstance
/-- RC_READ (R22): A read of an RC field returns the field and then clears it. -/
def execRcRead (rq : Rq) (addr : Nat) (s : State) : Host.Outcome State Fault Refusal :=
  if rq.ok && isRegAddr addr then .next (onRun (wordReadBy rq addr) s) else .refused .noSuchInstance
/-- PAGE_STAT_CLEAR (R30): Writing 1 to a W1C PAGE_STAT bit clears it; clearing ERR also clears PAGE_ERR VALID and MORE. -/
def execPageStatClear (rq : Rq) (page bits : Nat) (s : State) : Host.Outcome State Fault Refusal :=
  if rq.ok && isPage page && inBits 32 bits then .next (onRun (wordWriteBy rq (page + 0xC) bits) s) else .refused .noSuchInstance
/-- IRQ_SET (R29): A write to PAGE_IRQSET sets PAGE_STAT bits exactly as a hardware set would. -/
def execIrqSet (rq : Rq) (page bits : Nat) (s : State) : Host.Outcome State Fault Refusal :=
  if rq.ok && isPage page && inBits 32 bits then .next (onRun (wordWriteBy rq (page + 0x14) bits) s) else .refused .noSuchInstance
/-- IRQ_ENABLE_WRITE (R29): A write that takes a PAGE_IRQEN bit from 0 to 1 while its PAGE_STAT bit is 1 raises the page event. -/
def execIrqEnableWrite (rq : Rq) (page value : Nat) (s : State) : Host.Outcome State Fault Refusal :=
  if rq.ok && isPage page && inBits 32 value then .next (onRun (wordWriteBy rq (page + 0x10) value) s) else .refused .noSuchInstance
/-- COMMIT_NOW (R25): PAGE_COMMIT.NOW copies every SH field of the page from shadow to live at the next CCLK edge. -/
def execCommitNow (rq : Rq) (page : Nat) (s : State) : Host.Outcome State Fault Refusal :=
  if rq.ok && isPage page then .next (onRun (fieldWriteBy rq (page + 0x1C) 0 0 1) s) else .refused .noSuchInstance
/-- COMMIT_ARM (R26): PAGE_COMMIT.ARM requests a shadow-to-live transfer at the block's next boundary and sets PENDING. -/
def execCommitArm (rq : Rq) (page : Nat) (s : State) : Host.Outcome State Fault Refusal :=
  if rq.ok && isPage page then .next (onRun (fieldWriteBy rq (page + 0x1C) 1 1 1) s) else .refused .noSuchInstance
/-- COMMIT_DISARM (R26): PAGE_COMMIT.DISARM cancels a pending ARM request and clears PENDING. -/
def execCommitDisarm (rq : Rq) (page : Nat) (s : State) : Host.Outcome State Fault Refusal :=
  if rq.ok && isPage page then .next (onRun (fieldWriteBy rq (page + 0x1C) 2 2 1) s) else .refused .noSuchInstance
/-- SOFT_RESET (R28): PAGE_CTRL.SRST returns the block registers and internal state to reset values and holds accesses while BUSY is 1. -/
def execSoftReset (rq : Rq) (page : Nat) (s : State) : Host.Outcome State Fault Refusal :=
  if rq.ok && isPage page then .next (onRun (fieldWriteBy rq (page + 8) 1 1 1) s) else .refused .noSuchInstance
/-- SOFT_RESET_DONE (R28): After 16 CCLK BUSY returns to 0 and accesses held by the page are performed. -/
def execSoftResetDone (page : Nat) (s : State) : Host.Outcome State Fault Refusal :=
  if isPage page then .next (onRun (softResetDone page) s) else .refused .noSuchInstance
/-- SET_PWRPOL (R27): A write of PAGE_CTRL.PWRPOL changes the block's local power policy; OFF removes power and loses the block state. -/
def execSetPwrpol (rq : Rq) (page pol : Nat) (s : State) : Host.Outcome State Fault Refusal :=
  if rq.ok && isPage page && inBits 2 pol then .next (onRun (fieldWriteBy rq (page + 8) 5 4 pol) s) else .refused .noSuchInstance
/-- BLOCK_RELEASE (R588): When a block leaves PWRPOL OFF and its memories are filled, its registers are released and the block resumes if EN is 1. -/
def execBlockRelease (page : Nat) (s : State) : Host.Outcome State Fault Refusal :=
  if isPage page then .next (onRun (blockRelease page) s) else .refused .noSuchInstance
/-- CHANGE_OWNER (R37): A ring-0 write that changes PAGE_OWNER.TENANT soft-resets the page, clears PAGE_IRQEN and sets the new owner. -/
def execChangeOwner (rq : Rq) (page t : Nat) (s : State) : Host.Outcome State Fault Refusal :=
  if rq.ok && isPage page && inBits 9 t then .next (onRun (fieldWriteBy rq (page + 4) 8 0 t) s) else .refused .noSuchInstance
/-- OWNER_CHANGE_DONE (R37): After 18 CCLK the ownership change completes and held accesses of the new owner proceed. -/
def execOwnerChangeDone (page : Nat) (s : State) : Host.Outcome State Fault Refusal :=
  if isPage page then .next (onRun (ownerChangeDone page) s) else .refused .noSuchInstance
/-- EVT_RAISE (R65): A write to EVT.RAISE[k] raises every software event whose bit is set, in one cycle. -/
def execEvtRaise (rq : Rq) (k bits : Nat) (s : State) : Host.Outcome State Fault Refusal :=
  if rq.ok && below 64 k && inBits 32 bits then .next (onRun (wordWriteBy rq (Reg.EVT.RAISE k) bits) s) else .refused .noSuchInstance
/-- EVENT_ARRIVAL (R661): An event reaches its consumers after its delivery delay and increments task input counters, triggers sequencers and starts other consumers. -/
def execEventArrival (s : State) : Host.Outcome State Fault Refusal :=
  .next (onDoze eventArrival s)
/-- MODE_WRITE (R52): A write to CHAN[c].MODE changes the channel mode while EN is 0, clears enables the new mode does not allow, or updates LATSEQ alone. -/
def execModeWrite (rq : Rq) (c value : Nat) (s : State) : Host.Outcome State Fault Refusal :=
  if rq.ok && isChannel c && inBits 32 value then .next (onRun (wordWriteBy rq (Reg.CHAN.MODE c) value) s) else .refused .noSuchInstance

end Sys2Proof.Machine
end

