-- ==== Sys2Proof/Machine/RowsPlacement.lean ====
section
/-! DEFINITION. The commands of the Armature (chapter 14). -/

namespace Sys2Proof.Machine

/-- ARM_SUBMIT (R417): SUBMIT checks, admits and places a task or Maquette job, or refuses it with a result code. -/
def execArmSubmit (s : State) : Host.Outcome State Fault Refusal :=
  .next (onRun armSubmit s)
/-- ARM_WITHDRAW (R440): WITHDRAW removes a task and releases its slot, memory, mappings and routes. -/
def execArmWithdraw (s : State) : Host.Outcome State Fault Refusal :=
  .next (onRun armWithdraw s)
/-- ARM_QUERY (R415): QUERY loads RESULT and RINFO with the state of a task. -/
def execArmQuery (s : State) : Host.Outcome State Fault Refusal :=
  .next (onRun armQuery s)
/-- ARM_RESTART (R439): RESTART re-enables a FAILED task in its existing placement. -/
def execArmRestart (s : State) : Host.Outcome State Fault Refusal :=
  .next (onRun armRestart s)
/-- ARM_CTXSET (R420): CTXSET stores the tenant's context template. -/
def execArmCtxset (s : State) : Host.Outcome State Fault Refusal :=
  .next (onRun armCtxset s)
/-- ARM_UNKNOWN_OP (R415): A command with an unknown OP completes with code 0x01. -/
def execArmUnknownOp (s : State) : Host.Outcome State Fault Refusal :=
  .next (onRun armUnknownOp s)
/-- ARM_COMMAND_DONE (R415): The requester's command completes and its RESULT becomes readable. -/
def execArmCommandDone (s : State) : Host.Outcome State Fault Refusal :=
  .next (onRun (fun s => performHeld (armCommandDone s)) s)
/-- ENGINE_RETIRE (R435): A write to RETIRE or AVOID makes engines or plinths slow from that edge. -/
def execEngineRetire (rq : Rq) (k value : Nat) (s : State) : Host.Outcome State Fault Refusal :=
  if rq.ok && below 4 k && inBits 32 value then .next (onRun (wordWriteBy rq (if k < 3 then Reg.ARM1.RETIRE k else Reg.ARM1.AVOID) value) s) else .refused .noSuchInstance
/-- SLOW_DETECT (R435): Throttling or a sweep lasting SLOWT µs makes an engine or plinth slow. -/
def execSlowDetect (k : Nat) (s : State) : Host.Outcome State Fault Refusal :=
  if below 352 k then .next (onRun (slowDetect k) s) else .refused .noSuchInstance
/-- MIGRATION_START (R437): The Armature diverts a floating task's routes and waits for its activation to end. -/
def execMigrationStart (e : Nat) (s : State) : Host.Outcome State Fault Refusal :=
  if isEngine e then .next (onRun (migrationStart e) s) else .refused .noSuchInstance
/-- MIGRATION_DONE (R437): After copy and remapping the task is enabled on its new engine and MIGRATED is reported. -/
def execMigrationDone (e : Nat) (s : State) : Host.Outcome State Fault Refusal :=
  if isEngine e then .next (onRun (migrationDone e) s) else .refused .noSuchInstance
/-- REPORT_POP (R445): A read of ARM[3].REP3 pops the report queue. -/
def execReportPop (rq : Rq) (s : State) : Host.Outcome State Fault Refusal :=
  if rq.ok then .next (onRun (wordReadBy rq (Reg.ARM3.REP3)) s) else .refused .noSuchInstance

end Sys2Proof.Machine
end

