-- ==== Sys2Proof/Machine/RowsPort.lean ====
section
/-! DEFINITION. The commands of the host ports (chapter 21). -/

namespace Sys2Proof.Machine

/-- TXKICK (R606): TXKICK makes the transmit side read its head descriptor again. -/
def execTxkick (rq : Rq) (n : Nat) (s : State) : Host.Outcome State Fault Refusal :=
  if rq.ok && below 2 n then .next (onRun (wordWriteBy rq (Reg.ETH.TXKICK n) 1) s) else .refused .noSuchInstance
/-- ETH_TX_DONE (R606): A transmitted frame's descriptor is written back and NOTE.TXID is raised. -/
def execEthTxDone (n sfd done : Nat) (s : State) : Host.Outcome State Fault Refusal :=
  if below 2 n then .next (onRun (ethTxDone n sfd done) s) else .refused .noSuchInstance
/-- ETH_RX_FRAME (R606): A received frame passing the filter and FCS is stamped and stored in the head descriptor, or dropped. -/
def execEthRxFrame (n : Nat) (bytes : List Nat) (fcs : Bool) (sfd done : Nat) (s : State) : Host.Outcome State Fault Refusal :=
  if below 2 n && bytes.all (inBits 8) then .next (onRun (ethRxFrame n bytes fcs sfd done) s) else .refused .noSuchInstance
/-- MDIO_TRANSFER (R609): MDIO.GO starts a clause-22 transfer. -/
def execMdioTransfer (rq : Rq) (read : Bool) (phy reg data : Nat) (s : State) : Host.Outcome State Fault Refusal :=
  if rq.ok && inBits 5 phy && inBits 5 reg && inBits 16 data then .next (onRun (wordWriteBy rq (Reg.ETH.MDIO 0) (2 ^ 31 + b2n read * 2 ^ 29 + phy * 2 ^ 21 + reg * 2 ^ 16 + data)) s) else .refused .noSuchInstance
/-- MDIO_DONE (R609): A clause-22 transfer completes and BUSY clears. -/
def execMdioDone (data : Nat) (s : State) : Host.Outcome State Fault Refusal :=
  if inBits 16 data then .next (onRun (mdioDone data) s) else .refused .noSuchInstance
/-- HSPI_WRITE (R611): Host WRITE queues word writes to registers or the memory window. -/
def execHspiWrite (addr : Nat) (words : List Word) (s : State) : Host.Outcome State Fault Refusal :=
  if inBits 40 addr then .next (hspiOn (hspiWriteCmd addr words) s) else .refused .noSuchInstance
/-- HSPI_READ (R611): Host READ returns N words, each after wait bytes and a marker. -/
def execHspiRead (addr n : Nat) (s : State) : Host.Outcome State Fault Refusal :=
  if inBits 40 addr && inBits 8 n then .next (hspiOn (hspiReadCmd addr n) s) else .refused .noSuchInstance
/-- HSPI_STATUS (R611): Host STATUS returns the status byte and clears WERR and WOVF. -/
def execHspiStatus (s : State) : Host.Outcome State Fault Refusal :=
  .next (hspiOn hspiStatusCmd s)
/-- HSPI_IRQACK (R611): Host IRQACK clears masked HOSTIRQ bits. -/
def execHspiIrqack (mask : Nat) (s : State) : Host.Outcome State Fault Refusal :=
  if inBits 32 mask then .next (hspiOn (hspiAck mask) s) else .refused .noSuchInstance
/-- HSPI_BOOTLOAD (R613): Host BOOTLOAD pushes words into the boot queue. -/
def execHspiBootload (words : List Word) (s : State) : Host.Outcome State Fault Refusal :=
  .next (hspiOn (hspiBoot words) s)
/-- HSPI_WRITE_PERFORM (R612): A queued host write is performed on the fabric. -/
def execHspiWritePerform (s : State) : Host.Outcome State Fault Refusal :=
  .next (onRun hspiPerform s)
/-- BOOTDATA_POP (R614): A read of HSPI.BOOTDATA pops the boot queue. -/
def execBootdataPop (s : State) : Host.Outcome State Fault Refusal :=
  .next (onRun bootPop s)
/-- QSPI_TRANSFER (R616): XCTL.GO starts a flash transfer, or is refused with 0xAB while busy. -/
def execQspiTransfer (rq : Rq) (value : Nat) (s : State) : Host.Outcome State Fault Refusal :=
  if rq.ok && inBits 30 value then .next (onRun (wordWriteBy rq (Reg.QSPI.XCTL) (2 ^ 31 + value)) s) else .refused .noSuchInstance
/-- QSPI_DONE (R616): CS_N rises at the end of a transfer, BUSY clears and DONE is set. -/
def execQspiDone (bytes : List Nat) (s : State) : Host.Outcome State Fault Refusal :=
  if bytes.all (inBits 8) then .next (onRun (qspiDone bytes) s) else .refused .noSuchInstance
/-- GPIO_SET (R618): A write to SET sets OUT bits. -/
def execGpioSet (rq : Rq) (pins : Nat) (s : State) : Host.Outcome State Fault Refusal :=
  if rq.ok && inBits 32 pins then .next (onRun (wordWriteBy rq (Reg.GPIO.SET) pins) s) else .refused .noSuchInstance
/-- GPIO_CLR (R618): A write to CLR clears OUT bits. -/
def execGpioClr (rq : Rq) (pins : Nat) (s : State) : Host.Outcome State Fault Refusal :=
  if rq.ok && inBits 32 pins then .next (onRun (wordWriteBy rq (Reg.GPIO.CLR) pins) s) else .refused .noSuchInstance
/-- GPIO_EDGE (R617): A synchronised input edge of the selected polarity sets EDGE and raises its event. -/
def execGpioEdge (pins : Nat) (s : State) : Host.Outcome State Fault Refusal :=
  if inBits 32 pins then .next (onRun (gpioEdge pins) s) else .refused .noSuchInstance

end Sys2Proof.Machine
end

