-- ==== Sys2Proof/Machine/RowsPower.lean ====
section
/-! DEFINITION. The commands of power, reset and boot (chapter 20). -/

namespace Sys2Proof.Machine

/-- POWER_ON (R594): PORST_N rising releases the always-on island and starts start-up. -/
def execPowerOn (xmode : Bool) (s : State) : Host.Outcome State Fault Refusal :=
  .next (powerOn xmode s)
/-- CORE_ENABLE (R594): At 33 island ticks CORE_EN rises. -/
def execCoreEnable (s : State) : Host.Outcome State Fault Refusal :=
  .next (coreEnable s)
/-- IO_ENABLE (R577): 100 µs after VCORE is good IO_EN rises. -/
def execIoEnable (good : Nat) (s : State) : Host.Outcome State Fault Refusal :=
  .next (ioEnable good s)
/-- RAILS_GOOD (R594): All monitors report good and the 25 MHz oscillator starts. -/
def execRailsGood (t : Nat) (s : State) : Host.Outcome State Fault Refusal :=
  .next (railsGood t s)
/-- OSC_VALID (R594): After 1,024 gapless edges the oscillator is valid and PLL0 starts locking. -/
def execOscValid (t : Nat) (s : State) : Host.Outcome State Fault Refusal :=
  .next (oscValid t s)
/-- PLL_LOCK (R594): PLL0 locks and the fuses are read. -/
def execPllLock (t : Nat) (s : State) : Host.Outcome State Fault Refusal :=
  .next (pllLock t s)
/-- FUSE_READ_DONE (R594): The fuse read completes and the Rasp is released. -/
def execFuseReadDone (s : State) : Host.Outcome State Fault Refusal :=
  .next (fuseReadDone s)
/-- BOOT_IMAGE_LOAD (R595): The boot ROM reads an image from the selected source. -/
def execBootImageLoad (bytes : List Nat) (s : State) : Host.Outcome State Fault Refusal :=
  if bytes.all (inBits 8) then .next (onRun (bootLoad bytes) s) else .refused .noSuchInstance
/-- IMAGE_VERIFY (R596): A loaded image is checked and booted, or the next source is tried, or boot fails. -/
def execImageVerify (s : State) : Host.Outcome State Fault Refusal :=
  .next (onRun imageVerify s)
/-- BOOT_SOURCE_TIMEOUT (R613): No host boot word within its timeout fails the source with code 0x07. -/
def execBootSourceTimeout (s : State) : Host.Outcome State Fault Refusal :=
  .next (onRun bootTimeout s)
/-- PIN_RESET (R592): RESET_N low for 1 µs starts a reset with cause PIN. -/
def execPinReset (s : State) : Host.Outcome State Fault Refusal :=
  .next (pinReset s)
/-- SUPPLY_WARNING (R578): A rail below its warning level makes cause SUPPLY active. -/
def execSupplyWarning (rail : Nat) (s : State) : Host.Outcome State Fault Refusal :=
  if below 5 rail then .next (supplyWarning rail s) else .refused .noSuchInstance
/-- BROWNOUT (R578): A rail below its reset level starts a reset with cause BROWNOUT. -/
def execBrownout (rail : Nat) (s : State) : Host.Outcome State Fault Refusal :=
  if below 4 rail then .next (brownout rail s) else .refused .noSuchInstance
/-- CLOCK_LOSS (R580): No XIN edge for 1 µs switches PLL0 to the backup oscillator and makes CLOCK active. -/
def execClockLoss (s : State) : Host.Outcome State Fault Refusal :=
  .next (clockLoss s)
/-- CLOCK_RECOVER (R580): The reference returns and PLL0 relocks, ending cause CLOCK. -/
def execClockRecover (s : State) : Host.Outcome State Fault Refusal :=
  .next (clockRecover s)
/-- THROTTLE_START (R590): A sensor at or above TLIM throttles its engines and makes THERMAL active. -/
def execThrottleStart (k t : Nat) (s : State) : Host.Outcome State Fault Refusal :=
  if below 13 k && inBits 16 t then .next (throttleStart k t s) else .refused .noSuchInstance
/-- THROTTLE_END (R590): A sensor falling 5 K below TLIM ends throttling. -/
def execThrottleEnd (k t : Nat) (s : State) : Host.Outcome State Fault Refusal :=
  if below 13 k && inBits 16 t then .next (throttleEnd k t s) else .refused .noSuchInstance
/-- OVERTEMP (R591): A sensor at 135 °C drops the rails and starts a reset with cause OVERTEMP. -/
def execOvertemp (k t : Nat) (s : State) : Host.Outcome State Fault Refusal :=
  if below 13 k && inBits 16 t then .next (overtemp k t s) else .refused .noSuchInstance
/-- POWER_CYCLE_RESTART (R592): After the brownout or overtemperature wait CORE_EN rises again. -/
def execPowerCycleRestart (s : State) : Host.Outcome State Fault Refusal :=
  .next (powerCycle s)
/-- SYSTEM_SOFT_RESET (R592): RST.CTL.SYSRST starts a reset with cause SOFT. -/
def execSystemSoftReset (rq : Rq) (s : State) : Host.Outcome State Fault Refusal :=
  if rq.ok then .next (onRun (fieldWriteBy rq (Reg.RST.CTL) 0 0 1) s) else .refused .noSuchInstance
/-- DOZE (R582): PWR.CMD DOZE sets TRANS, or is refused with 0xA0. -/
def execDoze (rq : Rq) (s : State) : Host.Outcome State Fault Refusal :=
  if rq.ok then .next (onRun (wordWriteBy rq (Reg.PWR.CMD) (2 ^ 31 + 1)) s) else .refused .noSuchInstance
/-- DOZE_ENTRY (R582): When all engines, Maquettes and copies are idle, the device gates blocks and enters DOZE. -/
def execDozeEntry (s : State) : Host.Outcome State Fault Refusal :=
  .next (dozeEntry s)
/-- DOZE_WAKE (R583): An event, wake pin or host select wakes the device from DOZE. -/
def execDozeWake (src : Nat) (s : State) : Host.Outcome State Fault Refusal :=
  if below 5 src then .next (dozeWake src s) else .refused .noSuchInstance
/-- WATCH (R584): PWR.CMD WATCH copies arms and keeper values and starts power-down. -/
def execWatch (rq : Rq) (s : State) : Host.Outcome State Fault Refusal :=
  if rq.ok then .next (onRun (wordWriteBy rq (Reg.PWR.CMD) (2 ^ 31 + 2)) s) else .refused .noSuchInstance
/-- SHELF (R584): PWR.CMD SHELF starts power-down to SHELF. -/
def execShelf (rq : Rq) (s : State) : Host.Outcome State Fault Refusal :=
  if rq.ok then .next (onRun (wordWriteBy rq (Reg.PWR.CMD) (2 ^ 31 + 3)) s) else .refused .noSuchInstance
/-- POWER_DOWN_STEP (R584): Each timed step of WATCH or SHELF entry arms wake sources or drops IO_EN or CORE_EN. -/
def execPowerDownStep (s : State) : Host.Outcome State Fault Refusal :=
  .next (powerDown s)
/-- WAKE_PIN (R585): A wake pin active for two ticks wakes the device and records cause PIN. -/
def execWakePin (n : Nat) (s : State) : Host.Outcome State Fault Refusal :=
  if below 4 n then .next (wakePin n s) else .refused .noSuchInstance
/-- WAKE_TIMER (R585): AONTICK equal to WAKECMP wakes the device with cause TIMER. -/
def execWakeTimer (s : State) : Host.Outcome State Fault Refusal :=
  .next (wakeTimer s)
/-- WAKE_SHOCK (R136): An armed CMP4 leaving its window in WATCH records the crossing and wakes the device. -/
def execWakeShock (c : Nat) (above : Bool) (s : State) : Host.Outcome State Fault Refusal :=
  if isChannel c then .next (wakeShock c above s) else .refused .noSuchInstance
/-- ENGINE_POWER_GATE (R586): An engine idle for 1,024 CCLK under AUTO is power-gated. -/
def execEnginePowerGate (e : Nat) (s : State) : Host.Outcome State Fault Refusal :=
  if isEngine e then .next (onRun (enginePowerGate e) s) else .refused .noSuchInstance
/-- ENGINE_POWER_UP (R475): 1,600 CCLK after an event reaches a power-gated engine, its slot becomes eligible. -/
def execEnginePowerUp (e : Nat) (s : State) : Host.Outcome State Fault Refusal :=
  if isEngine e then .next (onRun (enginePowerUp e) s) else .refused .noSuchInstance
/-- FUSE_PROGRAM (R601): FUSE.PGM.GO programs one fuse bit, or is refused with 0xA2. -/
def execFuseProgram (rq : Rq) (word bit : Nat) (s : State) : Host.Outcome State Fault Refusal :=
  if rq.ok && inBits 5 word && inBits 5 bit then .next (onRun (wordWriteBy rq (Reg.FUSE.PGM) (2 ^ 31 + word * 256 + bit)) s) else .refused .noSuchInstance
/-- FUSE_PROGRAM_DONE (R601): After 10 µs programming completes and BUSY clears. -/
def execFuseProgramDone (s : State) : Host.Outcome State Fault Refusal :=
  .next (onRun fuseDone s)
/-- SUPPLY_WARNING_END (R578): A rail returns above its warning level and cause SUPPLY stops being active. -/
def execSupplyWarningEnd (rail : Nat) (s : State) : Host.Outcome State Fault Refusal :=
  if below 5 rail then .next (supplyWarningEnd rail s) else .refused .noSuchInstance
/-- LOSS_OF_VAON (R581): The board removes VAON or drives PORST_N low and the device enters OFF with CORE_EN and IO_EN at 0. -/
def execLossOfVaon (s : State) : Host.Outcome State Fault Refusal :=
  .next (powerLoss s)
/-- RESET_RELEASE (R592): RESET_N rises after a pin reset and the start-up sequence resumes from the fuse read. -/
def execResetRelease (s : State) : Host.Outcome State Fault Refusal :=
  .next (resetRelease s)
/-- X32_CRYSTAL_VALID (R579): The 32.768 kHz crystal becomes valid, X32OK is set and the always-on island leaves its RC oscillator. -/
def execX32CrystalValid (s : State) : Host.Outcome State Fault Refusal :=
  .next (x32Valid s)

end Sys2Proof.Machine
end

