-- ==== Sys2Proof/Machine/RowsSense.lean ====
section
/-! DEFINITION. The commands of comparators, position feedback and serial encoders (chapters 04 and 05). -/

namespace Sys2Proof.Machine

/-- COMPARATOR_CROSSING (R123): A synchronised comparator output goes from 0 to 1, setting its latch, counting in CROSS and raising events or trip sources. -/
def execComparatorCrossing (c n : Nat) (upper : Bool) (s : State) : Host.Outcome State Fault Refusal :=
  if isChannel c && below 5 n then .next (onRun (cmpRise c n upper) s) else .refused .noSuchInstance
/-- CMP_CFG_WRITE (R132): A write to CMP CFG[n] is refused with 0x1A if it would blind a protecting comparator, otherwise it starts settling where needed. -/
def execCmpCfgWrite (rq : Rq) (c n value : Nat) (s : State) : Host.Outcome State Fault Refusal :=
  if rq.ok && isChannel c && below 5 n && inBits 32 value then .next (onRun (wordWriteBy rq (Reg.CMP.CFG c n) value) s) else .refused .noSuchInstance
/-- SETTLE_END (R120): When a comparator's settle time expires, SETTLING clears and its outputs act again. -/
def execSettleEnd (c n : Nat) (s : State) : Host.Outcome State Fault Refusal :=
  if isChannel c && below 5 n then .next (onRun (cmpSettleEnd c n) s) else .refused .noSuchInstance
/-- THRESHOLD_WRITE (R128): A write to THR[n] is taken by the DACs at the next ACLK edge and moves monotonically to the new level. -/
def execThresholdWrite (rq : Rq) (c n value : Nat) (s : State) : Host.Outcome State Fault Refusal :=
  if rq.ok && isChannel c && below 5 n && inBits 32 value then .next (onRun (wordWriteBy rq (Reg.CMP.THR c n) value) s) else .refused .noSuchInstance
/-- POSITION_HOLD (R138): At each hold edge of the 50-ACLK grid both position converters hold SIN and COS and latch Q. -/
def execPositionHold (c : Nat) (sin cos : Int) (s : State) : Host.Outcome State Fault Refusal :=
  if isChannel c && code12 sin && code12 cos then .next (onRun (posHold c sin cos) s) else .refused .noSuchInstance
/-- POSITION_UPDATE (R139): At the update edge 30 ACLK after a hold, POSITION, REV, MOTANG and SPEED change and the compare is evaluated. -/
def execPositionUpdate (c : Nat) (s : State) : Host.Outcome State Fault Refusal :=
  if isChannel c then .next (onRun (posUpdate c) s) else .refused .noSuchInstance
/-- QUADRANT_STEP (R143): A zero-crossing detector change held for QFILT CCLK steps the quadrant counter. -/
def execQuadrantStep (c k : Nat) (s : State) : Host.Outcome State Fault Refusal :=
  if isChannel c && below 4 k then .next (onRun (posQuad c k) s) else .refused .noSuchInstance
/-- POS_LOAD (R150): LOADCTL.LOAD sets POSITION and REV from POSSET and REVSET at the next update edge. -/
def execPosLoad (rq : Rq) (c rev : Nat) (s : State) : Host.Outcome State Fault Refusal :=
  if rq.ok && isChannel c && inBits 16 rev then .next (onRun (wordWriteBy rq (Reg.POS.LOADCTL c) (rev * 65536 + 1)) s) else .refused .noSuchInstance
/-- POS_MLOAD (R150): LOADCTL.MLOAD sets MOTANG from MOTSET at the next update edge. -/
def execPosMload (rq : Rq) (c : Nat) (s : State) : Host.Outcome State Fault Refusal :=
  if rq.ok && isChannel c then .next (onRun (fieldWriteBy rq (Reg.POS.LOADCTL c) 1 1 1) s) else .refused .noSuchInstance
/-- POS_ENABLE (R138): Setting POS PAGE_CTRL.EN loads Q and starts sampling after 20 µs on the hold grid. -/
def execPosEnable (rq : Rq) (c : Nat) (s : State) : Host.Outcome State Fault Refusal :=
  if rq.ok && isChannel c then .next (onRun (fieldWriteBy rq (Reg.POS.page c + 8) 0 0 1) s) else .refused .noSuchInstance
/-- POS_ZMK (R151): A synchronised zero-mark edge of the set polarity loads ZLATCH, sets ZMK and raises POS_ZMK. -/
def execPosZmk (c : Nat) (rising : Bool) (s : State) : Host.Outcome State Fault Refusal :=
  if isChannel c then .next (onRun (posZmk c rising) s) else .refused .noSuchInstance
/-- SSI_SWTRIG (R163): A write of 1 to SSI TRIG.SWTRIG triggers a serial transaction. -/
def execSsiSwtrig (rq : Rq) (c : Nat) (s : State) : Host.Outcome State Fault Refusal :=
  if rq.ok && isChannel c then .next (onRun (fieldWriteBy rq (Reg.SSI.TRIG c) 31 31 1) s) else .refused .noSuchInstance
/-- SSI_WORD (R162): A serial word is received, CRC and error bit checked and classified, and SSI_WORD is raised. -/
def execSsiWord (c : Nat) (word : DWord) (k : Nat) (s : State) : Host.Outcome State Fault Refusal :=
  if isChannel c then .next (onRun (ssiWord c word k) s) else .refused .noSuchInstance
/-- SSI_TIMEOUT (R160): No start bit within TOUT + 1 µs of the latch edge ends the transaction with result TIMEOUT. -/
def execSsiTimeout (c : Nat) (s : State) : Host.Outcome State Fault Refusal :=
  if isChannel c then .next (onRun (ssiTimeout c) s) else .refused .noSuchInstance
/-- SSI_RECOVERY_END (R163): The end of the recovery time starts a pended transaction. -/
def execSsiRecoveryEnd (c : Nat) (s : State) : Host.Outcome State Fault Refusal :=
  if isChannel c then .next (onRun (ssiRecovered c) s) else .refused .noSuchInstance
/-- SSI_ENABLE (R164): A write of 1 to SSI PAGE_CTRL.EN is refused with 0x28 if the frame configuration is invalid. -/
def execSsiEnable (rq : Rq) (c : Nat) (s : State) : Host.Outcome State Fault Refusal :=
  if rq.ok && isChannel c then .next (onRun (fieldWriteBy rq (Reg.SSI.page c + 8) 0 0 1) s) else .refused .noSuchInstance
/-- SSI_DISABLE (R159): Clearing SSI EN aborts a transaction at once, releasing ENCCK and ENCDE. -/
def execSsiDisable (rq : Rq) (c : Nat) (s : State) : Host.Outcome State Fault Refusal :=
  if rq.ok && isChannel c then .next (onRun (fieldWriteBy rq (Reg.SSI.page c + 8) 0 0 0) s) else .refused .noSuchInstance
/-- SYNC_OUTPUT_FALL (R122): A comparator's synchronised OVER or UNDER output goes from 1 to 0, updating RAW and ending that trip source's active level. -/
def execSyncOutputFall (c n : Nat) (upper : Bool) (s : State) : Host.Outcome State Fault Refusal :=
  if isChannel c && below 5 n then .next (onRun (cmpFall c n upper) s) else .refused .noSuchInstance
/-- WATCHOK_CHANGE (R135): VAON stays below or at or above 1.62 V for 1 µs and CMP STATUS.WATCHOK changes. -/
def execWatchokChange (ok : Bool) (s : State) : Host.Outcome State Fault Refusal :=
  .next (watchOkChange ok s)

end Sys2Proof.Machine
end

