-- ==== Sys2Proof/Machine/RowsSupervisor.lean ====
section
/-! DEFINITION. The commands of the Pedestal (chapter 17). -/

namespace Sys2Proof.Machine

/-- EXTERNAL_ACCESS_VOTE (R491): A Pedestal copy's external access is compared with the others' and performed once when agreed. -/
def execExternalAccessVote (s : State) : Host.Outcome State Fault Refusal :=
  .next (onRun (pedVote false) s)
/-- CHECKPOINT (R493): A copy's IC reaching a multiple of CKINT, a CKPT write or a fault entry compares IC and SIG across copies. -/
def execCheckpoint (s : State) : Host.Outcome State Fault Refusal :=
  .next (onRun (pedVote true) s)
/-- LAG_TIMEOUT (R494): A copy that has not issued its access CMPTO clocks after performance leaves the vote. -/
def execLagTimeout (s : State) : Host.Outcome State Fault Refusal :=
  .next (onRun lagTimeout s)
/-- CHECKPOINT_TIMEOUT (R496): No checkpoint within CKTO µs puts the voter into SAFE HOLD and sets STALL. -/
def execCheckpointTimeout (s : State) : Host.Outcome State Fault Refusal :=
  .next (onRun checkpointTimeout s)
/-- EXCHANGE_BATCH (R497): Events reaching the Pedestal form a batch whose target instruction count is fixed. -/
def execExchangeBatch (s : State) : Host.Outcome State Fault Refusal :=
  .next (onRun exchangeBatch s)
/-- BATCH_APPLY (R497): Each copy applies the batch to its slot counters after committing bundle T. -/
def execBatchApply (k : Nat) (s : State) : Host.Outcome State Fault Refusal :=
  if below 3 k then .next (onRun (batchApply k) s) else .refused .noSuchInstance
/-- PSREQ_WRITE (R500): A copy's write to PSREQ0 or PSREQ1 loads its own latch and may change the voted outputs. -/
def execPsreqWrite (k which value : Nat) (s : State) : Host.Outcome State Fault Refusal :=
  if below 3 k && below 2 which && inBits 32 value then .next (onRun (psreqWrite k which value) s) else .refused .noSuchInstance
/-- SAFE_TOGGLE (R503): Every 40,000 CCLK while voted SAFE is 1 the SAFE pair toggles. -/
def execSafeToggle (s : State) : Host.Outcome State Fault Refusal :=
  .next (onRun safeToggle s)
/-- RESYNC_START (R505): A rebuild of a copy begins by resetting it, automatically or on RESYNC.GO. -/
def execResyncStart (rq : Rq) (copy : Nat) (s : State) : Host.Outcome State Fault Refusal :=
  if rq.ok && inBits 2 copy then .next (onRun (wordWriteBy rq (Reg.PEDESTAL.RESYNC) (2 ^ 31 + copy)) s) else .refused .noSuchInstance
/-- RESYNC_COPY (R505): After the reset the source's memory is copied to the copy being rebuilt. -/
def execResyncCopy (s : State) : Host.Outcome State Fault Refusal :=
  .next (onRun resyncCopy s)
/-- RESYNC_FREEZE (R505): After the copy the copies hold at an exchange target and the source's state is copied. -/
def execResyncFreeze (s : State) : Host.Outcome State Fault Refusal :=
  .next (onRun resyncFreeze s)
/-- RESYNC_CHECK (R505): After the freeze SIG and IC are compared and the copy rejoins or leaves with cause RESYNC. -/
def execResyncCheck (s : State) : Host.Outcome State Fault Refusal :=
  .next (onRun resyncCheck s)
/-- PEDESTAL_CLEAR_DONE (R598): The Rasp finishes clearing the three Pedestal memories after a restart and the copies enter the boot ROM at source selection. -/
def execPedestalClearDone (s : State) : Host.Outcome State Fault Refusal :=
  .next (onRun pedClearDone s)

end Sys2Proof.Machine
end

