-- ==== Sys2Proof/Machine/RowsSystem.lean ====
section
/-! DEFINITION. The commands of systems of devices (chapter 19). -/

namespace Sys2Proof.Machine

/-- FORM (R556): SYSCTL.FORM starts system formation at the election phase. -/
def execForm (rq : Rq) (s : State) : Host.Outcome State Fault Refusal :=
  if rq.ok then .next (onRun (fieldWriteBy rq (Reg.LINEKEY.SYSCTL) 31 31 1) s) else .refused .noSuchInstance
/-- FORM_ABORT (R575): SYSCTL.ABORT stops formation and PHASE returns to 0. -/
def execFormAbort (rq : Rq) (s : State) : Host.Outcome State Fault Refusal :=
  if rq.ok then .next (onRun (fieldWriteBy rq (Reg.LINEKEY.SYSCTL) 29 29 1) s) else .refused .noSuchInstance
/-- KEYCHK_RERUN (R563): SYSCTL.KEYCHK on the root runs the key phase again. -/
def execKeychkRerun (rq : Rq) (s : State) : Host.Outcome State Fault Refusal :=
  if rq.ok then .next (onRun (fieldWriteBy rq (Reg.LINEKEY.SYSCTL) 30 30 1) s) else .refused .noSuchInstance
/-- CLAIM (R557): When a candidate's idle-counted wait E expires it launches CLAIM. -/
def execClaim (p : Nat) (collided : Bool) (s : State) : Host.Outcome State Fault Refusal :=
  if isPort p then .next (onDoze (claimSend p collided) s) else .refused .noSuchInstance
/-- CLAIM_RECEIVE (R557): A candidate or head accepting a higher-keyed CLAIM becomes a member. -/
def execClaimReceive (p : Nat) (s : State) : Host.Outcome State Fault Refusal :=
  if isPort p then .next (onDoze (claimReceive p) s) else .refused .noSuchInstance
/-- HEAD_CONFIRM (R557): A claimant hearing no higher claim for 4,000 µs of idle time becomes head. -/
def execHeadConfirm (p : Nat) (s : State) : Host.Outcome State Fault Refusal :=
  if isPort p then .next (onDoze (headConfirm p) s) else .refused .noSuchInstance
/-- TURN (R558): In phases 2 and 5 a head sends TURN GAP after each CYCLE frame. -/
def execTurn (p : Nat) (s : State) : Host.Outcome State Fault Refusal :=
  if isPort p then .next (onDoze (turnSend p) s) else .refused .noSuchInstance
/-- TURN_ANSWER (R558): A member of the named group answers at its slot after the TURN with JOIN or KEYRES. -/
def execTurnAnswer (p : Nat) (s : State) : Host.Outcome State Fault Refusal :=
  if isPort p then .next (onDoze (turnAnswer p) s) else .refused .noSuchInstance
/-- JOIN_RECEIVE (R559): A head adds an enrolled JOIN sender to its roster and completes it after two quiet passes. -/
def execJoinReceive (p : Nat) (s : State) : Host.Outcome State Fault Refusal :=
  if isPort p then .next (onDoze (joinReceive p) s) else .refused .noSuchInstance
/-- REGREQ (R560): The root head polls a bridge with REGREQ between its CYCLE frames. -/
def execRegreq (p : Nat) (s : State) : Host.Outcome State Fault Refusal :=
  if isPort p then .next (onDoze (regreqSend p) s) else .refused .noSuchInstance
/-- REGISTER_RECEIVE (R560): The root head records a bridge's REGISTER list. -/
def execRegisterReceive (p : Nat) (s : State) : Host.Outcome State Fault Refusal :=
  if isPort p then .next (onDoze (registerReceive p) s) else .refused .noSuchInstance
/-- ROOT_RECEIVE (R561): A device accepting ROOT loads SYSROOT, LEVELS and NDEV. -/
def execRootReceive (p : Nat) (s : State) : Host.Outcome State Fault Refusal :=
  if isPort p then .next (onDoze (rootReceive p) s) else .refused .noSuchInstance
/-- KEYCHK_RECEIVE (R563): A device compares the root's key check values with its own entries. -/
def execKeychkReceive (p : Nat) (s : State) : Host.Outcome State Fault Refusal :=
  if isPort p then .next (onDoze (keychkReceive p) s) else .refused .noSuchInstance
/-- KEYRES_RECEIVE (R563): A head or the root aggregates KEYRES answers, and the root sends FORMED when all pass. -/
def execKeyresReceive (p : Nat) (s : State) : Host.Outcome State Fault Refusal :=
  if isPort p then .next (onDoze (keyresReceive p) s) else .refused .noSuchInstance
/-- FORMED_RECEIVE (R563): A device accepting FORMED sets SYSSTAT.FORMED. -/
def execFormedReceive (p : Nat) (s : State) : Host.Outcome State Fault Refusal :=
  if isPort p then .next (onDoze (formedReceive p) s) else .refused .noSuchInstance
/-- ROOT_REPEAT (R565): Every 256 cycles the root repeats ROOT and KEYCHK. -/
def execRootRepeat (s : State) : Host.Outcome State Fault Refusal :=
  .next (onDoze rootRepeat s)
/-- BARRIER_ARRIVE (R570): A ring-0 BARRIER write opens a barrier, or closes it with ARRIVE 0. -/
def execBarrierArrive (rq : Rq) (value : Nat) (s : State) : Host.Outcome State Fault Refusal :=
  if rq.ok && inBits 32 value then .next (onRun (wordWriteBy rq (Reg.LINEKEY.BARRIER) value) s) else .refused .noSuchInstance
/-- ARRIVE_RECEIVE (R570): A device counts an ARRIVE and sends its own upstream, or the root sends RELEASE. -/
def execArriveReceive (p : Nat) (s : State) : Host.Outcome State Fault Refusal :=
  if isPort p then .next (onDoze (arriveReceive p) s) else .refused .noSuchInstance
/-- RELEASE_RECEIVE (R570): A device accepting RELEASE from the root arms the barrier release at T. -/
def execReleaseReceive (p : Nat) (s : State) : Host.Outcome State Fault Refusal :=
  if isPort p then .next (onDoze (releaseReceive p) s) else .refused .noSuchInstance
/-- BARRIER_RELEASE (R570): At T each device raises the barrier event, sets DONE and clears OPEN. -/
def execBarrierRelease (s : State) : Host.Outcome State Fault Refusal :=
  .next (onDoze barrierRelease s)
/-- SNAP_RECEIVE (R571): A device accepting SNAP before T arms a capture. -/
def execSnapReceive (p : Nat) (s : State) : Host.Outcome State Fault Refusal :=
  if isPort p then .next (onDoze (snapReceive p) s) else .refused .noSuchInstance
/-- SNAPSHOT_CAPTURE (R571): At T an armed capture raises its event and loads SNAPLAST. -/
def execSnapshotCapture (s : State) : Host.Outcome State Fault Refusal :=
  .next (onDoze snapCapture s)
/-- RESET_RECEIVE (R572): A device with RSTEN accepting RESET arms a reset at T. -/
def execResetReceive (p : Nat) (s : State) : Host.Outcome State Fault Refusal :=
  if isPort p then .next (onDoze (resetHeard p) s) else .refused .noSuchInstance
/-- LINE_RESET (R572): At T an armed RESET starts the device reset with cause LINE. -/
def execLineReset (s : State) : Host.Outcome State Fault Refusal :=
  .next (onDoze lineReset s)

end Sys2Proof.Machine
end

