-- ==== Sys2Proof/Machine/Dispatch.lean ====
section
/-! DEFINITION. exec: one arm for each command. -/

namespace Sys2Proof.Machine

/-- The effect of a command on everything but the queue. -/
def exec (i : Instr) (s : State) : Host.Outcome State Fault Refusal :=
  match i with
  | .registerWrite rq addr size value => Sys2Proof.Machine.execRegisterWrite rq addr size value s
  | .rcRead rq addr => Sys2Proof.Machine.execRcRead rq addr s
  | .pageStatClear rq page bits => Sys2Proof.Machine.execPageStatClear rq page bits s
  | .irqSet rq page bits => Sys2Proof.Machine.execIrqSet rq page bits s
  | .irqEnableWrite rq page value => Sys2Proof.Machine.execIrqEnableWrite rq page value s
  | .commitNow rq page => Sys2Proof.Machine.execCommitNow rq page s
  | .commitArm rq page => Sys2Proof.Machine.execCommitArm rq page s
  | .commitDisarm rq page => Sys2Proof.Machine.execCommitDisarm rq page s
  | .softReset rq page => Sys2Proof.Machine.execSoftReset rq page s
  | .softResetDone page => Sys2Proof.Machine.execSoftResetDone page s
  | .setPwrpol rq page pol => Sys2Proof.Machine.execSetPwrpol rq page pol s
  | .blockRelease page => Sys2Proof.Machine.execBlockRelease page s
  | .changeOwner rq page t => Sys2Proof.Machine.execChangeOwner rq page t s
  | .ownerChangeDone page => Sys2Proof.Machine.execOwnerChangeDone page s
  | .evtRaise rq k bits => Sys2Proof.Machine.execEvtRaise rq k bits s
  | .eventArrival => Sys2Proof.Machine.execEventArrival s
  | .modeWrite rq c value => Sys2Proof.Machine.execModeWrite rq c value s
  | .refEnable rq c on => Sys2Proof.Machine.execRefEnable rq c on s
  | .refReady c => Sys2Proof.Machine.execRefReady c s
  | .seqSwtrig rq c u => Sys2Proof.Machine.execSeqSwtrig rq c u s
  | .pendedTriggerAccept c u => Sys2Proof.Machine.execPendedTriggerAccept c u s
  | .seqAbort rq c by_ => Sys2Proof.Machine.execSeqAbort rq c by_ s
  | .acquisitionOpen c => Sys2Proof.Machine.execAcquisitionOpen c s
  | .conversionEnd c u rawA rawB => Sys2Proof.Machine.execConversionEnd c u rawA rawB s
  | .fifoFlush rq c a b => Sys2Proof.Machine.execFifoFlush rq c a b s
  | .fifoPop rq c b => Sys2Proof.Machine.execFifoPop rq c b s
  | .calZero rq c input cvs => Sys2Proof.Machine.execCalZero rq c input cvs s
  | .calSpan rq c input cvs => Sys2Proof.Machine.execCalSpan rq c input cvs s
  | .calSkew rq c input cvs => Sys2Proof.Machine.execCalSkew rq c input cvs s
  | .calAbort rq c => Sys2Proof.Machine.execCalAbort rq c s
  | .calComplete c => Sys2Proof.Machine.execCalComplete c s
  | .refCodeWrite rq c b value => Sys2Proof.Machine.execRefCodeWrite rq c b value s
  | .driftEnable rq c => Sys2Proof.Machine.execDriftEnable rq c s
  | .comparatorCrossing c n upper => Sys2Proof.Machine.execComparatorCrossing c n upper s
  | .cmpCfgWrite rq c n value => Sys2Proof.Machine.execCmpCfgWrite rq c n value s
  | .settleEnd c n => Sys2Proof.Machine.execSettleEnd c n s
  | .thresholdWrite rq c n value => Sys2Proof.Machine.execThresholdWrite rq c n value s
  | .positionHold c sin cos => Sys2Proof.Machine.execPositionHold c sin cos s
  | .positionUpdate c => Sys2Proof.Machine.execPositionUpdate c s
  | .quadrantStep c k => Sys2Proof.Machine.execQuadrantStep c k s
  | .posLoad rq c rev => Sys2Proof.Machine.execPosLoad rq c rev s
  | .posMload rq c => Sys2Proof.Machine.execPosMload rq c s
  | .posEnable rq c => Sys2Proof.Machine.execPosEnable rq c s
  | .posZmk c rising => Sys2Proof.Machine.execPosZmk c rising s
  | .ssiSwtrig rq c => Sys2Proof.Machine.execSsiSwtrig rq c s
  | .ssiWord c word k => Sys2Proof.Machine.execSsiWord c word k s
  | .ssiTimeout c => Sys2Proof.Machine.execSsiTimeout c s
  | .ssiRecoveryEnd c => Sys2Proof.Machine.execSsiRecoveryEnd c s
  | .ssiEnable rq c => Sys2Proof.Machine.execSsiEnable rq c s
  | .ssiDisable rq c => Sys2Proof.Machine.execSsiDisable rq c s
  | .pwmEnable rq c => Sys2Proof.Machine.execPwmEnable rq c s
  | .counterStart c => Sys2Proof.Machine.execCounterStart c s
  | .pwmDisable rq c => Sys2Proof.Machine.execPwmDisable rq c s
  | .pwmValley c => Sys2Proof.Machine.execPwmValley c s
  | .pwmPeak c => Sys2Proof.Machine.execPwmPeak c s
  | .triggerPointReached c k => Sys2Proof.Machine.execTriggerPointReached c k s
  | .compareMatch c n => Sys2Proof.Machine.execCompareMatch c n s
  | .deadTimeEnd c n => Sys2Proof.Machine.execDeadTimeEnd c n s
  | .blankEnd c n => Sys2Proof.Machine.execBlankEnd c n s
  | .legPeriodStart c n => Sys2Proof.Machine.execLegPeriodStart c n s
  | .onTimeEnd c n => Sys2Proof.Machine.execOnTimeEnd c n s
  | .cmpShadowWrite rq c n value => Sys2Proof.Machine.execCmpShadowWrite rq c n value s
  | .tripPinChange c k lvl => Sys2Proof.Machine.execTripPinChange c k lvl s
  | .tripQualify c k => Sys2Proof.Machine.execTripQualify c k s
  | .softwareTrip rq c => Sys2Proof.Machine.execSoftwareTrip rq c s
  | .latchClear rq c bits => Sys2Proof.Machine.execLatchClear rq c bits s
  | .tripCfgWrite rq c value => Sys2Proof.Machine.execTripCfgWrite rq c value s
  | .chiselResult c => Sys2Proof.Machine.execChiselResult c s
  | .chiselDone c late => Sys2Proof.Machine.execChiselDone c late s
  | .chiselDisable rq c slice => Sys2Proof.Machine.execChiselDisable rq c slice s
  | .caliperHit n => Sys2Proof.Machine.execCaliperHit n s
  | .entrySeat rq n ctl => Sys2Proof.Machine.execEntrySeat rq n ctl s
  | .tabownWrite rq b value => Sys2Proof.Machine.execTabownWrite rq b value s
  | .secondBoundary => Sys2Proof.Machine.execSecondBoundary s
  | .timeRead rq => Sys2Proof.Machine.execTimeRead rq s
  | .timeApply rq => Sys2Proof.Machine.execTimeApply rq s
  | .timeCancel rq => Sys2Proof.Machine.execTimeCancel rq s
  | .offsetSubmit rq => Sys2Proof.Machine.execOffsetSubmit rq s
  | .holdover => Sys2Proof.Machine.execHoldover s
  | .intakeDeliver p => Sys2Proof.Machine.execIntakeDeliver p s
  | .jobEnable rq p k => Sys2Proof.Machine.execJobEnable rq p k s
  | .jobStop rq p k => Sys2Proof.Machine.execJobStop rq p k s
  | .jobReseed rq p k => Sys2Proof.Machine.execJobReseed rq p k s
  | .streamProcess p k => Sys2Proof.Machine.execStreamProcess p k s
  | .blockWork p => Sys2Proof.Machine.execBlockWork p s
  | .frameComplete p => Sys2Proof.Machine.execFrameComplete p s
  | .frrdWrite rq p k value => Sys2Proof.Machine.execFrrdWrite rq p k value s
  | .maqDisable rq p => Sys2Proof.Machine.execMaqDisable rq p s
  | .loadUpdate p => Sys2Proof.Machine.execLoadUpdate p s
  | .nop e rest => Sys2Proof.Machine.execNop e rest s
  | .add e slot dd da b rest => Sys2Proof.Machine.execAdd e slot dd da b rest s
  | .adc e slot dd da b rest => Sys2Proof.Machine.execAdc e slot dd da b rest s
  | .sub e slot dd da b rest => Sys2Proof.Machine.execSub e slot dd da b rest s
  | .sbc e slot dd da b rest => Sys2Proof.Machine.execSbc e slot dd da b rest s
  | .and e slot dd da b rest => Sys2Proof.Machine.execAnd e slot dd da b rest s
  | .or e slot dd da b rest => Sys2Proof.Machine.execOr e slot dd da b rest s
  | .xor e slot dd da b rest => Sys2Proof.Machine.execXor e slot dd da b rest s
  | .andn e slot dd da b rest => Sys2Proof.Machine.execAndn e slot dd da b rest s
  | .shl e slot dd da b rest => Sys2Proof.Machine.execShl e slot dd da b rest s
  | .shr e slot dd da b rest => Sys2Proof.Machine.execShr e slot dd da b rest s
  | .sar e slot dd da b rest => Sys2Proof.Machine.execSar e slot dd da b rest s
  | .ror e slot dd da b rest => Sys2Proof.Machine.execRor e slot dd da b rest s
  | .min e slot dd da b rest => Sys2Proof.Machine.execMin e slot dd da b rest s
  | .max e slot dd da b rest => Sys2Proof.Machine.execMax e slot dd da b rest s
  | .cmp e slot da b rest => Sys2Proof.Machine.execCmp e slot da b rest s
  | .tst e slot da b rest => Sys2Proof.Machine.execTst e slot da b rest s
  | .adds e slot dd da db rest => Sys2Proof.Machine.execAdds e slot dd da db rest s
  | .subs e slot dd da db rest => Sys2Proof.Machine.execSubs e slot dd da db rest s
  | .abs e slot dd da rest => Sys2Proof.Machine.execAbs e slot dd da rest s
  | .neg e slot dd da rest => Sys2Proof.Machine.execNeg e slot dd da rest s
  | .clz e slot dd da rest => Sys2Proof.Machine.execClz e slot dd da rest s
  | .exts e slot func dd da rest => Sys2Proof.Machine.execExts e slot func dd da rest s
  | .mull e dd da db rest => Sys2Proof.Machine.execMull e dd da db rest s
  | .movi e slot dd imm18 rest => Sys2Proof.Machine.execMovi e slot dd imm18 rest s
  | .movh e slot dd imm16 rest => Sys2Proof.Machine.execMovh e slot dd imm16 rest s
  | .mov e slot dd da rest => Sys2Proof.Machine.execMov e slot dd da rest s
  | .padd e slot pd ps imm13 rest => Sys2Proof.Machine.execPadd e slot pd ps imm13 rest s
  | .movdp e slot dd ps rest => Sys2Proof.Machine.execMovdp e slot dd ps rest s
  | .movpd e slot pd ds rest => Sys2Proof.Machine.execMovpd e slot pd ds rest s
  | .sel e slot cond dd da db rest => Sys2Proof.Machine.execSel e slot cond dd da db rest s
  | .br e cond imm19 rest => Sys2Proof.Machine.execBr e cond imm19 rest s
  | .jmp e ps rest => Sys2Proof.Machine.execJmp e ps rest s
  | .call e imm23 rest => Sys2Proof.Machine.execCall e imm23 rest s
  | .callr e ps rest => Sys2Proof.Machine.execCallr e ps rest s
  | .ret e rest => Sys2Proof.Machine.execRet e rest s
  | .mfc e dd cr rest => Sys2Proof.Machine.execMfc e dd cr rest s
  | .mtc e cr ds rest => Sys2Proof.Machine.execMtc e cr ds rest s
  | .clrf e mask rest => Sys2Proof.Machine.execClrf e mask rest s
  | .gate e n rest => Sys2Proof.Machine.execGate e n rest s
  | .retg e rest => Sys2Proof.Machine.execRetg e rest s
  | .rete e rest => Sys2Proof.Machine.execRete e rest s
  | .wait e rest => Sys2Proof.Machine.execWait e rest s
  | .brk e rest => Sys2Proof.Machine.execBrk e rest s
  | .mac e slot an da db f sz rest => Sys2Proof.Machine.execMac e slot an da db f sz rest s
  | .msu e slot an da db f sz rest => Sys2Proof.Machine.execMsu e slot an da db f sz rest s
  | .mul e slot an da db f sz rest => Sys2Proof.Machine.execMul e slot an da db f sz rest s
  | .macd e slot an px py mx my sz f minus clr rest => Sys2Proof.Machine.execMacd e slot an px py mx my sz f minus clr rest s
  | .ext e slot dd an sh rnd rest => Sys2Proof.Machine.execExt e slot dd an sh rnd rest s
  | .amov e slot an ds sh rest => Sys2Proof.Machine.execAmov e slot an ds sh rest s
  | .ash e slot an sh7 rest => Sys2Proof.Machine.execAsh e slot an sh7 rest s
  | .aadd e slot an am rest => Sys2Proof.Machine.execAadd e slot an am rest s
  | .fadd e slot dd da db rest => Sys2Proof.Machine.execFadd e slot dd da db rest s
  | .fsub e slot dd da db rest => Sys2Proof.Machine.execFsub e slot dd da db rest s
  | .fmul e slot dd da db rest => Sys2Proof.Machine.execFmul e slot dd da db rest s
  | .fma e slot dd da db rest => Sys2Proof.Machine.execFma e slot dd da db rest s
  | .fcmp e slot da db rest => Sys2Proof.Machine.execFcmp e slot da db rest s
  | .fcvt e slot func dd da rest => Sys2Proof.Machine.execFcvt e slot func dd da rest s
  | .divs e slot dd da db rest => Sys2Proof.Machine.execDivs e slot dd da db rest s
  | .divu e slot dd da db rest => Sys2Proof.Machine.execDivu e slot dd da db rest s
  | .sqrt e slot dd da rest => Sys2Proof.Machine.execSqrt e slot dd da rest s
  | .sincos e slot dd da rest => Sys2Proof.Machine.execSincos e slot dd da rest s
  | .atan2 e slot dd da db rest => Sys2Proof.Machine.execAtan2 e slot dd da db rest s
  | .fdiv e slot dd da db rest => Sys2Proof.Machine.execFdiv e slot dd da db rest s
  | .longResult e => Sys2Proof.Machine.execLongResult e s
  | .vmac e an px py dn sz f minus limit rest => Sys2Proof.Machine.execVmac e an px py dn sz f minus limit rest s
  | .ldb e t pb a rest => Sys2Proof.Machine.execLdb e t pb a rest s
  | .ldbu e t pb a rest => Sys2Proof.Machine.execLdbu e t pb a rest s
  | .ldh e t pb a rest => Sys2Proof.Machine.execLdh e t pb a rest s
  | .ldhu e t pb a rest => Sys2Proof.Machine.execLdhu e t pb a rest s
  | .ldw e t pb a rest => Sys2Proof.Machine.execLdw e t pb a rest s
  | .ldd e t pb a rest => Sys2Proof.Machine.execLdd e t pb a rest s
  | .ldp e t pb a rest => Sys2Proof.Machine.execLdp e t pb a rest s
  | .lda e t pb a rest => Sys2Proof.Machine.execLda e t pb a rest s
  | .stb e t pb a rest => Sys2Proof.Machine.execStb e t pb a rest s
  | .sth e t pb a rest => Sys2Proof.Machine.execSth e t pb a rest s
  | .stw e t pb a rest => Sys2Proof.Machine.execStw e t pb a rest s
  | .std e t pb a rest => Sys2Proof.Machine.execStd e t pb a rest s
  | .stp e t pb a rest => Sys2Proof.Machine.execStp e t pb a rest s
  | .sta e t pb a rest => Sys2Proof.Machine.execSta e t pb a rest s
  | .ldrx e t pb ofs rest => Sys2Proof.Machine.execLdrx e t pb ofs rest s
  | .stcx e t pb ofs rest => Sys2Proof.Machine.execStcx e t pb ofs rest s
  | .aaddm e dd pb ds rest => Sys2Proof.Machine.execAaddm e dd pb ds rest s
  | .aorm e dd pb ds rest => Sys2Proof.Machine.execAorm e dd pb ds rest s
  | .aswap e dd pb ds rest => Sys2Proof.Machine.execAswap e dd pb ds rest s
  | .blkmov e dn ps pd limit rest => Sys2Proof.Machine.execBlkmov e dn ps pd limit rest s
  | .blkcrc e dc ps dn limit rest => Sys2Proof.Machine.execBlkcrc e dc ps dn limit rest s
  | .iflush e t pb ofs rest => Sys2Proof.Machine.execIflush e t pb ofs rest s
  | .fence e rest => Sys2Proof.Machine.execFence e rest s
  | .loadDataReturn e => Sys2Proof.Machine.execLoadDataReturn e s
  | .storePerform e => Sys2Proof.Machine.execStorePerform e s
  | .icacheFill e => Sys2Proof.Machine.execIcacheFill e s
  | .tableWalk e => Sys2Proof.Machine.execTableWalk e s
  | .engineResetDone e => Sys2Proof.Machine.execEngineResetDone e s
  | .eventEntry e => Sys2Proof.Machine.execEventEntry e s
  | .contextWrite rq e x value => Sys2Proof.Machine.execContextWrite rq e x value s
  | .invalidateAddress rq t => Sys2Proof.Machine.execInvalidateAddress rq t s
  | .invalidateTenant rq t => Sys2Proof.Machine.execInvalidateTenant rq t s
  | .invalidateAll rq => Sys2Proof.Machine.execInvalidateAll rq s
  | .invalidateDone => Sys2Proof.Machine.execInvalidateDone s
  | .rootWrite rq t value => Sys2Proof.Machine.execRootWrite rq t value s
  | .eccLogPop rq => Sys2Proof.Machine.execEccLogPop rq s
  | .scrubBurst => Sys2Proof.Machine.execScrubBurst s
  | .sweepStart => Sys2Proof.Machine.execSweepStart s
  | .sweepEnd => Sys2Proof.Machine.execSweepEnd s
  | .dramScrubLine => Sys2Proof.Machine.execDramScrubLine s
  | .sramFill bad => Sys2Proof.Machine.execSramFill bad s
  | .fillDone bootmode => Sys2Proof.Machine.execFillDone bootmode s
  | .dramEnable rq => Sys2Proof.Machine.execDramEnable rq s
  | .trainingDone ok => Sys2Proof.Machine.execTrainingDone ok s
  | .dramFillRegion => Sys2Proof.Machine.execDramFillRegion s
  | .raspClear rq => Sys2Proof.Machine.execRaspClear rq s
  | .clearDone => Sys2Proof.Machine.execClearDone s
  | .armSubmit => Sys2Proof.Machine.execArmSubmit s
  | .armWithdraw => Sys2Proof.Machine.execArmWithdraw s
  | .armQuery => Sys2Proof.Machine.execArmQuery s
  | .armRestart => Sys2Proof.Machine.execArmRestart s
  | .armCtxset => Sys2Proof.Machine.execArmCtxset s
  | .armUnknownOp => Sys2Proof.Machine.execArmUnknownOp s
  | .armCommandDone => Sys2Proof.Machine.execArmCommandDone s
  | .engineRetire rq k value => Sys2Proof.Machine.execEngineRetire rq k value s
  | .slowDetect k => Sys2Proof.Machine.execSlowDetect k s
  | .migrationStart e => Sys2Proof.Machine.execMigrationStart e s
  | .migrationDone e => Sys2Proof.Machine.execMigrationDone e s
  | .reportPop rq => Sys2Proof.Machine.execReportPop rq s
  | .tenantRemove rq t => Sys2Proof.Machine.execTenantRemove rq t s
  | .tenantScan rq t => Sys2Proof.Machine.execTenantScan rq t s
  | .scanDone => Sys2Proof.Machine.execScanDone s
  | .dwEnd rq => Sys2Proof.Machine.execDwEnd rq s
  | .mboxStage rq m value => Sys2Proof.Machine.execMboxStage rq m value s
  | .mboxPush rq m value => Sys2Proof.Machine.execMboxPush rq m value s
  | .mboxPop rq m wide => Sys2Proof.Machine.execMboxPop rq m wide s
  | .mboxConfig rq m value => Sys2Proof.Machine.execMboxConfig rq m value s
  | .doorbellRing rq d => Sys2Proof.Machine.execDoorbellRing rq d s
  | .lockAcquire rq k => Sys2Proof.Machine.execLockAcquire rq k s
  | .lockRelease rq k value => Sys2Proof.Machine.execLockRelease rq k value s
  | .lockForce k => Sys2Proof.Machine.execLockForce k s
  | .lockConfig rq k value => Sys2Proof.Machine.execLockConfig rq k value s
  | .externalAccessVote => Sys2Proof.Machine.execExternalAccessVote s
  | .checkpoint => Sys2Proof.Machine.execCheckpoint s
  | .lagTimeout => Sys2Proof.Machine.execLagTimeout s
  | .checkpointTimeout => Sys2Proof.Machine.execCheckpointTimeout s
  | .exchangeBatch => Sys2Proof.Machine.execExchangeBatch s
  | .batchApply k => Sys2Proof.Machine.execBatchApply k s
  | .psreqWrite k which value => Sys2Proof.Machine.execPsreqWrite k which value s
  | .safeToggle => Sys2Proof.Machine.execSafeToggle s
  | .resyncStart rq copy => Sys2Proof.Machine.execResyncStart rq copy s
  | .resyncCopy => Sys2Proof.Machine.execResyncCopy s
  | .resyncFreeze => Sys2Proof.Machine.execResyncFreeze s
  | .resyncCheck => Sys2Proof.Machine.execResyncCheck s
  | .cycleStart p => Sys2Proof.Machine.execCycleStart p s
  | .cycleMiss p => Sys2Proof.Machine.execCycleMiss p s
  | .frameReceive p ok body ref chk => Sys2Proof.Machine.execFrameReceive p ok body ref chk s
  | .cycleReceive p => Sys2Proof.Machine.execCycleReceive p s
  | .isoReceive p => Sys2Proof.Machine.execIsoReceive p s
  | .msgReceive p => Sys2Proof.Machine.execMsgReceive p s
  | .ackReceive p => Sys2Proof.Machine.execAckReceive p s
  | .dlyreqReceive p => Sys2Proof.Machine.execDlyreqReceive p s
  | .dlyrspReceive p => Sys2Proof.Machine.execDlyrspReceive p s
  | .pollReceive p body at_ => Sys2Proof.Machine.execPollReceive p body at_ s
  | .presentReceive p => Sys2Proof.Machine.execPresentReceive p s
  | .wakeFrame body => Sys2Proof.Machine.execWakeFrame body s
  | .slotReadStart p k => Sys2Proof.Machine.execSlotReadStart p k s
  | .slotLaunch p k => Sys2Proof.Machine.execSlotLaunch p k s
  | .contentionSend p at_ => Sys2Proof.Machine.execContentionSend p at_ s
  | .ackTimeout p => Sys2Proof.Machine.execAckTimeout p s
  | .ackSend p => Sys2Proof.Machine.execAckSend p s
  | .dlyrspSend p => Sys2Proof.Machine.execDlyrspSend p s
  | .dlyreqDue p => Sys2Proof.Machine.execDlyreqDue p s
  | .presentSend p => Sys2Proof.Machine.execPresentSend p s
  | .keyLoad rq ix => Sys2Proof.Machine.execKeyLoad rq ix s
  | .keyErase rq ix => Sys2Proof.Machine.execKeyErase rq ix s
  | .keyTxuse rq ix => Sys2Proof.Machine.execKeyTxuse rq ix s
  | .form rq => Sys2Proof.Machine.execForm rq s
  | .formAbort rq => Sys2Proof.Machine.execFormAbort rq s
  | .keychkRerun rq => Sys2Proof.Machine.execKeychkRerun rq s
  | .claim p collided => Sys2Proof.Machine.execClaim p collided s
  | .claimReceive p => Sys2Proof.Machine.execClaimReceive p s
  | .headConfirm p => Sys2Proof.Machine.execHeadConfirm p s
  | .turn p => Sys2Proof.Machine.execTurn p s
  | .turnAnswer p => Sys2Proof.Machine.execTurnAnswer p s
  | .joinReceive p => Sys2Proof.Machine.execJoinReceive p s
  | .regreq p => Sys2Proof.Machine.execRegreq p s
  | .registerReceive p => Sys2Proof.Machine.execRegisterReceive p s
  | .rootReceive p => Sys2Proof.Machine.execRootReceive p s
  | .keychkReceive p => Sys2Proof.Machine.execKeychkReceive p s
  | .keyresReceive p => Sys2Proof.Machine.execKeyresReceive p s
  | .formedReceive p => Sys2Proof.Machine.execFormedReceive p s
  | .rootRepeat => Sys2Proof.Machine.execRootRepeat s
  | .barrierArrive rq value => Sys2Proof.Machine.execBarrierArrive rq value s
  | .arriveReceive p => Sys2Proof.Machine.execArriveReceive p s
  | .releaseReceive p => Sys2Proof.Machine.execReleaseReceive p s
  | .barrierRelease => Sys2Proof.Machine.execBarrierRelease s
  | .snapReceive p => Sys2Proof.Machine.execSnapReceive p s
  | .snapshotCapture => Sys2Proof.Machine.execSnapshotCapture s
  | .resetReceive p => Sys2Proof.Machine.execResetReceive p s
  | .lineReset => Sys2Proof.Machine.execLineReset s
  | .powerOn xmode => Sys2Proof.Machine.execPowerOn xmode s
  | .coreEnable => Sys2Proof.Machine.execCoreEnable s
  | .ioEnable good => Sys2Proof.Machine.execIoEnable good s
  | .railsGood t => Sys2Proof.Machine.execRailsGood t s
  | .oscValid t => Sys2Proof.Machine.execOscValid t s
  | .pllLock t => Sys2Proof.Machine.execPllLock t s
  | .fuseReadDone => Sys2Proof.Machine.execFuseReadDone s
  | .bootImageLoad bytes => Sys2Proof.Machine.execBootImageLoad bytes s
  | .imageVerify => Sys2Proof.Machine.execImageVerify s
  | .bootSourceTimeout => Sys2Proof.Machine.execBootSourceTimeout s
  | .pinReset => Sys2Proof.Machine.execPinReset s
  | .supplyWarning rail => Sys2Proof.Machine.execSupplyWarning rail s
  | .brownout rail => Sys2Proof.Machine.execBrownout rail s
  | .clockLoss => Sys2Proof.Machine.execClockLoss s
  | .clockRecover => Sys2Proof.Machine.execClockRecover s
  | .throttleStart k t => Sys2Proof.Machine.execThrottleStart k t s
  | .throttleEnd k t => Sys2Proof.Machine.execThrottleEnd k t s
  | .overtemp k t => Sys2Proof.Machine.execOvertemp k t s
  | .powerCycleRestart => Sys2Proof.Machine.execPowerCycleRestart s
  | .systemSoftReset rq => Sys2Proof.Machine.execSystemSoftReset rq s
  | .doze rq => Sys2Proof.Machine.execDoze rq s
  | .dozeEntry => Sys2Proof.Machine.execDozeEntry s
  | .dozeWake src => Sys2Proof.Machine.execDozeWake src s
  | .watch rq => Sys2Proof.Machine.execWatch rq s
  | .shelf rq => Sys2Proof.Machine.execShelf rq s
  | .powerDownStep => Sys2Proof.Machine.execPowerDownStep s
  | .wakePin n => Sys2Proof.Machine.execWakePin n s
  | .wakeTimer => Sys2Proof.Machine.execWakeTimer s
  | .wakeShock c above => Sys2Proof.Machine.execWakeShock c above s
  | .enginePowerGate e => Sys2Proof.Machine.execEnginePowerGate e s
  | .enginePowerUp e => Sys2Proof.Machine.execEnginePowerUp e s
  | .fuseProgram rq word bit => Sys2Proof.Machine.execFuseProgram rq word bit s
  | .fuseProgramDone => Sys2Proof.Machine.execFuseProgramDone s
  | .txkick rq n => Sys2Proof.Machine.execTxkick rq n s
  | .ethTxDone n sfd done => Sys2Proof.Machine.execEthTxDone n sfd done s
  | .ethRxFrame n bytes fcs sfd done => Sys2Proof.Machine.execEthRxFrame n bytes fcs sfd done s
  | .mdioTransfer rq read phy reg data => Sys2Proof.Machine.execMdioTransfer rq read phy reg data s
  | .mdioDone data => Sys2Proof.Machine.execMdioDone data s
  | .hspiWrite addr words => Sys2Proof.Machine.execHspiWrite addr words s
  | .hspiRead addr n => Sys2Proof.Machine.execHspiRead addr n s
  | .hspiStatus => Sys2Proof.Machine.execHspiStatus s
  | .hspiIrqack mask => Sys2Proof.Machine.execHspiIrqack mask s
  | .hspiBootload words => Sys2Proof.Machine.execHspiBootload words s
  | .hspiWritePerform => Sys2Proof.Machine.execHspiWritePerform s
  | .bootdataPop => Sys2Proof.Machine.execBootdataPop s
  | .qspiTransfer rq value => Sys2Proof.Machine.execQspiTransfer rq value s
  | .qspiDone bytes => Sys2Proof.Machine.execQspiDone bytes s
  | .gpioSet rq pins => Sys2Proof.Machine.execGpioSet rq pins s
  | .gpioClr rq pins => Sys2Proof.Machine.execGpioClr rq pins s
  | .gpioEdge pins => Sys2Proof.Machine.execGpioEdge pins s
  | .perfOwnWrite rq e j value => Sys2Proof.Machine.execPerfOwnWrite rq e j value s
  | .tagChoose e => Sys2Proof.Machine.execTagChoose e s
  | .tagComplete e outcome slots met target fd dh xw => Sys2Proof.Machine.execTagComplete e outcome slots met target fd dh xw s
  | .bwWindowEnd e => Sys2Proof.Machine.execBwWindowEnd e s
  | .tapExtest => Sys2Proof.Machine.execTapExtest s
  | .tapIdcode => Sys2Proof.Machine.execTapIdcode s
  | .tapSamplePreload bits => Sys2Proof.Machine.execTapSamplePreload bits s
  | .tapBypass bit => Sys2Proof.Machine.execTapBypass bit s
  | .tapReset => Sys2Proof.Machine.execTapReset s
  | .dbgRead addr => Sys2Proof.Machine.execDbgRead addr s
  | .dbgWrite addr value => Sys2Proof.Machine.execDbgWrite addr value s
  | .dbgaccDone => Sys2Proof.Machine.execDbgaccDone s
  | .debugRequest value => Sys2Proof.Machine.execDebugRequest value s
  | .sessionOpen rq t ring cap => Sys2Proof.Machine.execSessionOpen rq t ring cap s
  | .sessionClose rq => Sys2Proof.Machine.execSessionClose rq s
  | .halt t => Sys2Proof.Machine.execHalt t s
  | .resume t => Sys2Proof.Machine.execResume t s
  | .step t => Sys2Proof.Machine.execStep t s
  | .debugReset => Sys2Proof.Machine.execDebugReset s
  | .syncOutputFall c n upper => Sys2Proof.Machine.execSyncOutputFall c n upper s
  | .tripBlankLimit c src => Sys2Proof.Machine.execTripBlankLimit c src s
  | .watchokChange ok => Sys2Proof.Machine.execWatchokChange ok s
  | .supplyWarningEnd rail => Sys2Proof.Machine.execSupplyWarningEnd rail s
  | .lossOfVaon => Sys2Proof.Machine.execLossOfVaon s
  | .resetRelease => Sys2Proof.Machine.execResetRelease s
  | .x32CrystalValid => Sys2Proof.Machine.execX32CrystalValid s
  | .pedestalClearDone => Sys2Proof.Machine.execPedestalClearDone s
  | .dlyrspTimeout p => Sys2Proof.Machine.execDlyrspTimeout p s
  | .caliperBoundary => Sys2Proof.Machine.execCaliperBoundary s

end Sys2Proof.Machine
end

