-- ==== Sys2Proof/Machine/Step.lean ====
section
/-! DEFINITION. The step: the command in front of the queue, or a tick of CCLK. -/

namespace Sys2Proof.Machine

/-- One step. With no command waiting the clock goes on by one CCLK edge and nothing else changes (log 2). -/
def step (s : State) : Host.Outcome State Fault Refusal :=
  match s.pending with
  | [] => .next { s with now := s.now + 1 }
  | c :: rest => exec c { s with pending := rest }

/-- The state with the command that a word spells in front of its queue. -/
def State.withFetchWord (s : State) (nbits w : Nat) : State :=
  match decodeTableWord nbits w with
  | some c => { s with pending := c :: s.pending }
  | none => s

end Sys2Proof.Machine
end

