-- ==== Sys2Proof/Safety.lean ====
section
/-! DEFINITION. What claims about a run are stated in: the canonical form of memory and tables, accesses that reach their register, drives that stay off. -/

namespace Sys2Proof.Machine

/-- The canonical form of memory: addresses rising, no entry equal to what an unlisted address reads as. -/
def Memory.wf (m : List (Nat × Byte)) : Bool := twf (fun _ => 0#8) m

/-- The canonical form of every sparse table, so that equal contents are equal data. -/
def State.canonical (s : State) : Bool :=
  Memory.wf s.mem && twf regReset s.regs && twf regReset s.live && twf (fun _ => PageSt.idle) s.pages && twf (fun _ => ChanSt.idle) s.chans

/-- An access to the register at `a` reaches it: the device runs (R581), the requester may have it (R36), nothing holds it (R28, R37) and the block has power (R27). `w` is the value of a write. -/
def State.reaches (s : State) (rq : Rq) (a : Nat) (w : Option Nat) : Bool :=
  s.awake && isRegAddr a && a % 4 == 0 &&
    (match pageAt (a / 4096 * 4096) with
      | some p => s.accessOk rq p && !s.regHeld rq p (a % 4096) w && !s.off p.base
      | none => false)
/-- A write by `rq` reaches the register; no hold depends on the value. -/
def State.writable (s : State) (rq : Rq) (a : Nat) : Bool := s.reaches rq a (some 0)
/-- A read by `rq` reaches the register. -/
def State.readable (s : State) (rq : Rq) (a : Nat) : Bool := s.reaches rq a none

/-- The device is without core power: none of its blocks can act (R581). -/
def State.dark (s : State) : Bool := s.plat.power == .off || s.plat.power == .watch || s.plat.power == .shelf

end Sys2Proof.Machine
end

