-- ==== Sys2Proof/Certificates/Slice0/Obligations.lean ====
section
/-! DEFINITION. What is claimed of the device, for the provers. A rule named in a docstring is where a clause comes from: the clause states the part of it that is written here. Only the statements that OBLIGATIONS.json marks 'stated' formalise a rule whole: NarrowAccess (R18), ForeignAccess (R31), Conditions (R304). A claim under `Sys2Proof.Claims` is one part of the obligation that joins it with its neighbours. -/

open Sys2Proof Sys2Proof.Machine

namespace Sys2Proof.Machine

/-- The command completes: exec answers a next state, of which `P` holds. -/
def Completes (i : Instr) (s : State) (P : State → Prop) : Prop := ∃ t, exec i s = .next t ∧ P t
/-- No register but those of the list changes. -/
def SameRegs (s t : State) (l : List Nat) : Prop := ∀ a, a ∉ l → t.reg a = s.reg a
/-- No byte of memory changes, and no code word's check bits. -/
def SameMem (s t : State) : Prop := ∀ a, t.byte a = s.byte a ∧ t.synd a = s.synd a
/-- Nothing changes but the clock, the registers, the edge's record and the events in flight. -/
def SameBlocks (s t : State) : Prop :=
  t.pages = s.pages ∧ t.held = s.held ∧ t.chans = s.chans ∧ t.cal = s.cal ∧ t.maqs = s.maqs ∧ t.cores = s.cores ∧ t.ped = s.ped ∧ t.arm = s.arm ∧
    t.line = s.line ∧ t.plat = s.plat ∧ t.host = s.host ∧ t.pending = s.pending ∧ SameMem s t
/-- Hardware has set no W1C bit of the register at this edge (R23). -/
def State.untouched (s : State) (a : Nat) : Prop := s.log.hw.lookup a = none

end Sys2Proof.Machine

/-! ## The queue -/

/-- A step runs the command in front of the queue on the state with the rest of the queue. -/
def Obligations.StepRunsFront : Prop :=
  ∀ (c : Instr) (rest : List Instr) (s : State), s.pending = c :: rest → step s = exec c { s with pending := rest }

/-- With no command waiting a step is one tick of CCLK (log 2: the model's choice). -/
def Sys2Proof.Claims.StepTicks : Prop :=
  ∀ s : State, s.pending = [] → step s = .next { s with now := s.now + 1 }

/-- No command can be sent that exec refuses, and only those that cannot be sent are refused (log 10). -/
def Sys2Proof.Claims.RefusedExactlyIllFormed : Prop :=
  ∀ (c : Instr) (s : State), (c.wf = false → exec c s = .refused .noSuchInstance) ∧ (c.wf = true → ∃ t, exec c s = .next t)

/-! ## Engine syllables -/

/-- Every syllable that R298 does not refuse is read back from its word, whatever its operands (R293, R299-R306). -/
def Obligations.SyllablesDecode : Prop :=
  ∀ (y : Syl) (stop : Bool), y.slot < 4 → y.ok = true → decSyl (y.enc stop) = (stop, y)

/-! ## Register pages (chapter 01) -/

/-- R30, R22: a 1 written to PAGE_STAT clears its bit, and clearing ERR clears VALID and MORE of PAGE_ERR; R29: a write to PAGE_IRQSET sets bits as a hardware set would. -/
def Sys2Proof.Claims.StatusBits : Prop :=
  (∀ (rq : Rq) (page bits : Nat) (s : State), (Instr.pageStatClear rq page bits).wf = true → s.writable rq (page + 0xC) = true → s.untouched (page + 0xC) →
    Completes (.pageStatClear rq page bits) s (fun t =>
      t.reg (page + 0xC) = s.reg (page + 0xC) &&& ~~~(BitVec.ofNat 32 bits) ∧
      (bitOf bits 31 = true → t.b (page + 0x18) 31 = false ∧ t.f (page + 0x18) 23 20 = 0) ∧
      (bitOf bits 31 = false → t.reg (page + 0x18) = s.reg (page + 0x18)) ∧
      SameRegs s t [page + 0xC, page + 0x18] ∧ SameBlocks s t ∧ t.flight = s.flight)) ∧
  (∀ (rq : Rq) (page bits : Nat) (p : Page) (s : State), (Instr.irqSet rq page bits).wf = true → pageAt page = some p → s.writable rq (page + 0x14) = true →
    Completes (.irqSet rq page bits) s (fun t =>
      t.reg (page + 0xC) = s.reg (page + 0xC) ||| BitVec.ofNat 32 (Nat.land bits (statMask p.blk)) ∧ SameRegs s t [page + 0xC] ∧ SameBlocks s t))

/-- R29: a write of PAGE_IRQEN stores it, and raises the page event exactly when it takes a bit from 0 to 1 whose PAGE_STAT bit is 1. -/
def Sys2Proof.Claims.IrqEnable : Prop :=
  ∀ (rq : Rq) (page value : Nat) (p : Page) (s : State), (Instr.irqEnableWrite rq page value).wf = true → pageAt page = some p →
    s.writable rq (page + 0x10) = true → s.log.ev = [] →
    Completes (.irqEnableWrite rq page value) s (fun t =>
      t.reg (page + 0x10) = BitVec.ofNat 32 value ∧ SameRegs s t [page + 0x10] ∧ SameBlocks s t ∧
      ((BitVec.ofNat 32 value &&& ~~~(s.reg (page + 0x10)) &&& s.reg (page + 0xC) = 0#32) → t.flight = s.flight) ∧
      ((BitVec.ofNat 32 value &&& ~~~(s.reg (page + 0x10)) &&& s.reg (page + 0xC) ≠ 0#32) →
        ∃ f ∈ t.flight, f.id = (s.pageEvent p).1 ∧ f.due = s.now + 5))

/-- R25, R26: NOW copies every SH field from shadow to live at the next edge; ARM waits for the block's boundary, or acts as NOW where the block has none; DISARM cancels. -/
def Obligations.Commits : Prop :=
  (∀ (rq : Rq) (page : Nat) (p : Page) (s : State), (Instr.commitNow rq page).wf = true → pageAt page = some p → s.writable rq (page + 0x1C) = true →
    Completes (.commitNow rq page) s (fun t =>
      (∀ om ∈ shOffsets p.blk, t.lreg (page + om.1) = s.reg (page + om.1) &&& om.2) ∧ t.now = s.now + 1 ∧ SameMem s t ∧ t.pages = s.pages)) ∧
  (∀ (rq : Rq) (page : Nat) (p : Page) (s : State), (Instr.commitArm rq page).wf = true → pageAt page = some p → s.writable rq (page + 0x1C) = true →
    Completes (.commitArm rq page) s (fun t =>
      (hasBoundary p.blk = true → (t.page page).armedAt = some s.now ∧ t.b (page + 0x1C) 8 = true ∧ t.live = s.live ∧ SameRegs s t [page + 0x1C]) ∧
      (hasBoundary p.blk = false → ∀ om ∈ shOffsets p.blk, t.lreg (page + om.1) = s.reg (page + om.1) &&& om.2) ∧ SameMem s t)) ∧
  (∀ (rq : Rq) (page : Nat) (s : State), (Instr.commitDisarm rq page).wf = true → s.writable rq (page + 0x1C) = true →
    Completes (.commitDisarm rq page) s (fun t =>
      (t.page page).armedAt = none ∧ t.b (page + 0x1C) 8 = false ∧ t.live = s.live ∧ SameRegs s t [page + 0x1C] ∧ SameMem s t))

/-- R28: SRST clears PAGE_STAT and PAGE_ERR and starts 16 CCLK of BUSY, at whose end the page holds nothing any more. -/
def Sys2Proof.Claims.SoftReset : Prop :=
  (∀ (rq : Rq) (page : Nat) (s : State), (Instr.softReset rq page).wf = true → s.writable rq (page + 8) = true →
    Completes (.softReset rq page) s (fun t =>
      (t.page page).busyUntil = some (s.now + 16) ∧ (t.page page).armedAt = none ∧ t.reg (page + 0xC) = 0#32 ∧ t.reg (page + 0x18) = 0#32)) ∧
  (∀ (page u : Nat) (s : State), (Instr.softResetDone page).wf = true → s.awake = true → (s.page page).busyUntil = some u → s.held = [] →
    Completes (.softResetDone page) s (fun t => (t.page page).busyUntil = none ∧ t.now = max s.now u ∧ SameRegs s t [] ∧ SameMem s t))

/-- R27, R588: PWRPOL takes the value written; a block released after OFF, its memories filled, answers again. -/
def Sys2Proof.Claims.PowerPolicy : Prop :=
  (∀ (rq : Rq) (page pol : Nat) (s : State), (Instr.setPwrpol rq page pol).wf = true → s.writable rq (page + 8) = true → pol ≠ 3 →
    Completes (.setPwrpol rq page pol) s (fun t => t.f (page + 8) 5 4 = pol ∧ t.b (page + 8) 0 = s.b (page + 8) 0 ∧ SameRegs s t [page + 8] ∧ SameMem s t)) ∧
  (∀ (rq : Rq) (s : State), rq.ok = true → s.writable rq (Reg.GPIO.page + 8) = true →
    Completes (.setPwrpol rq Reg.GPIO.page 3) s (fun t => t.off Reg.GPIO.page = true ∧ t.reg Reg.GPIO.DIR = 0#32 ∧ t.reg Reg.GPIO.OUT = 0#32 ∧ SameMem s t)) ∧
  (∀ (page : Nat) (p : Page) (s : State), pageAt page = some p → s.awake = true → (s.page page).releasing = true → s.rasp.clears = [] → s.held = [] →
    p.blk = 0x41 ∨ p.blk = 0x42 →
    Completes (.blockRelease page) s (fun t => (t.page page).releasing = false ∧ SameRegs s t [] ∧ SameMem s t))

/-- R36, R37: only ring 0 changes the owner, and the new owner's accesses are held for 18 CCLK. -/
def Sys2Proof.Claims.Ownership : Prop :=
  (∀ (rq : Rq) (page t : Nat) (p : Page) (s : State), (Instr.changeOwner rq page t).wf = true → pageAt page = some p → p.blk = 0x80 ∨ p.blk = 0x83 →
    rq.ring = 0 → s.writable rq (page + 4) = true → s.f (page + 4) 8 0 ≠ t →
    Completes (.changeOwner rq page t) s (fun u =>
      u.f (page + 4) 8 0 = t ∧ (u.page page).ownUntil = some (s.now + 18) ∧ u.reg (page + 0x10) = 0#32 ∧ u.reg (page + 0xC) = 0#32 ∧ SameMem s u)) ∧
  (∀ (rq : Rq) (page t : Nat) (s : State), (Instr.changeOwner rq page t).wf = true → rq.ring ≠ 0 → s.writable rq (page + 4) = true →
    Completes (.changeOwner rq page t) s (fun u => u.answer = .buserr ∧ SameRegs s u [] ∧ SameBlocks s u)) ∧
  (∀ (page u : Nat) (p : Page) (s : State), pageAt page = some p → 12 < p.blk → s.awake = true → (s.page page).ownUntil = some u → s.held = [] →
    Completes (.ownerChangeDone page) s (fun t => (t.page page).ownUntil = none ∧ (t.page page).busyUntil = none ∧ t.now = max s.now u ∧ SameRegs s t [] ∧ SameMem s t))

/-- R22: a write of the whole of a plain RW register stores it; R35, R36: an access of another tenant's page is refused and changes nothing. -/
def Obligations.PlainRegisters : Prop :=
  (∀ (rq : Rq) (v : Nat) (s : State), rq.ok = true → inBits 32 v = true → s.writable rq Reg.GPIO.DIR = true → s.log.inc = [] → s.host.gpio.acts = [] →
    Completes (.registerWrite rq Reg.GPIO.DIR 4 v) s (fun t => t.answer = .ok ∧ t.reg Reg.GPIO.DIR = BitVec.ofNat 32 v ∧ SameRegs s t [Reg.GPIO.DIR] ∧ SameMem s t)) ∧
  (∀ (rq : Rq) (a n v : Nat) (p : Page) (s : State), (Instr.registerWrite rq a n v).wf = true → pageAt (a / 4096 * 4096) = some p → s.awake = true →
    s.accessOk rq p = false →
    Completes (.registerWrite rq a n v) s (fun t => t.answer = .buserr ∧ SameRegs s t [] ∧ SameBlocks s t)) ∧
  (∀ (rq : Rq) (c : Nat) (s : State), rq.ok = true → rq.dbg = false → c < 48 → s.readable rq (Reg.CHAN.LAT c) = true → s.log.rc = [] →
    Completes (.rcRead rq (Reg.CHAN.LAT c)) s (fun t =>
      t.answer = .ok ∧ t.data = BitVec.ofNat 64 (s.reg (Reg.CHAN.LAT c)).toNat ∧ t.f (Reg.CHAN.LAT c) 31 16 = 0 ∧
      t.f (Reg.CHAN.LAT c) 15 0 = s.f (Reg.CHAN.LAT c) 15 0 ∧ SameRegs s t [Reg.CHAN.LAT c] ∧ SameMem s t))

/-- R18: an 8-bit or 16-bit access to a register page that the requester may reach is not performed, whoever made it: it gets BUSERR, a read 0, no register changes but those of the capture, and the page captures code 0x01 as R30 says. -/
def Obligations.NarrowAccess : Prop :=
  (∀ (rq : Rq) (kind a n : Nat) (w : Option Nat) (p : Page) (s : State), isRegAddr a = true → pageAt (a / 4096 * 4096) = some p → s.accessOk rq p = true → n = 1 ∨ n = 2 →
    ∃ t, busAccess rq kind a n w s = (.buserr, 0, t) ∧
      t.b (p.base + 0x18) 31 = true ∧ t.b (p.base + 0xC) 31 = true ∧
      (s.b (p.base + 0x18) 31 = false → t.f (p.base + 0x18) 30 24 = 1 ∧ t.f (p.base + 0x18) 19 0 = a % 4096 / 4 * 4 ∧ t.f (p.base + 0x18) 23 20 = s.f (p.base + 0x18) 23 20) ∧
      (s.b (p.base + 0x18) 31 = true → t.f (p.base + 0x18) 30 24 = s.f (p.base + 0x18) 30 24 ∧ t.f (p.base + 0x18) 19 0 = s.f (p.base + 0x18) 19 0 ∧
        t.f (p.base + 0x18) 23 20 = min 15 (s.f (p.base + 0x18) 23 20 + 1)) ∧
      SameRegs s t [p.base + 0xC, p.base + 0x18] ∧ SameBlocks s t) ∧
  (∀ (rq : Rq) (a n v : Nat) (p : Page) (s : State), (Instr.registerWrite rq a n v).wf = true → n = 1 ∨ n = 2 → pageAt (a / 4096 * 4096) = some p → s.awake = true → s.accessOk rq p = true →
    Completes (.registerWrite rq a n v) s (fun t => t.answer = .buserr ∧ t.data = 0#64 ∧ (s.b (p.base + 0x18) 31 = false → t.f (p.base + 0x18) 30 24 = 1) ∧
      SameRegs s t [p.base + 0xC, p.base + 0x18] ∧ SameBlocks s t))

/-- R31: an access refused for ownership, whoever made it and whatever its size, leaves the page's first-error record and status as they were, and all else. -/
def Obligations.ForeignAccess : Prop :=
  ∀ (rq : Rq) (kind a n : Nat) (w : Option Nat) (p : Page) (s : State), isRegAddr a = true → pageAt (a / 4096 * 4096) = some p → s.accessOk rq p = false →
    busAccess rq kind a n w s = (.buserr, 0, s) ∧
    (∀ v, (Instr.registerWrite rq a n v).wf = true → s.awake = true → Completes (.registerWrite rq a n v) s (fun t =>
      t.answer = .buserr ∧ t.reg (p.base + 0xC) = s.reg (p.base + 0xC) ∧ t.reg (p.base + 0x18) = s.reg (p.base + 0x18) ∧ SameRegs s t [] ∧ SameBlocks s t ∧ t.flight = s.flight)) ∧
    ((Instr.rcRead rq a).wf = true → s.awake = true → Completes (.rcRead rq a) s (fun t =>
      t.answer = .buserr ∧ t.data = 0#64 ∧ t.reg (p.base + 0xC) = s.reg (p.base + 0xC) ∧ t.reg (p.base + 0x18) = s.reg (p.base + 0x18) ∧ SameRegs s t [] ∧ SameBlocks s t ∧ t.flight = s.flight))

/-! ## Events and modes (chapter 02) -/

/-- R65: a bit written to EVT.RAISE raises its software event, which every consumer has 5 CCLK later; a tenant raises only its own; R661: the wave arrives at its edge. -/
def Sys2Proof.Claims.SoftwareEvents : Prop :=
  (∀ (rq : Rq) (k bits j : Nat) (s : State), (Instr.evtRaise rq k bits).wf = true → s.writable rq (Reg.EVT.RAISE k) = true → s.flight = [] →
    j < 32 → rq.ring = 0 ∨ s.f (Reg.EVT.SWOWN k) 8 0 = rq.tenant →
    Completes (.evtRaise rq k bits) s (fun t =>
      (bitOf bits j = true ↔ ∃ f ∈ t.flight, f.id = 0x800 + 32 * k + j ∧ f.due = s.now + 5 ∧ f.scope = .all) ∧ SameRegs s t [] ∧ SameBlocks s t)) ∧
  (∀ (rq : Rq) (k bits : Nat) (s : State), (Instr.evtRaise rq k bits).wf = true → s.writable rq (Reg.EVT.RAISE k) = true →
    rq.ring ≠ 0 → s.f (Reg.EVT.SWOWN k) 8 0 ≠ rq.tenant →
    Completes (.evtRaise rq k bits) s (fun t => t.answer = .buserr ∧ t.flight = s.flight ∧ SameRegs s t [] ∧ SameBlocks s t)) ∧
  (∀ (f : Flight) (id : Nat) (k : Task) (s : State), s.awake = true → s.plat.dozing = false → s.flight = [f] → f.scope = .home (k.unit / 8) → f.tag = some k.tenant →
    s.arm.tasks = [(id, k)] → dJob k.words = false → (dTrigs k.words).filter (fun i => i == f.id) = [f.id] → k.state = .running → k.unit < 96 → k.slot < 64 →
    s.slotF k.unit k.slot 31 31 = 1 → s.slotF k.unit k.slot 27 24 < 15 →
    Completes .eventArrival s (fun t => t.slotF k.unit k.slot 27 24 = s.slotF k.unit k.slot 27 24 + 1 ∧ t.flight = [] ∧ t.now = max s.now f.due ∧ SameMem s t))

/-- R52: with EN 0 a write to MODE takes a legal mode; LATSEQ alone may be written at any time; with EN 1 another mode is refused. -/
def Obligations.ChannelModes : Prop :=
  (∀ (rq : Rq) (c value : Nat) (s : State), (Instr.modeWrite rq c value).wf = true → s.writable rq (Reg.CHAN.MODE c) = true →
    s.en (Reg.CHAN.page c) = false → bitsOf value 1 0 ≠ 3 →
    Completes (.modeWrite rq c value) s (fun t => t.reg (Reg.CHAN.MODE c) = BitVec.ofNat 32 (Nat.land value 0x733) ∧ SameMem s t)) ∧
  (∀ (rq : Rq) (c value : Nat) (s : State), (Instr.modeWrite rq c value).wf = true → s.writable rq (Reg.CHAN.MODE c) = true →
    bitsOf value 1 0 = s.f (Reg.CHAN.MODE c) 1 0 → bitsOf value 1 0 ≠ 3 → bitsOf value 10 8 = s.f (Reg.CHAN.MODE c) 10 8 →
    Completes (.modeWrite rq c value) s (fun t =>
      t.reg (Reg.CHAN.MODE c) = BitVec.ofNat 32 (Nat.land value 0x733) ∧ SameRegs s t [Reg.CHAN.MODE c] ∧ SameBlocks s t)) ∧
  (∀ (rq : Rq) (c value : Nat) (s : State), (Instr.modeWrite rq c value).wf = true → s.writable rq (Reg.CHAN.MODE c) = true →
    s.en (Reg.CHAN.page c) = true → bitsOf value 1 0 ≠ s.f (Reg.CHAN.MODE c) 1 0 →
    Completes (.modeWrite rq c value) s (fun t =>
      SameRegs s t [Reg.CHAN.page c + 0xC, Reg.CHAN.page c + 0x18] ∧ (s.b (Reg.CHAN.page c + 0x18) 31 = false → t.f (Reg.CHAN.page c + 0x18) 30 24 = 2) ∧ SameBlocks s t))

/-- What the model chose: an empty queue is a tick of CCLK (log 2), and exec refuses exactly the commands that nothing can send (log 10). -/
def Obligations.QueueChoices : Prop := Claims.StepTicks ∧ Claims.RefusedExactlyIllFormed

/-- Status bits, their enables and the software events (R22, R29, R30, R65, R661). -/
def Obligations.PageFlags : Prop := Claims.StatusBits ∧ Claims.IrqEnable ∧ Claims.SoftwareEvents

/-- Soft reset, power policy and ownership of a page (R27, R28, R36, R37, R588). -/
def Obligations.PageLifecycle : Prop := Claims.SoftReset ∧ Claims.PowerPolicy ∧ Claims.Ownership

/-! ## Converters (chapter 03) -/

/-- R94: REF.EN starts the reference buffer; READY comes at the 40,000th ACLK edge after the write. R106, R112, R113: REFA and REFB take a code only if HI0 lies above LO0, and the tracked levels start again from it. -/
def Sys2Proof.Claims.Reference : Prop :=
  (∀ (rq : Rq) (c : Nat) (on : Bool) (s : State), (Instr.refEnable rq c on).wf = true → s.writable rq (Reg.ADC.REF c) = true →
    Completes (.refEnable rq c on) s (fun t =>
      (on = true → t.reg (Reg.ADC.REF c) = s.reg (Reg.ADC.REF c) ||| 1#32 ∧ (s.b (Reg.ADC.REF c) 0 = false → (t.cv c).refAt = some s.now)) ∧
      (on = false → t.reg (Reg.ADC.REF c) = 0#32 ∧ (t.cv c).refAt = none) ∧ t.now = s.now ∧ SameRegs s t [Reg.ADC.REF c] ∧ SameMem s t)) ∧
  (∀ (c w : Nat) (s : State), c < 48 → s.awake = true → (s.cv c).refAt = some w →
    Completes (.refReady c) s (fun t =>
      t.b (Reg.ADC.REF c) 31 = true ∧ t.b (Reg.ADC.page c + 0xC) 0 = true ∧ t.now = max s.now ((w / 8 + 40000) * 8) ∧
      SameRegs s t [Reg.ADC.REF c, Reg.ADC.page c + 0xC] ∧ SameMem s t)) ∧
  (∀ (rq : Rq) (c : Nat) (b : Bool) (value : Nat) (s : State), (Instr.refCodeWrite rq c b value).wf = true →
    s.writable rq (if b then Reg.ADCCAL.REFB c else Reg.ADCCAL.REFA c) = true → bitsOf value 15 0 < bitsOf value 31 16 →
    Completes (.refCodeWrite rq c b value) s (fun t =>
      t.reg (if b then Reg.ADCCAL.REFB c else Reg.ADCCAL.REFA c) = BitVec.ofNat 32 value ∧
      t.reg (if b then Reg.ADCCAL.DRIFTB c else Reg.ADCCAL.DRIFTA c) = 0#32 ∧
      (if b then (t.cv c).driftB else (t.cv c).driftA).l = 64 * (bitsOf value 15 0 : Int) ∧
      (if b then (t.cv c).driftB else (t.cv c).driftA).h = 64 * (bitsOf value 31 16 : Int) ∧
      SameRegs s t (if b then [Reg.ADCCAL.REFB c, Reg.ADCCAL.DRIFTB c] else [Reg.ADCCAL.REFA c, Reg.ADCCAL.DRIFTA c]) ∧ SameMem s t)) ∧
  (∀ (rq : Rq) (c : Nat) (b : Bool) (value : Nat) (s : State), (Instr.refCodeWrite rq c b value).wf = true →
    s.writable rq (if b then Reg.ADCCAL.REFB c else Reg.ADCCAL.REFA c) = true → bitsOf value 31 16 ≤ bitsOf value 15 0 →
    s.b (Reg.ADCCAL.page c + 0x18) 31 = false →
    Completes (.refCodeWrite rq c b value) s (fun t =>
      t.f (Reg.ADCCAL.page c + 0x18) 30 24 = 0x1D ∧ t.b (Reg.ADCCAL.page c + 0xC) 31 = true ∧
      SameRegs s t [Reg.ADCCAL.page c + 0xC, Reg.ADCCAL.page c + 0x18] ∧ SameBlocks s t)) ∧
  (∀ (rq : Rq) (c : Nat) (s : State), (Instr.driftEnable rq c).wf = true → s.writable rq (Reg.ADCCAL.DRIFTCTL c) = true →
    s.b (Reg.ADCCAL.DRIFTCTL c) 0 = false →
    Completes (.driftEnable rq c) s (fun t =>
      t.b (Reg.ADCCAL.DRIFTCTL c) 0 = true ∧ t.b (Reg.ADCCAL.DRIFTCTL c) 1 = s.b (Reg.ADCCAL.DRIFTCTL c) 1 ∧
      t.f (Reg.ADCCAL.DRIFTCTL c) 7 4 = s.f (Reg.ADCCAL.DRIFTCTL c) 7 4 ∧
      (t.cv c).driftA.l = 64 * (s.f (Reg.ADCCAL.REFA c) 15 0 : Int) ∧ (t.cv c).driftA.h = 64 * (s.f (Reg.ADCCAL.REFA c) 31 16 : Int) ∧
      (t.cv c).driftB.l = 64 * (s.f (Reg.ADCCAL.REFB c) 15 0 : Int) ∧ (t.cv c).driftB.h = 64 * (s.f (Reg.ADCCAL.REFB c) 31 16 : Int) ∧
      SameRegs s t [Reg.ADCCAL.DRIFTCTL c, Reg.ADCCAL.DRIFTA c, Reg.ADCCAL.DRIFTB c] ∧ SameMem s t))

/-- R79, R82-R86: a trigger starts an idle sequencer; one that reaches a running one pends, is dropped and counted, or restarts it, as the policy says; a disable aborts. -/
def Sys2Proof.Claims.Sequencers : Prop :=
  (∀ (rq : Rq) (c u : Nat) (s : State), (Instr.seqSwtrig rq c u).wf = true → s.writable rq (Reg.SEQ.SEQCTL c u) = true →
    s.seqOn c u = true → s.f (Reg.SEQ.SEQCTL c u) 21 20 ≠ 3 → (s.sq c u).enabledAt < s.now → (s.sq c u).trigAt ≠ some s.now →
    (s.sq c u).run = false → (s.sq c u).endAt = none →
    Completes (.seqSwtrig rq c u) s (fun t =>
      (t.sq c u).run = true ∧ (t.sq c u).waiting = true ∧ (t.sq c u).step = 0 ∧ (t.sq c u).pend = false ∧ (t.sq c u).fromPend = false ∧
      (t.sq c u).nominal = (s.now + 7) / 8 * 8 ∧ t.now = s.now ∧ SameRegs s t [Reg.SEQ.SEQCTL c u] ∧ SameMem s t)) ∧
  (∀ (rq : Rq) (c u : Nat) (s : State), (Instr.seqSwtrig rq c u).wf = true → s.writable rq (Reg.SEQ.SEQCTL c u) = true →
    s.seqOn c u = true → (s.sq c u).enabledAt < s.now → (s.sq c u).trigAt ≠ some s.now → (s.sq c u).run = true →
    Completes (.seqSwtrig rq c u) s (fun t =>
      (s.f (Reg.SEQ.SEQCTL c u) 21 20 = 0 → (s.sq c u).pend = false →
        (t.sq c u).pend = true ∧ (t.sq c u).run = true ∧ (t.sq c u).step = (s.sq c u).step ∧ SameRegs s t [Reg.SEQ.SEQCTL c u]) ∧
      (s.f (Reg.SEQ.SEQCTL c u) 21 20 = 1 →
        t.reg (Reg.SEQ.DROPCNT c u) = s.reg (Reg.SEQ.DROPCNT c u) + 1#32 ∧ t.b (Reg.SEQ.page c + 0xC) u = true ∧
        (t.sq c u).pend = (s.sq c u).pend ∧ (t.sq c u).step = (s.sq c u).step ∧
        SameRegs s t [Reg.SEQ.SEQCTL c u, Reg.SEQ.DROPCNT c u, Reg.SEQ.page c + 0xC]) ∧
      (s.f (Reg.SEQ.SEQCTL c u) 21 20 = 2 →
        (t.sq c u).run = true ∧ (t.sq c u).waiting = true ∧ (t.sq c u).step = 0 ∧ t.b (Reg.SEQ.page c + 0xC) (4 + u) = true ∧
        (∀ v ∈ (t.cv c).convs, v.user ≠ u) ∧ SameRegs s t [Reg.SEQ.SEQCTL c u, Reg.SEQ.page c + 0xC]) ∧ SameMem s t)) ∧
  (∀ (c u e : Nat) (s : State), c < 48 → u < 4 → s.awake = true → (s.sq c u).endAt = some e → (s.sq c u).pend = true → (s.sq c u).run = false →
    Completes (.pendedTriggerAccept c u) s (fun t =>
      (t.sq c u).run = true ∧ (t.sq c u).fromPend = true ∧ (t.sq c u).pend = false ∧ (t.sq c u).waiting = true ∧ (t.sq c u).step = 0 ∧
      t.now = max s.now (e + 1) ∧ (t.sq c u).nominal = (t.now + 7) / 8 * 8 ∧ SameRegs s t [] ∧ SameMem s t)) ∧
  (∀ (rq : Rq) (c u : Nat) (s : State), (Instr.seqAbort rq c (.unit u)).wf = true → s.writable rq (Reg.SEQ.SEQCTL c u) = true →
    s.b (Reg.SEQ.SEQCTL c u) 0 = true → s.f (Reg.SEQ.SEQCTL c u) 21 20 ≠ 3 →
    Completes (.seqAbort rq c (.unit u)) s (fun t =>
      (t.sq c u).run = false ∧ (t.sq c u).pend = false ∧ (t.sq c u).waiting = false ∧ (∀ v ∈ (t.cv c).convs, v.user ≠ u) ∧
      t.b (Reg.SEQ.SEQCTL c u) 0 = false ∧ SameRegs s t [Reg.SEQ.SEQCTL c u] ∧ SameMem s t)) ∧
  (∀ (rq : Rq) (c : Nat) (s : State), (Instr.seqAbort rq c .seq).wf = true → s.writable rq (Reg.SEQ.page c + 8) = true → s.en (Reg.SEQ.page c) = true →
    Completes (.seqAbort rq c .seq) s (fun t =>
      t.en (Reg.SEQ.page c) = false ∧ (∀ u < 4, (t.sq c u).run = false ∧ (t.sq c u).pend = false ∧ ∀ v ∈ (t.cv c).convs, v.user ≠ u) ∧
      SameRegs s t [Reg.SEQ.page c + 8] ∧ SameMem s t)) ∧
  (∀ (rq : Rq) (c : Nat) (s : State), (Instr.seqAbort rq c .adc).wf = true → s.writable rq (Reg.ADC.page c + 8) = true → s.en (Reg.ADC.page c) = true →
    Completes (.seqAbort rq c .adc) s (fun t =>
      t.en (Reg.ADC.page c) = false ∧ (∀ u < 4, (t.sq c u).run = false ∧ (t.sq c u).pend = false) ∧ (t.cv c).cal = none ∧ SameMem s t))

/-- R75-R80, R88, R95: with nothing else on the converters a waiting pair opens at the next ACLK edge from its nominal instant, both halves with one stamp. R98, R100, R101: the result of an A-only step on VIB, its bits in the word that the FIFO takes 162 CCLK after the sampling instant. -/
def Sys2Proof.Claims.Conversions : Prop :=
  (∀ (c u w : Nat) (s : State), c < 48 → u < 4 → s.awake = true → s.adcRuns c = true → (s.cv c).convs = [] → (s.cv c).cal = none →
    s.b (Reg.ADCCAL.DRIFTCTL c) 0 = false → (∀ k < 4, k ≠ u → (s.sq c k).waiting = false) → (∀ k < 4, (s.sq c k).hold = 0) →
    (s.sq c u).run = true → (s.sq c u).waiting = true → (s.sq c u).latched = none → s.log.sw = [] →
    w = (s.reg (Reg.SEQ.STEP c (8 * u + (s.sq c u).step))).toNat → bitsOf w 29 28 = 0 →
    Completes (.acquisitionOpen c) s (fun t =>
      t.now = (max s.now (s.sq c u).nominal + 7) / 8 * 8 ∧
      (∃ a b, (t.cv c).convs = [a, b] ∧ a.user = u ∧ b.user = u ∧ a.cv = 0 ∧ b.cv = 1 ∧ a.input = bitsOf w 3 0 ∧ b.input = bitsOf w 7 4 ∧
        a.openAt = t.now ∧ b.openAt = t.now ∧ a.stamp = b.stamp ∧ a.early = !s.b (Reg.ADC.REF c) 31 ∧ b.early = a.early ∧
        a.dly = decide ((s.sq c u).nominal < t.now)) ∧
      (bitOf w 31 = false → (s.sq c u).step < 7 →
        (t.sq c u).waiting = true ∧ (t.sq c u).step = (s.sq c u).step + 1 ∧ (t.sq c u).nominal = t.now + 160) ∧
      (bitOf w 31 = true → (t.sq c u).waiting = false) ∧ SameRegs s t [] ∧ SameMem s t)) ∧
  (∀ (c u rawA rawB k : Nat) (v : Conv) (q : List DWord) (s : State), (Instr.conversionEnd c u rawA rawB).wf = true → u < 4 → s.awake = true →
    (s.cv c).convs = [v] → v.user = u → v.cv = 0 → v.input = 4 → v.early = false → bitsOf v.word 29 28 = 1 → bitOf v.word 25 = true → bitOf v.word 26 = false →
    v.step < 8 → v.stamp < 2 ^ 32 → (s.sq c u).run = true → (s.sq c u).waiting = false → (s.sq c u).pendB = none → s.runs (Reg.ADCFIFO.page c) = true →
    (s.cv c).fifoA.q = q → q.length < 32 → s.b (Reg.ADCCAL.DRIFTCTL c) 1 = false → s.log.sw = [] → k = (s.reg (Reg.ADCCAL.COEF c 4)).toNat →
    Completes (.conversionEnd c u rawA rawB) s (fun t =>
      t.now = max s.now (v.openAt + 162) ∧ (t.cv c).convs = [] ∧ (t.sq c u).run = false ∧ (t.sq c u).endAt = some t.now ∧
      (∃ w, (t.cv c).fifoA.q = q ++ [w] ∧
        sx 16 (w.toNat / 2 ^ 16 % 2 ^ 16) =
          max (-32768) (min 32767 (((4 * (rawA : Int) - 32768 - sx 16 (k % 2 ^ 16)) * ((k / 2 ^ 16 : Nat) : Int) + 8192) / 16384)) ∧
        w.toNat / 2 ^ 32 = v.stamp ∧ w.toNat / 2 ^ 12 % 16 = 4 ∧ w.toNat / 2 ^ 10 % 4 = u ∧ w.toNat / 2 ^ 7 % 8 = v.step) ∧
      SameRegs s t [] ∧ SameMem s t))

/-- R101-R104: a flush empties the FIFO it names; a read of the HI half pops the oldest entry, and of an empty FIFO reads 0 and is captured with code 4. -/
def Sys2Proof.Claims.ResultFifos : Prop :=
  (∀ (rq : Rq) (c : Nat) (a b : Bool) (s : State), (Instr.fifoFlush rq c a b).wf = true → s.writable rq (Reg.ADCFIFO.FLUSH c) = true →
    (s.cv c).fifoA.pushAt ≠ some s.now → (s.cv c).fifoB.pushAt ≠ some s.now →
    Completes (.fifoFlush rq c a b) s (fun t =>
      (t.cv c).fifoA.q = (if a then [] else (s.cv c).fifoA.q) ∧ (t.cv c).fifoB.q = (if b then [] else (s.cv c).fifoB.q) ∧ SameRegs s t [] ∧ SameMem s t)) ∧
  (∀ (rq : Rq) (c : Nat) (b : Bool) (w : DWord) (q : List DWord) (f : Fifo) (s : State), (Instr.fifoPop rq c b).wf = true → rq.dbg = false →
    s.readable rq (if b then Reg.ADCFIFO.BDATA_HI c else Reg.ADCFIFO.ADATA_HI c) = true → f = (if b then (s.cv c).fifoB else (s.cv c).fifoA) →
    f.q = w :: q → f.pushAt ≠ some s.now → f.flushAt ≠ some s.now →
    Completes (.fifoPop rq c b) s (fun t =>
      t.answer = .ok ∧ t.data = w >>> 32 ∧ (if b then (t.cv c).fifoB else (t.cv c).fifoA).q = q ∧
      (if b then (t.cv c).fifoA else (t.cv c).fifoB) = (if b then (s.cv c).fifoA else (s.cv c).fifoB) ∧ SameRegs s t [] ∧ SameMem s t)) ∧
  (∀ (rq : Rq) (c : Nat) (b : Bool) (s : State), (Instr.fifoPop rq c b).wf = true → rq.dbg = false →
    s.readable rq (if b then Reg.ADCFIFO.BDATA_HI c else Reg.ADCFIFO.ADATA_HI c) = true → (if b then (s.cv c).fifoB else (s.cv c).fifoA).q = [] →
    (if b then (s.cv c).fifoB else (s.cv c).fifoA).flushAt ≠ some s.now → s.b (Reg.ADCFIFO.page c + 0x18) 31 = false →
    Completes (.fifoPop rq c b) s (fun t =>
      t.data = 0#64 ∧ t.f (Reg.ADCFIFO.page c + 0x18) 30 24 = 4 ∧ t.b (Reg.ADCFIFO.page c + 0xC) 31 = true ∧
      (if b then (t.cv c).fifoB else (t.cv c).fifoA).q = [] ∧ SameMem s t))

/-- R106, R107: a calibration command starts with the reference ready, the converters running, none in progress, an input it may measure, and for SPAN the zero point of the same converters and input; ABORT ends it with code 0x19; a ZERO that has its conversions keeps its sums. -/
def Sys2Proof.Claims.Calibration : Prop :=
  (∀ (rq : Rq) (c input cvs : Nat) (s : State), (Instr.calZero rq c input cvs).wf = true → s.writable rq (Reg.ADCCAL.CALCTL c) = true →
    s.refReady c = true → s.adcRuns c = true → (s.cv c).cal = none → input ≤ 4 → cvs ≠ 0 →
    Completes (.calZero rq c input cvs) s (fun t =>
      (∃ r, (t.cv c).cal = some r ∧ r.kind = .zero ∧ r.input = input ∧ r.cva = bitOf cvs 0 ∧ r.cvb = bitOf cvs 1 ∧ r.nA = 0 ∧ r.nB = 0 ∧ r.done = false) ∧
      (t.cv c).zero = none ∧ t.b (Reg.ADCCAL.CALCTL c) 31 = true ∧ SameRegs s t [Reg.ADCCAL.CALCTL c] ∧ SameMem s t)) ∧
  (∀ (rq : Rq) (c input cvs : Nat) (z : CalZero) (s : State), (Instr.calSpan rq c input cvs).wf = true → s.writable rq (Reg.ADCCAL.CALCTL c) = true →
    s.refReady c = true → s.adcRuns c = true → (s.cv c).cal = none → input ≤ 4 → cvs ≠ 0 → (s.cv c).zero = some z →
    z.cva = bitOf cvs 0 → z.cvb = bitOf cvs 1 → z.input = input →
    Completes (.calSpan rq c input cvs) s (fun t =>
      (∃ r, (t.cv c).cal = some r ∧ r.kind = .span ∧ r.input = input ∧ r.done = false) ∧ (t.cv c).zero = some z ∧
      t.b (Reg.ADCCAL.CALCTL c) 31 = true ∧ SameRegs s t [Reg.ADCCAL.CALCTL c] ∧ SameMem s t)) ∧
  (∀ (rq : Rq) (c input cvs : Nat) (s : State), (Instr.calSkew rq c input cvs).wf = true → s.writable rq (Reg.ADCCAL.CALCTL c) = true →
    s.refReady c = true → s.adcRuns c = true → (s.cv c).cal = none → input ≤ 4 → cvs ≠ 0 →
    Completes (.calSkew rq c input cvs) s (fun t =>
      (∃ r, (t.cv c).cal = some r ∧ r.kind = .skew ∧ r.input = input ∧ r.nS = 0 ∧ r.done = false) ∧ (t.cv c).zero = (s.cv c).zero ∧
      t.b (Reg.ADCCAL.CALCTL c) 31 = true ∧ SameRegs s t [Reg.ADCCAL.CALCTL c] ∧ SameMem s t)) ∧
  (∀ (rq : Rq) (c input cvs : Nat) (s : State), (Instr.calZero rq c input cvs).wf = true → s.writable rq (Reg.ADCCAL.CALCTL c) = true →
    (s.cv c).cal = none → s.b (Reg.ADCCAL.page c + 0x18) 31 = false →
    Completes (.calZero rq c input cvs) s (fun t =>
      (s.refReady c = false → t.f (Reg.ADCCAL.page c + 0x18) 30 24 = 0x14 ∧ (t.cv c).cal = none) ∧
      (s.refReady c = true → s.adcRuns c = true → 4 < input ∨ cvs = 0 → t.f (Reg.ADCCAL.page c + 0x18) 30 24 = 0x15 ∧ (t.cv c).cal = none))) ∧
  (∀ (rq : Rq) (c : Nat) (r : CalRun) (s : State), (Instr.calAbort rq c).wf = true → s.writable rq (Reg.ADCCAL.CALCTL c) = true →
    (s.cv c).cal = some r → s.b (Reg.ADCCAL.page c + 0x18) 31 = false →
    Completes (.calAbort rq c) s (fun t =>
      (t.cv c).cal = none ∧ t.b (Reg.ADCCAL.CALCTL c) 31 = false ∧ t.b (Reg.ADCCAL.page c + 0xC) 1 = true ∧ t.f (Reg.ADCCAL.page c + 0x18) 30 24 = 0x19 ∧
      (∀ v ∈ (t.cv c).convs, v.user ≠ 4 ∧ v.user ≠ 5) ∧
      SameRegs s t [Reg.ADCCAL.CALCTL c, Reg.ADCCAL.page c + 0xC, Reg.ADCCAL.page c + 0x18] ∧ SameMem s t)) ∧
  (∀ (c : Nat) (r : CalRun) (s : State), c < 48 → s.awake = true → (s.cv c).cal = some r → r.done = true → r.kind = .zero →
    Completes (.calComplete c) s (fun t =>
      (t.cv c).cal = none ∧ (∃ z, (t.cv c).zero = some z ∧ z.cva = r.cva ∧ z.cvb = r.cvb ∧ z.input = r.input) ∧ t.b (Reg.ADCCAL.CALCTL c) 31 = false ∧
      t.b (Reg.ADCCAL.page c + 0xC) 0 = true ∧ SameRegs s t [Reg.ADCCAL.CALCTL c, Reg.ADCCAL.page c + 0xC] ∧ SameMem s t)) ∧
  (∀ (c : Nat) (r : CalRun) (s : State), c < 48 → s.awake = true → (s.cv c).cal = some r → r.done = true → r.kind = .skew → 0 < r.nS → s.log.sw = [] →
    65536 * (r.nS : Int) ≤ r.sumSS → (2 ^ 14 * r.sumBS) % r.sumSS = 0 → -32768 ≤ 2 ^ 14 * r.sumBS / r.sumSS → 2 ^ 14 * r.sumBS / r.sumSS ≤ 32767 →
    Completes (.calComplete c) s (fun t =>
      (t.cv c).cal = none ∧ sx 16 (t.f (Reg.ADCCAL.SKEW c) 15 0) = 2 ^ 14 * r.sumBS / r.sumSS ∧ t.b (Reg.ADCCAL.SKEW c) 16 = s.b (Reg.ADCCAL.SKEW c) 16 ∧
      t.b (Reg.ADCCAL.page c + 0xC) 0 = true ∧ SameRegs s t [Reg.ADCCAL.CALCTL c, Reg.ADCCAL.SKEW c, Reg.ADCCAL.page c + 0xC] ∧ SameMem s t))

/-- The reference buffer, the tracked levels and the calibration commands (R94, R106-R113). -/
def Obligations.ConverterReference : Prop := Claims.Reference ∧ Claims.Calibration

/-- From a trigger through the conversions to the result FIFO (R75-R104). -/
def Obligations.ConversionFlow : Prop := Claims.Sequencers ∧ Claims.Conversions ∧ Claims.ResultFifos

/-! ## Comparators and position (chapters 04 and 05) -/

/-- R122-R124: a crossing sets its RAW bit and latch and counts; R120, R131, R132: enabling starts to settle with both outputs 0; R128: the DACs take a threshold at the next ACLK edge; the frames are those of a monitoring point, where no trip can follow. -/
def Obligations.Comparators : Prop :=
  (∀ (c n i : Nat) (upper : Bool) (s : State), (Instr.comparatorCrossing c n upper).wf = true → s.awake = true → i = (if upper then n else 5 + n) →
    s.cmpRuns c n = true → s.b (Reg.CMP.STATUS c) (16 + n) = false → s.b (Reg.CMP.RAW c) i = false →
    Completes (.comparatorCrossing c n upper) s (fun t =>
      t.reg (Reg.CMP.RAW c) = s.reg (Reg.CMP.RAW c) ||| BitVec.ofNat 32 (2 ^ i) ∧ t.b (Reg.CMP.page c + 0xC) i = true ∧
      t.f (Reg.CMP.CROSS c n) 15 0 = (if upper then min 65535 (s.f (Reg.CMP.CROSS c n) 15 0 + 1) else s.f (Reg.CMP.CROSS c n) 15 0) ∧
      t.f (Reg.CMP.CROSS c n) 31 16 = (if upper then s.f (Reg.CMP.CROSS c n) 31 16 else min 65535 (s.f (Reg.CMP.CROSS c n) 31 16 + 1)) ∧
      (s.mode c = 0 → SameRegs s t [Reg.CMP.RAW c, Reg.CMP.page c + 0xC, Reg.CMP.CROSS c n]) ∧ SameMem s t)) ∧
  (∀ (c n i : Nat) (upper : Bool) (s : State), (Instr.syncOutputFall c n upper).wf = true → s.awake = true → i = (if upper then n else 5 + n) →
    s.b (Reg.CMP.RAW c) i = true →
    Completes (.syncOutputFall c n upper) s (fun t =>
      t.b (Reg.CMP.RAW c) i = false ∧ (∀ j < 32, j ≠ i → t.b (Reg.CMP.RAW c) j = s.b (Reg.CMP.RAW c) j) ∧
      (s.mode c = 0 → SameRegs s t [Reg.CMP.RAW c]) ∧ SameMem s t)) ∧
  (∀ (rq : Rq) (c n value : Nat) (s : State), (Instr.cmpCfgWrite rq c n value).wf = true → s.writable rq (Reg.CMP.CFG c n) = true →
    n < (s.cmp c).settle.length → n < 4 → s.b (Reg.CMP.CFG c n) 0 = false → bitOf value 0 = true → s.outCond c = false →
    Completes (.cmpCfgWrite rq c n value) s (fun t =>
      t.reg (Reg.CMP.CFG c n) = BitVec.ofNat 32 (Nat.land value (if n = 3 then 0x0F8331 else 0x0F8F31)) ∧
      t.b (Reg.CMP.STATUS c) (16 + n) = true ∧ t.b (Reg.CMP.RAW c) n = false ∧ t.b (Reg.CMP.RAW c) (5 + n) = false ∧
      lget none (t.cmp c).settle n = some (s.now + lget 0 [80, 320, 6400, 128000] (bitsOf value 5 4)) ∧
      (s.mode c = 0 → SameRegs s t [Reg.CMP.CFG c n, Reg.CMP.STATUS c, Reg.CMP.RAW c]) ∧ SameMem s t)) ∧
  (∀ (rq : Rq) (c n value : Nat) (s : State), (Instr.cmpCfgWrite rq c n value).wf = true → s.writable rq (Reg.CMP.CFG c n) = true →
    s.outCond c = true → s.f (Reg.CMP.CFG c n) 9 8 ≠ 0 → s.b (Reg.CMP.CFG c n) 0 = true → bitOf value 0 = false → s.b (Reg.CMP.page c + 0x18) 31 = false →
    Completes (.cmpCfgWrite rq c n value) s (fun t =>
      t.f (Reg.CMP.page c + 0x18) 30 24 = 0x1A ∧ SameRegs s t [Reg.CMP.page c + 0xC, Reg.CMP.page c + 0x18] ∧ SameBlocks s t)) ∧
  (∀ (c n w : Nat) (s : State), c < 48 → n < 5 → s.awake = true → lget none (s.cmp c).settle n = some w →
    Completes (.settleEnd c n) s (fun t =>
      t.b (Reg.CMP.STATUS c) (16 + n) = false ∧ lget none (t.cmp c).settle n = none ∧ t.now = max s.now w ∧ SameRegs s t [Reg.CMP.STATUS c] ∧ SameMem s t)) ∧
  (∀ (rq : Rq) (c n value : Nat) (s : State), (Instr.thresholdWrite rq c n value).wf = true → s.writable rq (Reg.CMP.THR c n) = true →
    n < (s.cmp c).dac.length →
    Completes (.thresholdWrite rq c n value) s (fun t =>
      t.reg (Reg.CMP.THR c n) = BitVec.ofNat 32 (Nat.land value 0x03FF03FF) ∧
      lget (0, 0, 0) (t.cmp c).dac n = (bitsOf value 9 0, bitsOf value 25 16, (s.now / 8 + 1) * 8) ∧ SameRegs s t [Reg.CMP.THR c n] ∧ SameMem s t)) ∧
  (∀ (ok : Bool) (s : State), s.dozing = true →
    Completes (.watchokChange ok) s (fun t =>
      t.plat.watchOk = ok ∧ (∀ c < 48, t.b (Reg.CMP.STATUS c) 31 = ok) ∧ SameRegs s t ((List.range 48).map Reg.CMP.STATUS) ∧ SameMem s t))

/-- R138, R139, R143, R146: the hold latches the codes and Q; 240 CCLK after it POSITION moves by the change of the count modulo WRAP; R143: a step of the quadrant moves Q by one, a jump of two sets QERR; R151, R152: the zero mark latches POSITION. -/
def Sys2Proof.Claims.PositionUnit : Prop :=
  (∀ (c h : Nat) (sin cos : Int) (s : State), (Instr.positionHold c sin cos).wf = true → s.awake = true → s.runs (Reg.POS.page c) = true →
    s.f (Reg.POS.CFG c) 1 0 ≠ 1 → (s.pos c).lastHold = some h →
    Completes (.positionHold c sin cos) s (fun t =>
      t.now = max s.now (h + 400) ∧ (t.pos c).held = some ⟨h + 400, sin, cos, (s.pos c).q⟩ ∧ (t.pos c).lastHold = some (h + 400) ∧
      SameRegs s t [] ∧ SameMem s t)) ∧
  (∀ (c : Nat) (h : PosHold) (a : Int) (old : List Int) (s : State), c < 48 → s.awake = true → s.runs (Reg.POS.page c) = true →
    (s.pos c).held = some h → (s.pos c).hist = a :: old → (s.pos c).load = none → (s.pos c).mload = none → (s.pos c).homing = none →
    (s.pos c).absWord = none → s.posDir c = false →
    Completes (.positionUpdate c) s (fun t =>
      t.now = max s.now (h.hold + 240) ∧ (t.pos c).held = none ∧ t.reg (Reg.POS.SAMPLE c) = BitVec.ofNat 32 (ux 12 h.sin * 65536 + ux 12 h.cos) ∧
      (∃ i, (t.pos c).hist.head? = some i ∧ (t.position c : Int) = ((s.position c : Int) + (i - a)) % (s.wrap c : Int) ∧
        t.f (Reg.POS.REV c) 15 0 = ux 16 ((s.f (Reg.POS.REV c) 15 0 : Int) +
          (if (s.wrap c : Int) ≤ (s.position c : Int) + (i - a) then 1 else if (s.position c : Int) + (i - a) < 0 then -1 else 0))) ∧
      t.reg (Reg.POS.WRAP c) = s.reg (Reg.POS.WRAP c) ∧ SameMem s t)) ∧
  (∀ (c w : Nat) (h : PosHold) (s : State), c < 48 → s.awake = true → s.runs (Reg.POS.page c) = true → (s.pos c).held = some h →
    (s.pos c).load = some w → w < max s.now (h.hold + 240) → (s.pos c).absWord = none →
    Completes (.positionUpdate c) s (fun t =>
      t.position c = (s.reg (Reg.POS.POSSET c)).toNat % s.wrap c ∧ t.f (Reg.POS.REV c) 15 0 = s.f (Reg.POS.LOADCTL c) 31 16 ∧ (t.pos c).load = none ∧ SameMem s t)) ∧
  (∀ (c k : Nat) (s : State), (Instr.quadrantStep c k).wf = true → s.awake = true → s.runs (Reg.POS.page c) = true → s.f (Reg.POS.CFG c) 1 0 ≠ 1 →
    (s.pos c).quad < 4 →
    Completes (.quadrantStep c k) s (fun t =>
      (t.pos c).quad = k ∧ t.reg (Reg.POS.QCOUNT c) = BitVec.ofNat 32 (ux 32 (t.pos c).q) ∧
      (k = (s.pos c).quad → (t.pos c).q = (s.pos c).q) ∧ (k = ((s.pos c).quad + 1) % 4 → (t.pos c).q = (s.pos c).q + 1) ∧
      (k = ((s.pos c).quad + 3) % 4 → (t.pos c).q = (s.pos c).q - 1) ∧
      (k = ((s.pos c).quad + 2) % 4 → (t.pos c).q = (s.pos c).q ∧ t.b (Reg.POS.page c + 0xC) 2 = true) ∧
      (k ≠ ((s.pos c).quad + 2) % 4 → SameRegs s t [Reg.POS.QCOUNT c]) ∧ SameRegs s t [Reg.POS.QCOUNT c, Reg.POS.page c + 0xC] ∧ SameMem s t)) ∧
  (∀ (rq : Rq) (c rev : Nat) (s : State), (Instr.posLoad rq c rev).wf = true → s.writable rq (Reg.POS.LOADCTL c) = true →
    Completes (.posLoad rq c rev) s (fun t =>
      (t.pos c).load = some s.now ∧ (t.pos c).mload = (s.pos c).mload ∧ t.f (Reg.POS.LOADCTL c) 31 16 = rev ∧ SameRegs s t [Reg.POS.LOADCTL c] ∧ SameMem s t)) ∧
  (∀ (rq : Rq) (c : Nat) (s : State), (Instr.posMload rq c).wf = true → s.writable rq (Reg.POS.LOADCTL c) = true →
    Completes (.posMload rq c) s (fun t =>
      (t.pos c).mload = some s.now ∧ (t.pos c).load = (s.pos c).load ∧ t.f (Reg.POS.LOADCTL c) 31 16 = s.f (Reg.POS.LOADCTL c) 31 16 ∧
      SameRegs s t [Reg.POS.LOADCTL c] ∧ SameMem s t)) ∧
  (∀ (rq : Rq) (c : Nat) (s : State), (Instr.posEnable rq c).wf = true → s.writable rq (Reg.POS.page c + 8) = true → s.en (Reg.POS.page c) = false →
    s.f (Reg.POS.CFG c) 1 0 = 0 →
    Completes (.posEnable rq c) s (fun t =>
      t.en (Reg.POS.page c) = true ∧ (t.pos c).enAt = some s.now ∧ (t.pos c).hist = [] ∧ (t.pos c).q = ((s.pos c).quad : Int) ∧
      t.reg (Reg.POS.QCOUNT c) = BitVec.ofNat 32 (s.pos c).quad ∧ t.reg (Reg.POS.SPEED c) = 0#32 ∧
      SameRegs s t [Reg.POS.page c + 8, Reg.POS.QCOUNT c, Reg.POS.SPEED c] ∧ SameMem s t)) ∧
  (∀ (c : Nat) (rising : Bool) (s : State), c < 48 → s.awake = true → s.runs (Reg.POS.page c) = true → s.b (Reg.POS.ZCTL c) 1 = !rising →
    Completes (.posZmk c rising) s (fun t =>
      t.reg (Reg.POS.ZLATCH c) = s.reg (Reg.POS.POSITION c) ∧ t.b (Reg.POS.page c + 0xC) 0 = true ∧ bitOf (t.ch c).pins 3 = rising ∧
      (s.b (Reg.POS.ZCTL c) 0 = true → (s.pos c).homing = none →
        (t.pos c).homing = some ((s.reg (Reg.POS.POSITION c)).toNat, (s.reg (Reg.POS.MOTANG c)).toNat)) ∧
      SameRegs s t [Reg.POS.ZLATCH c, Reg.POS.page c + 0xC] ∧ SameMem s t))

/-- R159-R165: a trigger starts an idle serial interface, pends on a busy one and is counted when one pends; a completed word without CRC and error bit gives its fields; a time-out and the end of the recovery. -/
def Sys2Proof.Claims.SerialPosition : Prop :=
  (∀ (rq : Rq) (c : Nat) (s : State), (Instr.ssiSwtrig rq c).wf = true → s.writable rq (Reg.SSI.TRIG c) = true → s.runs (Reg.SSI.page c) = true →
    (s.ssi c).trigAt ≠ some s.now →
    Completes (.ssiSwtrig rq c) s (fun t =>
      (s.b (Reg.SSI.RESULT c) 31 = false →
        (t.ssi c).latch = some (s.now + s.f (Reg.SSI.FRAME c) 3 0 * 2 * s.f (Reg.SSI.CLK c) 11 0) ∧ t.b (Reg.SSI.RESULT c) 31 = true ∧
        t.b (Reg.SSI.RESULT c) 30 = false ∧ SameRegs s t [Reg.SSI.TRIG c, Reg.SSI.RESULT c]) ∧
      (s.b (Reg.SSI.RESULT c) 31 = true → (s.ssi c).pend = false →
        (t.ssi c).pend = true ∧ (t.ssi c).latch = (s.ssi c).latch ∧ t.b (Reg.SSI.RESULT c) 30 = true ∧ SameRegs s t [Reg.SSI.TRIG c, Reg.SSI.RESULT c]) ∧
      (s.b (Reg.SSI.RESULT c) 31 = true → (s.ssi c).pend = true →
        t.reg (Reg.SSI.DROP c) = s.reg (Reg.SSI.DROP c) + 1#32 ∧ t.b (Reg.SSI.page c + 0xC) 3 = true ∧ (t.ssi c).latch = (s.ssi c).latch ∧
        SameRegs s t [Reg.SSI.TRIG c, Reg.SSI.DROP c, Reg.SSI.page c + 0xC]) ∧ SameMem s t)) ∧
  (∀ (c k l len lsb pl mt d w0 : Nat) (w : DWord) (s : State), c < 48 → s.awake = true → (s.ssi c).latch = some l → 0 < k →
    len = s.f (Reg.SSI.FRAME c) 14 8 → lsb = s.f (Reg.SSI.FIELD c) 5 0 → pl = s.f (Reg.SSI.FIELD c) 13 8 → mt = s.f (Reg.SSI.FIELD c) 20 16 →
    d = s.f (Reg.SSI.CLK c) 11 0 → w0 = w.toNat % 2 ^ len → len ≤ 64 → pl ≤ 32 → mt ≤ 16 →
    k * (2 * d) + s.f (Reg.SSI.CLK c) 25 16 ≤ (s.f (Reg.SSI.FRAME c) 31 24 + 1) * 800 → s.f (Reg.SSI.CRC c) 4 0 = 0 → s.b (Reg.SSI.CRC c) 15 = false →
    s.runs (Reg.POS.page c) = false →
    Completes (.ssiWord c w k) s (fun t =>
      t.now = max s.now (l + (k + len) * (2 * d) + s.f (Reg.SSI.CLK c) 25 16 + 4) ∧ (t.ssi c).latch = none ∧ t.f (Reg.SSI.RESULT c) 2 0 = 1 ∧
      (t.reg (Reg.SSI.WORD_LO c)).toNat = w0 % 2 ^ 32 ∧ (t.reg (Reg.SSI.WORD_HI c)).toNat = w0 / 2 ^ 32 ∧
      (t.reg (Reg.SSI.ABS c)).toNat = w0 / 2 ^ lsb % 2 ^ pl ∧ (t.reg (Reg.SSI.MT c)).toNat = w0 / 2 ^ (lsb + pl) % 2 ^ mt ∧
      SameRegs s t [Reg.SSI.WORD_LO c, Reg.SSI.WORD_HI c, Reg.SSI.RESULT c, Reg.SSI.ABS c, Reg.SSI.MT c] ∧ SameMem s t)) ∧
  (∀ (c l : Nat) (s : State), c < 48 → s.awake = true → (s.ssi c).latch = some l →
    Completes (.ssiTimeout c) s (fun t =>
      t.now = max s.now (l + (s.f (Reg.SSI.FRAME c) 31 24 + 1) * 800) ∧ t.f (Reg.SSI.RESULT c) 2 0 = 4 ∧ (t.ssi c).latch = none ∧
      t.reg (Reg.SSI.TOUTCNT c) = s.reg (Reg.SSI.TOUTCNT c) + 1#32 ∧ t.b (Reg.SSI.page c + 0xC) 2 = true ∧
      SameRegs s t [Reg.SSI.RESULT c, Reg.SSI.TOUTCNT c, Reg.SSI.page c + 0xC] ∧ SameMem s t)) ∧
  (∀ (c w : Nat) (s : State), c < 48 → s.awake = true → (s.ssi c).recovUntil = some w →
    Completes (.ssiRecoveryEnd c) s (fun t =>
      t.now = max s.now w ∧ (t.ssi c).recovUntil = none ∧ t.b (Reg.SSI.RESULT c) 31 = (s.ssi c).pend ∧ (t.ssi c).pend = false ∧
      ((s.ssi c).pend = true → (t.ssi c).latch = some (t.now + s.f (Reg.SSI.FRAME c) 3 0 * 2 * s.f (Reg.SSI.CLK c) 11 0)) ∧
      SameRegs s t [Reg.SSI.RESULT c] ∧ SameMem s t)) ∧
  (∀ (rq : Rq) (c : Nat) (s : State), (Instr.ssiEnable rq c).wf = true → s.writable rq (Reg.SSI.page c + 8) = true → s.en (Reg.SSI.page c) = false →
    Completes (.ssiEnable rq c) s (fun t =>
      (s.ssiInvalid c = none → t.en (Reg.SSI.page c) = true ∧ SameRegs s t [Reg.SSI.page c + 8]) ∧
      (∀ o, s.ssiInvalid c = some o → s.b (Reg.SSI.page c + 0x18) 31 = false →
        t.en (Reg.SSI.page c) = false ∧ t.f (Reg.SSI.page c + 0x18) 30 24 = 0x28 ∧ t.f (Reg.SSI.page c + 0x18) 19 0 = o) ∧ SameMem s t)) ∧
  (∀ (rq : Rq) (c : Nat) (s : State), (Instr.ssiDisable rq c).wf = true → s.writable rq (Reg.SSI.page c + 8) = true → s.en (Reg.SSI.page c) = true →
    Completes (.ssiDisable rq c) s (fun t =>
      t.en (Reg.SSI.page c) = false ∧ (t.ssi c).latch = none ∧ (t.ssi c).pend = false ∧ t.f (Reg.SSI.RESULT c) 31 30 = 0 ∧
      SameRegs s t [Reg.SSI.page c + 8, Reg.SSI.RESULT c] ∧ SameMem s t))

/-- The position unit and the serial interface (R139-R165). -/
def Obligations.PositionFeedback : Prop := Claims.PositionUnit ∧ Claims.SerialPosition

/-! ## PWM, trips and the Chisel (chapters 06 and 07) -/

/-- R171, R173, R175, R186: EN arms the counter, which starts at the next ACLK edge or at the sync event; valleys and peaks follow the period, show the live values and under AUTO transfer the shadows; a trigger point raises its event; R53: no PWM at a monitoring point. -/
def Sys2Proof.Claims.PwmCounter : Prop :=
  (∀ (rq : Rq) (c : Nat) (s : State), (Instr.pwmEnable rq c).wf = true → s.writable rq (Reg.PWM.page c + 8) = true → s.en (Reg.PWM.page c) = false →
    s.mode c = 1 ∨ s.mode c = 2 →
    Completes (.pwmEnable rq c) s (fun t =>
      t.en (Reg.PWM.page c) = true ∧ (t.pwm c).run = false ∧
      (s.b (Reg.PWM.CFG c) 16 = false → (t.pwm c).startAt = some ((s.now / 8 + 1) * 8) ∧ (t.pwm c).wait = false) ∧
      (s.b (Reg.PWM.CFG c) 16 = true → (t.pwm c).startAt = none ∧ (t.pwm c).wait = true) ∧
      SameRegs s t [Reg.PWM.page c + 8, Reg.PWM.OUT c] ∧ SameMem s t)) ∧
  (∀ (rq : Rq) (c : Nat) (s : State), (Instr.pwmEnable rq c).wf = true → s.writable rq (Reg.PWM.page c + 8) = true → s.en (Reg.PWM.page c) = false →
    s.mode c = 0 → s.b (Reg.PWM.page c + 0x18) 31 = false →
    Completes (.pwmEnable rq c) s (fun t =>
      t.f (Reg.PWM.page c + 0x18) 30 24 = 0x10 ∧ SameRegs s t [Reg.PWM.page c + 0xC, Reg.PWM.page c + 0x18] ∧ SameBlocks s t)) ∧
  (∀ (c e : Nat) (s : State), c < 48 → s.awake = true → (s.pwm c).startAt = some e → s.log.sw = [] →
    Completes (.counterStart c) s (fun t =>
      t.now = max s.now e ∧ (t.pwm c).run = true ∧ (t.pwm c).valley = t.now ∧ (t.pwm c).falling = false ∧ (t.pwm c).startAt = none ∧
      (s.b (Reg.PWM.page c + 0x1C) 4 = true → t.reg (Reg.PWM.PERLIVE c) = s.reg (Reg.PWM.PERIOD c) &&& 0xFFFFF#32 ∧
        ∀ n < 3, t.reg (Reg.PWM.CMPLIVE c n) = s.reg (Reg.PWM.CMP c n) &&& 0x7FFFFF#32) ∧ SameMem s t)) ∧
  (∀ (rq : Rq) (c : Nat) (s : State), (Instr.pwmDisable rq c).wf = true → s.writable rq (Reg.PWM.page c + 8) = true → s.en (Reg.PWM.page c) = true →
    Completes (.pwmDisable rq c) s (fun t =>
      t.en (Reg.PWM.page c) = false ∧ (t.pwm c).run = false ∧ (t.pwm c).startAt = none ∧ (t.pwm c).wait = false ∧
      ((s.pwm c).cond = true → (t.pwm c).driving = false ∧ t.reg (Reg.PWM.OUT c) = 0#32) ∧
      SameRegs s t [Reg.PWM.page c + 8, Reg.PWM.OUT c] ∧ SameMem s t)) ∧
  (∀ (c : Nat) (s : State), c < 48 → s.awake = true → (s.pwm c).run = true →
    Completes (.pwmValley c) s (fun t =>
      t.now = max s.now ((s.pwm c).valley + (if s.b (Reg.PWM.CFG c) 12 then s.f (Reg.PWM.PERLIVE c) 19 0 else s.f (Reg.PWM.PERLIVE c) 19 0 / 2 * 2)) ∧
      (t.pwm c).valley = t.now ∧ (t.pwm c).falling = false ∧ (t.pwm c).run = true ∧
      ((s.trip c).waitValley = true → (t.trip c).tripped = false ∧ t.b (Reg.CHAN.STATUS c) 30 = false ∧ t.b (Reg.TRIP.page c + 0xC) 1 = true) ∧ SameMem s t)) ∧
  (∀ (c : Nat) (s : State), c < 48 → s.awake = true → (s.pwm c).run = true → s.b (Reg.PWM.CFG c) 12 = false → (s.pwm c).falling = false →
    Completes (.pwmPeak c) s (fun t =>
      t.now = max s.now ((s.pwm c).valley + s.f (Reg.PWM.PERLIVE c) 19 0 / 2) ∧ (t.pwm c).falling = true ∧ (t.pwm c).valley = (s.pwm c).valley ∧
      (∀ n < 3, t.reg (Reg.PWM.CMPLIVE c n) = t.lreg (Reg.PWM.CMP c n)) ∧ SameMem s t)) ∧
  (∀ (c k : Nat) (s : State), (Instr.triggerPointReached c k).wf = true → s.awake = true → (s.pwm c).run = true → s.b (Reg.PWM.CFG c) 12 = true →
    s.lf (Reg.PWM.TRGPT c k) 31 30 ≠ 0 → s.lf (Reg.PWM.TRGPT c k) 19 0 < s.f (Reg.PWM.PERLIVE c) 19 0 →
    lget 0 (s.pwm c).trgFrom k ≤ (s.pwm c).valley + s.lf (Reg.PWM.TRGPT c k) 19 0 → s.b (Reg.CHAN.EVTEN c) (20 + k) = true →
    Completes (.triggerPointReached c k) s (fun t =>
      t.now = max s.now ((s.pwm c).valley + s.lf (Reg.PWM.TRGPT c k) 19 0) ∧
      (∃ f ∈ t.flight, f.id = c * 32 + 20 + k ∧ f.due = t.now ∧ f.scope = .slice c) ∧
      (∃ f ∈ t.flight, f.id = c * 32 + 20 + k ∧ f.due = t.now + 1 ∧ f.scope = .home (c / 4)) ∧
      (∃ f ∈ t.flight, f.id = c * 32 + 20 + k ∧ f.due = t.now + 5 ∧ f.scope = .rest c) ∧ SameRegs s t [] ∧ SameMem s t))

/-- R177-R189: a leg's targets, its dead time and blanking, its own period in the VON and VOFF modes; R59, R179: a compare written goes to the shadow, and ends a latency measurement. -/
def Sys2Proof.Claims.PwmLegs : Prop :=
  (∀ (c n : Nat) (s : State), (Instr.compareMatch c n).wf = true → s.awake = true → (s.pwm c).run = true → s.legMode c n = 0 → (s.pwm c).legs.length = 3 →
    s.b (Reg.PWM.CFG c) 12 = true → (s.leg c n).changed = false → s.lf (Reg.PWM.CMP c n) 22 3 < s.f (Reg.PWM.PERLIVE c) 19 0 → (s.pwm c).xferAt = 0 →
    (s.leg c n).target = false →
    Completes (.compareMatch c n) s (fun t =>
      t.now = max s.now ((s.pwm c).valley + s.lf (Reg.PWM.CMP c n) 22 3) ∧ (t.leg c n).target = true ∧ (t.leg c n).onL = false ∧
      (t.leg c n).changed = true ∧
      ((s.pwm c).driving = true → s.legOn c n = true →
        (t.leg c n).dt = some ⟨true, (s.pwm c).valley + s.lf (Reg.PWM.CMP c n) 22 3 + s.f (Reg.PWM.DT c n) 11 0, s.lf (Reg.PWM.CMP c n) 2 0⟩) ∧
      SameRegs s t [Reg.PWM.OUT c, Reg.PWM.page c + 0xC] ∧ SameMem s t)) ∧
  (∀ (c n : Nat) (d : DeadTime) (s : State), (Instr.deadTimeEnd c n).wf = true → s.awake = true → (s.leg c n).dt = some d →
    Completes (.deadTimeEnd c n) s (fun t =>
      t.now = max s.now d.due ∧ (t.leg c n).dt = none ∧ (t.leg c n).blankUntil = d.due + s.f (Reg.PWM.LEGCFG c n) 26 16 ∧
      t.b (Reg.PWM.OUT c) (if d.high then 2 * n else 2 * n + 1) = true ∧ SameRegs s t [Reg.PWM.OUT c] ∧ SameMem s t)) ∧
  (∀ (c n : Nat) (s : State), (Instr.blankEnd c n).wf = true → s.awake = true → (s.leg c n).blankUntil ≠ 0 →
    Completes (.blankEnd c n) s (fun t =>
      t.now = max s.now (s.leg c n).blankUntil ∧ (s.mode c = 0 → SameRegs s t []) ∧
      (∀ i < 12, s.mode c = 1 → s.off (Reg.TRIP.page c) = false → s.tripLevel c i = true → s.f (Reg.TRIP.LATCH c) 12 0 = 0 →
        (∀ k < 3, (s.leg c k).blankUntil ≤ max s.now (s.leg c n).blankUntil) → t.b (Reg.TRIP.LATCH c) i = true ∧ (t.trip c).tripped = true) ∧ SameMem s t)) ∧
  (∀ (c n e : Nat) (s : State), (Instr.legPeriodStart c n).wf = true → s.awake = true → (s.pwm c).legs.length = 3 → (s.leg c n).nextStart = some e →
    s.legMode c n = 1 →
    Completes (.legPeriodStart c n) s (fun t =>
      t.now = max s.now e ∧ (t.leg c n).target = decide (s.f (Reg.PWM.VA c n) 19 0 ≠ 0) ∧
      (t.leg c n).nextStart = some (e + s.f (Reg.PWM.VB c n) 19 0) ∧
      (t.leg c n).offAt = (if s.f (Reg.PWM.VA c n) 19 0 ≠ 0 ∧ s.f (Reg.PWM.VA c n) 19 0 < s.f (Reg.PWM.VB c n) 19 0
        then some (e + s.f (Reg.PWM.VA c n) 19 0) else none) ∧ SameRegs s t [Reg.PWM.OUT c, Reg.PWM.page c + 0xC] ∧ SameMem s t)) ∧
  (∀ (c n e : Nat) (s : State), (Instr.onTimeEnd c n).wf = true → s.awake = true → (s.pwm c).legs.length = 3 → (s.leg c n).offAt = some e →
    Completes (.onTimeEnd c n) s (fun t =>
      t.now = max s.now e ∧ (t.leg c n).target = false ∧ (t.leg c n).offAt = none ∧
      (s.legMode c n = 2 → (t.leg c n).nextStart = some (e + (s.leg c n).vb) ∧ t.b (Reg.PWM.page c + 0xC) 1 = true) ∧
      SameRegs s t [Reg.PWM.OUT c, Reg.PWM.page c + 0xC] ∧ SameMem s t)) ∧
  (∀ (rq : Rq) (c n value : Nat) (s : State), (Instr.cmpShadowWrite rq c n value).wf = true → s.writable rq (Reg.PWM.CMP c n) = true → s.log.inc = [] →
    Completes (.cmpShadowWrite rq c n value) s (fun t =>
      t.reg (Reg.PWM.CMP c n) = BitVec.ofNat 32 value &&& 0x7FFFFF#32 ||| s.reg (Reg.PWM.CMP c n) &&& 0xFF800000#32 ∧
      t.live = s.live ∧
      (∀ w, (s.ch c).latAt = some w → t.f (Reg.CHAN.LAT c) 15 0 = min 65535 (s.now - w) ∧ (t.ch c).latAt = none) ∧
      ((s.ch c).latAt = none → SameRegs s t [Reg.PWM.CMP c n]) ∧
      SameRegs s t [Reg.PWM.CMP c n, Reg.CHAN.LAT c, Reg.CHAN.LATOVER c, Reg.CHAN.page c + 0xC] ∧ SameMem s t))

/-- R190-R196: pin levels qualify, sources latch and trip, a trip stands until its latch is clear, a configuration write starts qualification afresh. -/
def Obligations.Trips : Prop :=
  (∀ (c : Nat) (lvl : Bool) (s : State), c < 48 → s.awake = true → s.off (Reg.TRIP.page c) = false → s.pinActive c 0 = false → lvl ≠ s.b (Reg.TRIP.CFG c) 2 →
    Completes (.tripPinChange c 0 lvl) s (fun t =>
      (t.trip c).firstA = some s.now ∧ (t.trip c).firstB = (s.trip c).firstB ∧ bitOf (t.ch c).pins 0 = lvl ∧ SameRegs s t [] ∧ SameMem s t)) ∧
  (∀ (c : Nat) (lvl : Bool) (s : State), c < 48 → s.awake = true → s.off (Reg.TRIP.page c) = false → s.pinActive c 1 = true → lvl = s.b (Reg.TRIP.CFG c) 3 →
    Completes (.tripPinChange c 1 lvl) s (fun t =>
      (t.trip c).firstB = none ∧ (t.trip c).qualB = false ∧ bitOf (t.ch c).pins 1 = lvl ∧ (s.mode c = 0 → SameRegs s t []) ∧ SameMem s t)) ∧
  (∀ (c k w : Nat) (s : State), (Instr.tripQualify c k).wf = true → s.awake = true → (if k = 0 then (s.trip c).firstA else (s.trip c).firstB) = some w →
    Completes (.tripQualify c k) s (fun t =>
      t.now = max s.now (w + s.f (Reg.TRIP.CFG c) (15 + 8 * k) (8 + 8 * k)) ∧ (if k = 0 then (t.trip c).qualA else (t.trip c).qualB) = true ∧
      (if k = 0 then (t.trip c).firstA else (t.trip c).firstB) = none ∧
      (s.mode c = 0 → t.b (Reg.CHAN.page c + 0xC) 2 = true ∧ SameRegs s t [Reg.CHAN.page c + 0xC]) ∧
      (s.mode c = 1 → s.b (Reg.TRIP.CFG c) k = true → s.off (Reg.TRIP.page c) = false → s.f (Reg.TRIP.LATCH c) 12 0 = 0 → s.blankOpen c = false →
        t.b (Reg.TRIP.LATCH c) k = true ∧ (t.trip c).tripped = true ∧ t.b (Reg.CHAN.STATUS c) 30 = true) ∧ SameMem s t)) ∧
  (∀ (c n : Nat) (s : State), c < 48 → n < 5 → s.awake = true → s.cmpRuns c n = true → s.b (Reg.CMP.STATUS c) (16 + n) = false → s.b (Reg.CMP.RAW c) n = false →
    s.mode c = 1 → s.b (Reg.CMP.CFG c n) 8 = true → s.f (Reg.CMP.CFG c n) 19 15 = 0 → s.off (Reg.TRIP.page c) = false → s.f (Reg.TRIP.LATCH c) 12 0 = 0 →
    s.blankOpen c = false → (s.pwm c).cond = true →
    Completes (.comparatorCrossing c n true) s (fun t =>
      t.b (Reg.TRIP.LATCH c) (2 + n) = true ∧ (t.trip c).tripped = true ∧ (t.pwm c).driving = false ∧ t.reg (Reg.PWM.OUT c) = 0#32 ∧ SameMem s t)) ∧
  (∀ (rq : Rq) (c : Nat) (s : State), (Instr.softwareTrip rq c).wf = true → s.writable rq (Reg.TRIP.CTRL c) = true → s.mode c = 1 →
    s.f (Reg.TRIP.LATCH c) 12 0 = 0 → s.blankOpen c = false →
    Completes (.softwareTrip rq c) s (fun t =>
      t.b (Reg.TRIP.LATCH c) 12 = true ∧ (t.trip c).tripped = true ∧ (t.trip c).waitValley = false ∧ t.b (Reg.CHAN.STATUS c) 30 = true ∧
      t.b (Reg.TRIP.FIRST c) 31 = true ∧ t.b (Reg.TRIP.FIRST c) 12 = true ∧ t.b (Reg.TRIP.page c + 0xC) 0 = true ∧
      (t.reg (Reg.TRIP.TRIPCNT c)).toNat = min (2 ^ 32 - 1) ((s.reg (Reg.TRIP.TRIPCNT c)).toNat + 1) ∧
      ((s.pwm c).cond = true → (t.pwm c).driving = false ∧ t.reg (Reg.PWM.OUT c) = 0#32) ∧ SameMem s t)) ∧
  (∀ (rq : Rq) (c bits : Nat) (s : State), (Instr.latchClear rq c bits).wf = true → s.writable rq (Reg.TRIP.LATCH c) = true → s.untouched (Reg.TRIP.LATCH c) →
    (s.trip c).tripped = true → (s.trip c).waitValley = false →
    Completes (.latchClear rq c bits) s (fun t =>
      ((∀ i < 12, s.tripLevel c i = false) →
        t.reg (Reg.TRIP.LATCH c) = s.reg (Reg.TRIP.LATCH c) &&& ~~~(BitVec.ofNat 32 bits) ∧
        (t.trip c).waitValley = decide (s.reg (Reg.TRIP.LATCH c) &&& ~~~(BitVec.ofNat 32 bits) = 0#32)) ∧
      (∀ i < 12, s.tripLevel c i = true → t.b (Reg.TRIP.LATCH c) i = true ∧ (t.trip c).waitValley = false) ∧
      (t.trip c).tripped = true ∧ SameRegs s t [Reg.TRIP.LATCH c] ∧ SameMem s t)) ∧
  (∀ (rq : Rq) (c value : Nat) (s : State), (Instr.tripCfgWrite rq c value).wf = true → s.writable rq (Reg.TRIP.CFG c) = true →
    s.en (Reg.TRIP.page c) = false → s.log.inc = [] → s.mode c = 0 →
    Completes (.tripCfgWrite rq c value) s (fun t =>
      t.reg (Reg.TRIP.CFG c) = BitVec.ofNat 32 value &&& 0xFFFF0F#32 ||| s.reg (Reg.TRIP.CFG c) &&& 0xFF0000F0#32 ∧
      (t.trip c).qualA = false ∧ (t.trip c).qualB = false ∧
      (t.trip c).firstA = (if (s.trip c).lvlA ≠ bitOf value 2 then some (s.now + 1) else none) ∧
      (t.trip c).firstB = (if (s.trip c).lvlB ≠ bitOf value 3 then some (s.now + 1) else none) ∧ SameRegs s t [Reg.TRIP.CFG c] ∧ SameMem s t)) ∧
  (∀ (rq : Rq) (c value : Nat) (s : State), (Instr.tripCfgWrite rq c value).wf = true → s.writable rq (Reg.TRIP.CFG c) = true →
    s.en (Reg.TRIP.page c) = true → s.b (Reg.TRIP.page c + 0x18) 31 = false →
    Completes (.tripCfgWrite rq c value) s (fun t =>
      t.f (Reg.TRIP.page c + 0x18) 30 24 = 2 ∧ SameRegs s t [Reg.TRIP.page c + 0xC, Reg.TRIP.page c + 0x18] ∧ SameBlocks s t)) ∧
  (∀ (c i e : Nat) (s : State), c < 48 → i < 12 → s.awake = true → lget none (s.trip c).since i = some e →
    Completes (.tripBlankLimit c i) s (fun t =>
      t.now = max s.now (e + s.blankMax c) ∧ (s.mode c = 0 → SameRegs s t []) ∧
      (s.mode c = 1 → s.off (Reg.TRIP.page c) = false → s.tripLevel c i = true → s.f (Reg.TRIP.LATCH c) 12 0 = 0 →
        t.b (Reg.TRIP.LATCH c) i = true ∧ (t.trip c).tripped = true) ∧ SameMem s t))

/-- R205-R209, R213: the edges of a Chisel computation: its results at edge 39, its compare write 4 CCLK after the issue; R207: below the DC-link floor every duty is one half; R213: a disable ends it. -/
def Obligations.Chisel : Prop :=
  (∀ (c : Nat) (r : ChRun) (s : State), c < 48 → s.awake = true → (s.chs c).run = some r →
    Completes (.chiselResult c) s (fun t =>
      t.now = max s.now (r.t0 + 39) ∧ (t.chs c).run = none ∧ t.f (Reg.CHISEL.THETA c) 31 16 = r.thetaP ∧ t.f (Reg.CHISEL.THETA c) 15 0 = r.thetaI ∧
      t.f (Reg.CHISEL.IDQ c) 31 16 = toQ15 r.park.1 ∧ t.f (Reg.CHISEL.IDQ c) 15 0 = toQ15 r.park.2 ∧
      t.f (Reg.CHISEL.VDQ c) 31 16 = toQ15 r.limited.1 ∧ t.f (Reg.CHISEL.VDQ c) 15 0 = toQ15 r.limited.2 ∧
      (r.own = false → (t.chs c).write = none) ∧
      (r.own = true → r.udcLow = true → r.w 0x84 = 0x80000000 → r.perlive < 2 ^ 20 →
        (t.chs c).write = some (4 * (if r.edgeAligned then r.perlive else r.perlive / 2), 4 * (if r.edgeAligned then r.perlive else r.perlive / 2),
          4 * (if r.edgeAligned then r.perlive else r.perlive / 2), r.t0 + 40) ∧
        t.b (Reg.CHISEL.page c + 0xC) 4 = true ∧ t.reg (Reg.CHISEL.INTD c) = s.reg (Reg.CHISEL.INTD c) ∧ t.reg (Reg.CHISEL.INTQ c) = s.reg (Reg.CHISEL.INTQ c)) ∧
      SameRegs s t [Reg.CHISEL.INTD c, Reg.CHISEL.INTQ c, Reg.CHISEL.IDQ c, Reg.CHISEL.VDQ c, Reg.CHISEL.THETA c, Reg.CHISEL.LIMCNT c, Reg.CHISEL.page c + 0xC] ∧
      SameMem s t)) ∧
  (∀ (c late w0 w1 w2 issue : Nat) (s : State), (Instr.chiselDone c late).wf = true → s.awake = true → (s.chs c).write = some (w0, w1, w2, issue) →
    s.off (Reg.PWM.page c) = false →
    Completes (.chiselDone c late) s (fun t =>
      t.now = max s.now (issue + 4 + late) ∧ (t.chs c).write = none ∧ t.reg (Reg.PWM.CMP c 0) = BitVec.ofNat 32 w0 ∧
      t.reg (Reg.PWM.CMP c 1) = BitVec.ofNat 32 w1 ∧ t.reg (Reg.PWM.CMP c 2) = BitVec.ofNat 32 w2 ∧ t.live = s.live ∧
      SameRegs s t [Reg.PWM.CMP c 0, Reg.PWM.CMP c 1, Reg.PWM.CMP c 2, Reg.CHAN.LAT c, Reg.CHAN.LATOVER c, Reg.CHAN.page c + 0xC] ∧ SameMem s t)) ∧
  (∀ (rq : Rq) (c : Nat) (s : State), (Instr.chiselDisable rq c false).wf = true → s.writable rq (Reg.CHISEL.page c + 8) = true → s.en (Reg.CHISEL.page c) = true →
    Completes (.chiselDisable rq c false) s (fun t =>
      t.en (Reg.CHISEL.page c) = false ∧ (t.chs c).run = none ∧ (∀ u, (s.chs c).undo = some u → s.now ≤ u.1 → (t.chs c).write = none) ∧
      ((s.chs c).undo = none → (t.chs c).write = (s.chs c).write ∧ SameRegs s t [Reg.CHISEL.page c + 8]) ∧
      SameRegs s t [Reg.CHISEL.page c + 8, Reg.CHISEL.INTD c, Reg.CHISEL.INTQ c] ∧ SameMem s t)) ∧
  (∀ (rq : Rq) (c : Nat) (s : State), (Instr.chiselDisable rq c true).wf = true → s.writable rq (Reg.CHAN.page c + 8) = true → s.en (Reg.CHAN.page c) = true →
    Completes (.chiselDisable rq c true) s (fun t =>
      t.en (Reg.CHAN.page c) = false ∧ (t.chs c).run = none ∧ ((s.pwm c).cond = true → (t.pwm c).driving = false ∧ t.reg (Reg.PWM.OUT c) = 0#32) ∧
      SameRegs s t [Reg.CHAN.page c + 8, Reg.CHISEL.INTD c, Reg.CHISEL.INTQ c, Reg.PWM.OUT c] ∧ SameMem s t))

/-- The PWM counter and its legs (R171-R188). -/
def Obligations.PwmOutputs : Prop := Claims.PwmCounter ∧ Claims.PwmLegs

/-! ## The Caliper (chapter 08) -/

/-- R234-R241: an entry is seated at its source's value; a position update that passes its target is a hit: its event leaves at an ACLK edge, a one-shot entry is disabled, one with STEP gets its next target. -/
def Obligations.CaliperTable : Prop :=
  (∀ (rq : Rq) (n ctl : Nat) (s : State), (Instr.entrySeat rq n ctl).wf = true → s.writable rq (entCtl n) = true → s.entOk rq n = true →
    s.entRefused n (Nat.land ctl 0xE07F3FFF) (s.reg (entTarget n)).toNat (s.reg (entStep n)).toNat = false → s.entEn n = false → s.log.inc = [] →
    Completes (.entrySeat rq n ctl) s (fun t =>
      t.entEn n = true ∧ t.f (entCtl n) 30 29 = bitsOf ctl 30 29 ∧ t.f (entCtl n) 22 16 = bitsOf ctl 22 16 ∧ t.f (entCtl n) 13 0 = bitsOf ctl 13 0 ∧
      t.ent n = ⟨s.now, s.srcValue (bitsOf ctl 22 16) ==
        (if bitsOf ctl 22 16 = 64 then stampLinear (s.reg (entTarget n)).toNat else (s.reg (entTarget n)).toNat)⟩ ∧
      SameRegs s t [entCtl n] ∧ SameMem s t)) ∧
  (∀ (rq : Rq) (n ctl : Nat) (s : State), (Instr.entrySeat rq n ctl).wf = true → s.writable rq (entCtl n) = true → s.entOk rq n = true →
    64 < bitsOf ctl 22 16 → s.b (Reg.CALTAB.page (n / 256) + 0x18) 31 = false →
    Completes (.entrySeat rq n ctl) s (fun t =>
      t.f (Reg.CALTAB.page (n / 256) + 0x18) 30 24 = 0x41 ∧ SameRegs s t [Reg.CALTAB.page (n / 256) + 0xC, Reg.CALTAB.page (n / 256) + 0x18] ∧ SameBlocks s t)) ∧
  (∀ (n id st : Nat) (o : PosOut) (s : State), n < 4096 → s.dozing = true → s.entEn n = true → s.b (entCtl n) 30 = false → s.entBack n = false → s.entSrc n < 48 →
    id = s.f (entCtl n) 7 0 → st = (s.reg (entStep n)).toNat → (s.pos (s.entSrc n)).outs = [o] → o.reseat = false → (s.ent n).from_ < o.at_ + 5 →
    0 < ((s.reg (entTarget n)).toNat - (o.prev : Int)) % (s.wrap (s.entSrc n) : Int) →
    ((s.reg (entTarget n)).toNat - (o.prev : Int)) % (s.wrap (s.entSrc n) : Int) ≤ o.dp → s.log.sw = [] →
    Completes (.caliperHit n) s (fun t =>
      t.now = max s.now (o.at_ + 6) ∧
      (∃ f ∈ t.flight, f.id = 0x600 + id ∧ f.due = (o.at_ + 16) / 8 * 8 ∧ f.scope = .all ∧ f.tag = some (s.entOwner n)) ∧
      (st = 0 → t.entEn n = false ∧ t.reg (entTarget n) = s.reg (entTarget n)) ∧
      (0 < st → t.entEn n = true ∧ ∃ k : Nat, 0 < k ∧
        ((t.reg (entTarget n)).toNat : Int) = ((s.reg (entTarget n)).toNat + k * st) % s.wrap (s.entSrc n) ∧
        o.dp < (((s.reg (entTarget n)).toNat - (o.prev : Int)) % (s.wrap (s.entSrc n) : Int)) + k * st ∧
        (((s.reg (entTarget n)).toNat - (o.prev : Int)) % (s.wrap (s.entSrc n) : Int)) + (k - 1) * st ≤ o.dp ∧
        (1 < k → t.b (entCtl n) 28 = true)) ∧
      SameRegs s t [entCtl n, entTarget n] ∧ SameMem s t)) ∧
  (∀ (rq : Rq) (b value : Nat) (s : State), (Instr.tabownWrite rq b value).wf = true → rq.ring = 0 → s.writable rq (Reg.CALIPER2.TABOWN b) = true → s.log.inc = [] →
    Completes (.tabownWrite rq b value) s (fun t =>
      t.b (Reg.CALIPER2.TABOWN b) 31 = bitOf value 31 ∧ t.f (Reg.CALIPER2.TABOWN b) 8 0 = bitsOf value 8 0 ∧
      (t.reg (Reg.CALIPER2.TABOWN b) ≠ s.reg (Reg.CALIPER2.TABOWN b) → ∀ k < 32,
        t.reg (entCtl (32 * b + k)) = 0#32 ∧ t.reg (entTarget (32 * b + k)) = 0#32 ∧ t.reg (entStep (32 * b + k)) = 0#32) ∧
      (t.reg (Reg.CALIPER2.TABOWN b) = s.reg (Reg.CALIPER2.TABOWN b) → SameRegs s t []) ∧ SameMem s t)) ∧
  (∀ (rq : Rq) (b value : Nat) (s : State), (Instr.tabownWrite rq b value).wf = true → rq.ring ≠ 0 → s.writable rq (Reg.CALIPER2.TABOWN b) = true →
    Completes (.tabownWrite rq b value) s (fun t => t.answer = .buserr ∧ SameRegs s t [] ∧ SameBlocks s t))

/-- R231, R243-R248: the seconds that a read of TIME_NS latches, time applied at a second boundary, an offset taken by the servo, holdover, and the boundary of the line angles. -/
def Obligations.DeviceTime : Prop :=
  (∀ s : State, s.dozing = true → s.time.staged = none →
    Completes .secondBoundary s (fun t =>
      t.now = max s.now s.secondEdge ∧ t.time.nextSec = s.time.nextSec + 1 ∧ t.time.t = s.time.t ∧ t.time.at_ = s.time.at_ ∧
      t.b (Reg.CALIPER0.page + 0xC) 0 = true ∧ SameRegs s t [Reg.CALIPER0.page + 0xC] ∧ SameMem s t)) ∧
  (∀ (w : Nat) (s : State), s.dozing = true → s.time.staged = some ⟨none, w⟩ → w < max s.now s.secondEdge → s.log.sw = [] →
    (s.reg Reg.CALIPER0.SET_NS).toNat < 1000000000 →
    Completes .secondBoundary s (fun t =>
      t.now = max s.now s.secondEdge ∧ t.timeNs t.now = (s.reg Reg.CALIPER0.SET_NS).toNat ∧
      t.timeSec t.now = ((s.reg Reg.CALIPER0.SET_SEC_LO).toNat + (s.reg Reg.CALIPER0.SET_SEC_HI).toNat * 2 ^ 32) % 2 ^ 48 ∧ t.time.staged = none ∧
      t.b (Reg.CALIPER0.page + 0xC) 2 = true ∧ t.b Reg.CALIPER0.SETCTL 8 = false ∧ SameMem s t)) ∧
  (∀ (rq : Rq) (s : State), (Instr.timeRead rq).wf = true → s.readable rq Reg.CALIPER0.TIME_NS = true →
    Completes (.timeRead rq) s (fun t =>
      t.answer = .ok ∧ t.data = BitVec.ofNat 64 (s.timeNs s.now) ∧ t.secCopy rq.agent = s.timeSec s.now ∧
      (∀ g, g ≠ rq.agent → t.secCopy g = s.secCopy g) ∧ SameRegs s t [] ∧ SameMem s t)) ∧
  (∀ (rq : Rq) (s : State), (Instr.timeApply rq).wf = true → rq.ring = 0 → s.writable rq Reg.CALIPER0.SETCTL = true →
    Completes (.timeApply rq) s (fun t =>
      t.time.staged = some ⟨none, s.now⟩ ∧ t.b Reg.CALIPER0.SETCTL 8 = true ∧ SameRegs s t [Reg.CALIPER0.SETCTL] ∧ SameMem s t)) ∧
  (∀ (rq : Rq) (s : State), (Instr.timeCancel rq).wf = true → rq.ring = 0 → s.writable rq Reg.CALIPER0.SETCTL = true →
    Completes (.timeCancel rq) s (fun t =>
      t.time.staged = none ∧ t.b Reg.CALIPER0.SETCTL 8 = false ∧ SameRegs s t [Reg.CALIPER0.SETCTL] ∧ SameMem s t)) ∧
  (∀ (rq : Rq) (θ : Int) (s : State), (Instr.offsetSubmit rq).wf = true → rq.ring = 0 → s.writable rq Reg.CALIPER0.SETCTL = true →
    θ = sx 32 (s.reg Reg.CALIPER0.OFSIN).toNat → s.log.sw = [] →
    Completes (.offsetSubmit rq) s (fun t =>
      (s.f Reg.CALIPER0.DISC 1 0 ≠ 2 → SameRegs s t [] ∧ SameBlocks s t) ∧
      (s.f Reg.CALIPER0.DISC 1 0 = 2 → θ.natAbs ≤ (s.reg Reg.CALIPER0.STEPLIM).toNat →
        t.reg Reg.CALIPER0.OFFSET = BitVec.ofNat 32 (ux 32 θ) ∧ t.time.rem = θ * 2 ^ 42 ∧ t.time.at_ = s.now ∧ t.time.staged = s.time.staged ∧
        t.freq = satS 32 (s.freq - θ * ((s.reg Reg.CALIPER0.GI).toNat : Int) / 2 ^ 16)) ∧
      (s.f Reg.CALIPER0.DISC 1 0 = 2 → (s.reg Reg.CALIPER0.STEPLIM).toNat < θ.natAbs → s.time.staged = none →
        t.reg Reg.CALIPER0.OFFSET = BitVec.ofNat 32 (ux 32 θ) ∧ t.time.staged = some ⟨some θ, s.now⟩ ∧ t.freq = s.freq ∧ t.time.t = s.time.t) ∧ SameMem s t)) ∧
  (∀ s : State, s.dozing = true → s.f Reg.CALIPER0.DISC 1 0 = 1 ∨ s.f Reg.CALIPER0.DISC 1 0 = 2 → s.b Reg.CALIPER0.DSTAT 31 = false →
    Completes .holdover s (fun t =>
      t.now = max s.now (s.time.ofsAt + s.f Reg.CALIPER0.DISC 31 16 * 800) ∧ t.b Reg.CALIPER0.DSTAT 31 = true ∧ t.b (Reg.CALIPER0.page + 0xC) 3 = true ∧
      SameRegs s t [Reg.CALIPER0.DSTAT, Reg.CALIPER0.page + 0xC] ∧ SameMem s t)) ∧
  (∀ s : State, s.dozing = true → (∀ p < 4, s.lineFull p = false) → s.b (Reg.CALIPER1.page + 0x1C) 4 = true → s.log.sw = [] →
    Completes .caliperBoundary s (fun t =>
      t.now = max s.now s.quarterEdge ∧ t.time.slot = s.time.slot + 1 ∧
      (∀ om ∈ shOffsets 0x301, t.lreg (Reg.CALIPER1.page + om.1) = s.reg (Reg.CALIPER1.page + om.1) &&& om.2) ∧ SameMem s t))

/-! ## The Maquettes (chapter 09) -/

/-- R253, R254, R261-R263, R280-R284: a copy reaches the ring of the job that wants it, the first sample waits, a frame is counted, the reader's count is accepted only within the ring, a stop waits for the quantum. -/
def Sys2Proof.Claims.MaquetteFlow : Prop :=
  (∀ (p k : Nat) (w : MaqWord) (rest : List MaqWord) (s : State), p < 12 → k < 32 → s.awake = true → (s.maq p).inq = w :: rest → (s.maq p).slot = 0 →
    s.jobEn p k = true → jobMatches (s.job p k) w = true → (∀ q < 32, q ≠ k → (s.jobEn p q && jobMatches (s.job p q) w) = false) →
    bitOf w.word.toNat 5 = false → bitOf w.word.toNat 2 = false →
    Completes (.intakeDeliver p) s (fun t =>
      t.now = max s.now (max (w.at_ + 1) ((s.maq p).lastCopy + 1)) ∧ (t.maq p).inq = rest ∧
      ((s.job p k).ring.length < 2 ^ d8 (s.job p k).desc 0x17 → (t.job p k).ring = (s.job p k).ring ++ [w]) ∧
      (2 ^ d8 (s.job p k).desc 0x17 ≤ (s.job p k).ring.length → (t.job p k).ring = (s.job p k).ring ∧
        t.f (Reg.MAQ.JDROP p k) 31 16 = min 65535 (s.f (Reg.MAQ.JDROP p k) 31 16 + 1) ∧ SameRegs s t [Reg.MAQ.JDROP p k] ∧ SameMem s t))) ∧
  (∀ (p k : Nat) (w : MaqWord) (rest : List MaqWord) (l : List Nat) (s : State), p < 12 → k < 32 → s.awake = true → (s.job p k).ring = w :: rest →
    s.runs (Reg.MAQ.page p) = true → s.jobEn p k = true → (s.job p k).samps = [] →
    regionRead p (s.jbase p k + area (s.job p k).desc 4 + 8 * (((s.job p k).ringNo - (rest.length + 1)) % 2 ^ d8 (s.job p k).desc 0x17)) 8 s = (some l, s) →
    Completes (.streamProcess p k) s (fun t =>
      t.now = max s.now (max ((s.maq p).lastCopy + 1) (s.maq p).freeAt) ∧ (t.job p k).ring = rest ∧ (t.job p k).samps.length = 1 ∧
      (t.maq p).freeAt = t.now + 2 ∧ (t.maq p).busy = (s.maq p).busy + 2 ∧ SameRegs s t [] ∧ SameMem s t)) ∧
  (∀ (p : Nat) (dr : DoneRec) (rest : List DoneRec) (s : State), p < 12 → s.awake = true → (s.maq p).done = dr :: rest → (s.maq p).frames = [] →
    (s.job p dr.slot).limits = [] → d16 (s.job p dr.slot).desc 0x1C ≤ 1 → 2 ≤ s.frameRoom p dr.slot → s.log.sw = [] →
    Completes (.blockWork p) s (fun t =>
      t.now = max s.now (s.maq p).freeAt ∧ (t.maq p).done = rest ∧
      (∃ f, (t.maq p).frames = [f] ∧ f.slot = dr.slot ∧ f.exc = false ∧ f.bytes.length = 256 ∧ f.bytes.head? = some 1) ∧ SameRegs s t [] ∧ SameMem s t)) ∧
  (∀ (p : Nat) (f : FrameJob) (s : State), p < 12 → s.awake = true → (s.maq p).frames = [f] → f.slot < 32 →
    Completes (.frameComplete p) s (fun t =>
      t.now = max s.now (s.maq p).freeAt + 64 ∧ (t.maq p).frames = [] ∧ t.reg (Reg.MAQ.FRWR p f.slot) = s.reg (Reg.MAQ.FRWR p f.slot) + 1#32 ∧
      (f.exc = true → t.b (Reg.MAQ.page p + 0xC) 1 = true))) ∧
  (∀ (rq : Rq) (p k value : Nat) (s : State), (Instr.frrdWrite rq p k value).wf = true → s.writable rq (Reg.MAQ.FRRD p k) = true →
    Completes (.frrdWrite rq p k value) s (fun t =>
      ((s.reg (Reg.MAQ.FRWR p k) - BitVec.ofNat 32 value).toNat ≤ 2 ^ d8 (s.job p k).desc 0x1A →
        t.reg (Reg.MAQ.FRRD p k) = BitVec.ofNat 32 value ∧ SameRegs s t [Reg.MAQ.FRRD p k]) ∧
      (2 ^ d8 (s.job p k).desc 0x1A < (s.reg (Reg.MAQ.FRWR p k) - BitVec.ofNat 32 value).toNat → s.b (Reg.MAQ.page p + 0x18) 31 = false →
        t.reg (Reg.MAQ.FRRD p k) = s.reg (Reg.MAQ.FRRD p k) ∧ t.f (Reg.MAQ.page p + 0x18) 30 24 = 0x53) ∧ SameBlocks s t)) ∧
  (∀ (p : Nat) (s : State), p < 12 → s.awake = true →
    Completes (.loadUpdate p) s (fun t =>
      t.reg (Reg.MAQ.LOAD p) = BitVec.ofNat 32 (min (s.maq p).busy 800000) ∧ (t.maq p).busy = 0 ∧ SameRegs s t [Reg.MAQ.LOAD p] ∧ SameMem s t))

/-- R256-R259, R284: ring 0 enables a job whose descriptor is valid, one with a broken field is refused with code 0x51 and its place; stop, reseed and disable. -/
def Sys2Proof.Claims.MaquetteJobs : Prop :=
  (∀ (rq : Rq) (p k base : Nat) (d : List Nat) (s : State), (Instr.jobEnable rq p k).wf = true → rq.ring = 0 → s.writable rq (Reg.MAQ.JCTL p k) = true →
    s.jobEn p k = false → base = s.jbase p k → regionRead p base 64 s = (some d, s) → descBad p d = none → base + area d 8 ≤ 0x60000 →
    s.jobOverlap p k d = false → dTaps d = 0 → d8 d 0x18 = 0 → d8 d 0x19 = 0 →
    Completes (.jobEnable rq p k) s (fun t =>
      t.jobEn p k = true ∧ (t.job p k).desc = d ∧ (t.job p k).recNo = 0 ∧ t.reg (Reg.MAQ.FRWR p k) = 0#32 ∧ t.reg (Reg.MAQ.FRRD p k) = 0#32 ∧
      t.reg (Reg.MAQ.JREC p k) = 0#32 ∧ SameRegs s t [Reg.MAQ.JCTL p k, Reg.MAQ.FRWR p k, Reg.MAQ.FRRD p k, Reg.MAQ.JREC p k] ∧
      (∀ a, (a < maqBase p + base + area d 3 ∨ maqBase p + base + area d 4 ≤ a) → t.byte a = s.byte a))) ∧
  (∀ (rq : Rq) (p k o : Nat) (d : List Nat) (s : State), (Instr.jobEnable rq p k).wf = true → rq.ring = 0 → s.writable rq (Reg.MAQ.JCTL p k) = true →
    s.jobEn p k = false → regionRead p (s.jbase p k) 64 s = (some d, s) → descBad p d = some o → o < 4096 → s.b (Reg.MAQ.page p + 0x18) 31 = false →
    Completes (.jobEnable rq p k) s (fun t =>
      t.jobEn p k = false ∧ t.f (Reg.MAQ.page p + 0x18) 30 24 = 0x51 ∧ t.f (Reg.MAQ.page p + 0x18) 19 0 = k * 2 ^ 15 + o ∧
      SameRegs s t [Reg.MAQ.page p + 0xC, Reg.MAQ.page p + 0x18] ∧ SameBlocks s t)) ∧
  (∀ (rq : Rq) (p k : Nat) (s : State), (Instr.jobStop rq p k).wf = true → s.writable rq (Reg.MAQ.JCTL p k) = true → s.jobEn p k = true →
    Completes (.jobStop rq p k) s (fun t =>
      t.now = (s.now / 64 + 1) * 64 ∧ t.jobEn p k = false ∧ (∀ d ∈ (t.maq p).done, d.slot ≠ k) ∧ SameRegs s t [Reg.MAQ.JCTL p k] ∧ SameMem s t)) ∧
  (∀ (rq : Rq) (p k : Nat) (s : State), (Instr.jobReseed rq p k).wf = true → s.writable rq (Reg.MAQ.JCTL p k) = true → s.jobEn p k = true →
    Completes (.jobReseed rq p k) s (fun t =>
      t.jobEn p k = true ∧ (t.job p k).samps = [] ∧ (t.job p k).lastU = none ∧ (t.job p k).n = 0 ∧ (t.job p k).recs = [] ∧
      (t.job p k).desc = (s.job p k).desc ∧ (t.job p k).recNo = (s.job p k).recNo ∧ SameRegs s t [] ∧ SameMem s t)) ∧
  (∀ (rq : Rq) (p : Nat) (s : State), (Instr.maqDisable rq p).wf = true → s.writable rq (Reg.MAQ.page p + 8) = true → s.en (Reg.MAQ.page p) = true →
    Completes (.maqDisable rq p) s (fun t =>
      t.en (Reg.MAQ.page p) = false ∧ (t.maq p).inq = [] ∧ (t.maq p).done = [] ∧ (t.maq p).frames = [] ∧ (t.maq p).jobs = (s.maq p).jobs ∧
      SameRegs s t [Reg.MAQ.page p + 8] ∧ SameMem s t))

/-- The Maquettes: their jobs and what flows through them (R253-R284). -/
def Obligations.Maquettes : Prop := Claims.MaquetteFlow ∧ Claims.MaquetteJobs

/-! ## Engine bundles (chapter 10) -/

namespace Sys2Proof.Machine

/-- A command that runs one instruction without elements: the core, the instruction's syllable, and the rest of its bundle. -/
def bundleRow : Instr → Option (Nat × Syl × List Syl)
  | .nop e r => some (e, ⟨0, .nop⟩, r)
  | .add e u d a b r => some (e, ⟨u, .int .add d a b⟩, r)
  | .adc e u d a b r => some (e, ⟨u, .int .adc d a b⟩, r)
  | .sub e u d a b r => some (e, ⟨u, .int .sub d a b⟩, r)
  | .sbc e u d a b r => some (e, ⟨u, .int .sbc d a b⟩, r)
  | .and e u d a b r => some (e, ⟨u, .int .and d a b⟩, r)
  | .or e u d a b r => some (e, ⟨u, .int .or d a b⟩, r)
  | .xor e u d a b r => some (e, ⟨u, .int .xor d a b⟩, r)
  | .andn e u d a b r => some (e, ⟨u, .int .andn d a b⟩, r)
  | .shl e u d a b r => some (e, ⟨u, .int .shl d a b⟩, r)
  | .shr e u d a b r => some (e, ⟨u, .int .shr d a b⟩, r)
  | .sar e u d a b r => some (e, ⟨u, .int .sar d a b⟩, r)
  | .ror e u d a b r => some (e, ⟨u, .int .ror d a b⟩, r)
  | .min e u d a b r => some (e, ⟨u, .int .min d a b⟩, r)
  | .max e u d a b r => some (e, ⟨u, .int .max d a b⟩, r)
  | .cmp e u a b r => some (e, ⟨u, .int .cmp 0 a b⟩, r)
  | .tst e u a b r => some (e, ⟨u, .int .tst 0 a b⟩, r)
  | .adds e u d a b r => some (e, ⟨u, .reg .adds d a b⟩, r)
  | .subs e u d a b r => some (e, ⟨u, .reg .subs d a b⟩, r)
  | .abs e u d a r => some (e, ⟨u, .reg .abs d a 0⟩, r)
  | .neg e u d a r => some (e, ⟨u, .reg .neg d a 0⟩, r)
  | .clz e u d a r => some (e, ⟨u, .reg .clz d a 0⟩, r)
  | .exts e u f d a r => some (e, ⟨u, .exts f d a⟩, r)
  | .mull e d a b r => some (e, ⟨1, .reg .mull d a b⟩, r)
  | .movi e u d v r => some (e, ⟨u, .movi d v⟩, r)
  | .movh e u d v r => some (e, ⟨u, .movh d v⟩, r)
  | .mov e u d a r => some (e, ⟨u, .reg .mov d a 0⟩, r)
  | .padd e u p q v r => some (e, ⟨u, .padd p q v⟩, r)
  | .movdp e u d p r => some (e, ⟨u, .movdp d p⟩, r)
  | .movpd e u p d r => some (e, ⟨u, .movpd p d⟩, r)
  | .sel e u c d a b r => some (e, ⟨u, .sel c d a b⟩, r)
  | .mac e u n a b f z r => some (e, ⟨u, .mac .mac n a b f z⟩, r)
  | .msu e u n a b f z r => some (e, ⟨u, .mac .msu n a b f z⟩, r)
  | .mul e u n a b f z r => some (e, ⟨u, .mac .mul n a b f z⟩, r)
  | .ext e u d n h k r => some (e, ⟨u, .ext d n h k⟩, r)
  | .amov e u n d h r => some (e, ⟨u, .amov n d h⟩, r)
  | .ash e u n h r => some (e, ⟨u, .ash n h⟩, r)
  | .aadd e u n m r => some (e, ⟨u, .aadd n m⟩, r)
  | .fadd e u d a b r => some (e, ⟨u, .fp .fadd d a b⟩, r)
  | .fsub e u d a b r => some (e, ⟨u, .fp .fsub d a b⟩, r)
  | .fmul e u d a b r => some (e, ⟨u, .fp .fmul d a b⟩, r)
  | .fma e u d a b r => some (e, ⟨u, .fp .fma d a b⟩, r)
  | .fcmp e u a b r => some (e, ⟨u, .fcmp a b⟩, r)
  | .fcvt e u f d a r => some (e, ⟨u, .fcvt f d a⟩, r)
  | .divs e u d a b r => some (e, ⟨u, .long .divs d a b⟩, r)
  | .divu e u d a b r => some (e, ⟨u, .long .divu d a b⟩, r)
  | .sqrt e u d a r => some (e, ⟨u, .long .sqrt d a 0⟩, r)
  | .sincos e u d a r => some (e, ⟨u, .long .sincos d a 0⟩, r)
  | .atan2 e u d a b r => some (e, ⟨u, .long .atan2 d a b⟩, r)
  | .fdiv e u d a b r => some (e, ⟨u, .long .fdiv d a b⟩, r)
  | .ldb e t p a r => some (e, ⟨3, .load .ldb t p a⟩, r)
  | .ldbu e t p a r => some (e, ⟨3, .load .ldbu t p a⟩, r)
  | .ldh e t p a r => some (e, ⟨3, .load .ldh t p a⟩, r)
  | .ldhu e t p a r => some (e, ⟨3, .load .ldhu t p a⟩, r)
  | .ldw e t p a r => some (e, ⟨3, .load .ldw t p a⟩, r)
  | .ldd e t p a r => some (e, ⟨3, .load .ldd t p a⟩, r)
  | .ldp e t p a r => some (e, ⟨3, .load .ldp t p a⟩, r)
  | .lda e t p a r => some (e, ⟨3, .load .lda t p a⟩, r)
  | .stb e t p a r => some (e, ⟨3, .store .stb t p a⟩, r)
  | .sth e t p a r => some (e, ⟨3, .store .sth t p a⟩, r)
  | .stw e t p a r => some (e, ⟨3, .store .stw t p a⟩, r)
  | .std e t p a r => some (e, ⟨3, .store .std t p a⟩, r)
  | .stp e t p a r => some (e, ⟨3, .store .stp t p a⟩, r)
  | .sta e t p a r => some (e, ⟨3, .store .sta t p a⟩, r)
  | .aaddm e d p b r => some (e, ⟨3, .atom .aaddm d p b⟩, r)
  | .aorm e d p b r => some (e, ⟨3, .atom .aorm d p b⟩, r)
  | .aswap e d p b r => some (e, ⟨3, .atom .aswap d p b⟩, r)
  | _ => none

/-- The writes of the syllables of a bundle that touch no memory, from the activation before it; a syllable that does brings none. -/
def aluWr (a : Act) (b : List Syl) : List Wr := b.flatMap (fun y => ((a.alu y.op).map (·.1)).getD [])
/-- Their flag effects, in slot order. -/
def aluFl (a : Act) (b : List Syl) : List FlagOut := b.map (fun y => ((a.alu y.op).map (·.2)).getD .none)
/-- Every syllable is one of these. -/
def aluAll (a : Act) (b : List Syl) : Bool := b.all (fun y => (a.alu y.op).isSome)
/-- The address after a bundle. -/
def Act.past (a : Act) (b : List Syl) : Nat := (a.pc.toNat + 4 * b.length) % 2 ^ 32
/-- The activation after a bundle with these writes, flag word and address. -/
def Act.goes (a : Act) (ws : List Wr) (fl pc : Nat) : Act := { ws.foldl Act.put a with fl := BitVec.ofNat 32 fl, pc := BitVec.ofNat 32 pc, trapEntry := false }

/-- The core's activation is no longer held by WAIT. -/
def State.unwaited (s : State) (e : Nat) : State := s.setCore e { s.core e with cur := (s.core e).cur.map (fun a => { a with wait := false }) }

/-- The fetch of bundle `b` finds the translation and the instruction at hand: nothing changes but the order of use of TLB entries and lines. -/
def Fetches (s : State) (e : Nat) (b : List Syl) (a : Act) (got : List Got) (s' : State) : Prop :=
  (∃ tlb lines, s' = s.setCore e { s.core e with tlb := tlb, lines := lines }) ∧
  fetch.run (Att.start e b a got none s) = .ok () { Att.start e b a got none s with s := s' }

/-- R293, R298: bundle `b` is none that is ILLOP as a whole, and each of its syllables can be performed. -/
def Legal (a : Act) (b : List Syl) : Prop :=
  b.all Syl.ok = true ∧ ascending b = true ∧ distinct (b.flatMap (fun y => opDests a.ring y.op)) = true

/-- Core `e` runs bundle `b` in activation `a` at once: ready, nothing long in flight, no STEP, no checkpoint due, and fetched; `s'` is the state after the fetch. -/
def Starts (s : State) (e : Nat) (b : List Syl) (a : Act) (s' : State) : Prop :=
  s.awake = true ∧ s.bundleReady e = true ∧ ((s.unwaited e).core e).cur = some a ∧ (s.core e).long = none ∧ (s.core e).stepReq = false ∧ Legal a b ∧
  (bitOf a.fl.toNat 11 = true → (aluFl a b).all (fun f => !f.g) = true) ∧
  (96 ≤ e → (s.reg Reg.PEDESTAL.CKINT).toNat = 0 ∨ ((s.copy (e - 96)).ic + 1) % 2 ^ 48 % (s.reg Reg.PEDESTAL.CKINT).toNat ≠ 0) ∧
  Fetches (s.unwaited e) e b a [] s'

/-- A copy counts its bundles (R490). -/
def Act.counted (a : Act) (e : Nat) : Act := { a with acyc := if 96 ≤ e then a.acyc + 1 else a.acyc }
/-- Instruction lines are kept only where the cache has a size (R338). -/
def State.linesKept (s : State) (e : Nat) : List (Nat × Nat × Bool) :=
  if e < 96 ∧ s.f (Reg.ENG.CFG e) 1 0 = 0 then [] else (s.core e).lines
/-- The core after a bundle: its new activation, and the core's own state as it was. -/
def Core.after (k : Core) (a : Act) (lines : List (Nat × Nat × Bool)) : Core := { k with cur := some a, stall := none, lines := lines }

/-- What a bundle of core `e` leaves alone beside cores and memory: the blocks, every register outside the engine's counter page; of the Pedestal, all but the copy's own count and signature. -/
def BlocksKept (e : Nat) (s t : State) : Prop :=
  (∀ a, a / 4096 * 4096 ≠ Reg.PERF.page e → t.reg a = s.reg a) ∧
  t.now = s.now ∧ t.live = s.live ∧ t.pages = s.pages ∧ t.held = s.held ∧ t.chans = s.chans ∧ t.cal = s.cal ∧ t.maqs = s.maqs ∧ t.rasp = s.rasp ∧ t.invs = s.invs ∧
  t.arm = s.arm ∧ t.mbox = s.mbox ∧ t.line = s.line ∧ t.plat = s.plat ∧ t.host = s.host ∧ t.pending = s.pending ∧
  (e < 96 → t.ped = s.ped) ∧ (96 ≤ e → t.ped = { s.ped with copies := t.ped.copies } ∧ ∀ k, k ≠ e - 96 → t.copy k = s.copy k)
/-- And every other core. -/
def BundleFrame (e : Nat) (s t : State) : Prop := (∀ j, j ≠ e → t.core j = s.core j) ∧ BlocksKept e s t

end Sys2Proof.Machine

/-- R294, R295: a bundle of instructions that touch no memory acts as one step: every syllable reads the registers, flags and accumulators from before it, all writes stand after it, FL takes their flag effects in slot order, and execution is past the bundle. NOP, the integer, move and select instructions, MULL, MAC, MSU, MUL, EXT, AMOV, ASH, AADD and fp32 but FDIV. -/
def Obligations.RegisterBundles : Prop :=
  ∀ (i : Instr) (e : Nat) (y : Syl) (r : List Syl) (s s' : State) (a : Act), i.wf = true → bundleRow i = some (e, y, r) → aluAll a (bundleOf y r) = true →
    Starts s e (bundleOf y r) a s' →
    Completes i s (fun t =>
      t.core e = (s'.core e).after ((a.goes (aluWr a (bundleOf y r)) (flApply a.fl.toNat (aluFl a (bundleOf y r))) (a.past (bundleOf y r))).counted e) (s'.linesKept e) ∧
      BundleFrame e s t ∧ SameMem s t)

/-- R294, R300: a register that is no destination of the bundle keeps its value, and so do the pointers, accumulators, CRCP, B, L and the context's registers that no write names. -/
def Obligations.DestinationsOnly : Prop :=
  ∀ (a : Act) (b : List Syl) (fl pc : Nat), aluAll a b = true → Legal a b →
    let u := a.goes (aluWr a b) fl pc
    (∀ n, ¬ (b.flatMap (fun y => opDests a.ring y.op)).contains n → n < 32 → u.dv n = a.dv n) ∧
    (∀ n, ¬ (b.flatMap (fun y => opDests a.ring y.op)).contains (32 + n) → n < 16 → u.pv n = a.pv n) ∧
    (∀ n, ¬ (b.flatMap (fun y => opDests a.ring y.op)).contains (48 + n) → n < 4 → u.av n = a.av n) ∧
    u.crcp = a.crcp ∧ u.b = a.b ∧ u.l = a.l ∧ u.sp = a.sp ∧ u.tvec = a.tvec ∧ u.gtab = a.gtab ∧ u.glen = a.glen ∧ u.ring = a.ring ∧ u.tdepth = a.tdepth ∧
    u.level = a.level ∧ u.slot = a.slot ∧ u.tenant = a.tenant

/-- R300: the results and flags of the integer operations on two words: sum and difference with carry in, borrow, and signed overflow; the logic operations; the signed extremes. -/
def Sys2Proof.Claims.IntegerResults : Prop :=
  (∀ (k : IntOp) (x y : Word) (c : Bool), k = .add ∨ k = .adc →
    let n : Nat := if k = .adc ∧ c then 1 else 0
    let r := intOp k x.toNat y.toNat c
    r.1 = (x + y + BitVec.ofNat 32 n).toNat ∧ r.2.mask = 15 ∧ r.2.s = false ∧ r.2.g = false ∧
    (bitOf r.2.val 2 = true ↔ 2 ^ 32 ≤ x.toNat + y.toNat + n) ∧
    (bitOf r.2.val 3 = true ↔ x.toInt + y.toInt + n < -2 ^ 31 ∨ 2 ^ 31 ≤ x.toInt + y.toInt + n) ∧
    (bitOf r.2.val 0 = true ↔ r.1 = 0) ∧ (bitOf r.2.val 1 = true ↔ 2 ^ 31 ≤ r.1)) ∧
  (∀ (k : IntOp) (x y : Word) (c : Bool), k = .sub ∨ k = .sbc ∨ k = .cmp →
    let n : Nat := if k = .sbc ∧ c = false then 1 else 0
    let r := intOp k x.toNat y.toNat c
    r.1 = (x - y - BitVec.ofNat 32 n).toNat ∧ r.2.mask = 15 ∧ r.2.s = false ∧ r.2.g = false ∧
    (bitOf r.2.val 2 = true ↔ y.toNat + n ≤ x.toNat) ∧
    (bitOf r.2.val 3 = true ↔ x.toInt - y.toInt - n < -2 ^ 31 ∨ 2 ^ 31 ≤ x.toInt - y.toInt - n) ∧
    (bitOf r.2.val 0 = true ↔ r.1 = 0) ∧ (bitOf r.2.val 1 = true ↔ 2 ^ 31 ≤ r.1)) ∧
  (∀ (x y : Word) (c : Bool),
    intOp .and x.toNat y.toNat c = ((x &&& y).toNat, flagsZN (x &&& y).toNat) ∧ intOp .or x.toNat y.toNat c = ((x ||| y).toNat, flagsZN (x ||| y).toNat) ∧
    intOp .xor x.toNat y.toNat c = ((x ^^^ y).toNat, flagsZN (x ^^^ y).toNat) ∧ intOp .andn x.toNat y.toNat c = ((x &&& ~~~y).toNat, flagsZN (x &&& ~~~y).toNat) ∧
    intOp .tst x.toNat y.toNat c = ((x &&& y).toNat, flagsZN (x &&& y).toNat) ∧
    (intOp .min x.toNat y.toNat c).1 = (if x.toInt ≤ y.toInt then x else y).toNat ∧ (intOp .max x.toNat y.toNat c).1 = (if x.toInt ≤ y.toInt then y else x).toNat ∧
    (intOp .min x.toNat y.toNat c).2 = flagsZN (intOp .min x.toNat y.toNat c).1 ∧ (intOp .max x.toNat y.toNat c).2 = flagsZN (intOp .max x.toNat y.toNat c).1)

/-- R301: an RRI immediate is sign-extended for the arithmetic operations and zero-extended for the others; shift amounts are 6 bits, a shift by 0 leaves C, SHL and SHR by 32 or more give 0, ROR uses the amount mod 32, and C is the last bit shifted out. -/
def Sys2Proof.Claims.ShiftsAndImmediates : Prop :=
  (∀ (k : IntOp) (v : BitVec 13), immOf k v.toNat = (if k = .add ∨ k = .adc ∨ k = .sub ∨ k = .sbc ∨ k = .min ∨ k = .max ∨ k = .cmp then (v.signExtend 32).toNat else (v.zeroExtend 32).toNat)) ∧
  (∀ (x y : Word) (c : Bool),
    let n := y.toNat % 64
    (intOp .shl x.toNat y.toNat c).1 = (x <<< n).toNat ∧ (intOp .shr x.toNat y.toNat c).1 = (x >>> n).toNat ∧
    (intOp .sar x.toNat y.toNat c).1 = (x.sshiftRight n).toNat ∧ (intOp .ror x.toNat y.toNat c).1 = (x.rotateRight (n % 32)).toNat ∧
    (n = 0 → ∀ k ∈ [IntOp.shl, .shr, .sar, .ror], (intOp k x.toNat y.toNat c).2.mask = 3) ∧
    (n ≠ 0 → ∀ k ∈ [IntOp.shl, .shr, .sar], (intOp k x.toNat y.toNat c).2.mask = 7) ∧
    (0 < n → n ≤ 32 → bitOf (intOp .shl x.toNat y.toNat c).2.val 2 = x.getLsbD (32 - n) ∧ bitOf (intOp .shr x.toNat y.toNat c).2.val 2 = x.getLsbD (n - 1)) ∧
    (32 < n → bitOf (intOp .shl x.toNat y.toNat c).2.val 2 = false ∧ bitOf (intOp .shr x.toNat y.toNat c).2.val 2 = false) ∧
    (n ≠ 0 → bitOf (intOp .sar x.toNat y.toNat c).2.val 2 = x.getLsbD (min (n - 1) 31)) ∧
    (n % 32 ≠ 0 → bitOf (intOp .ror x.toNat y.toNat c).2.val 2 = (x.rotateRight (n % 32)).msb))

/-- R300, R301: ADDS, SUBS, ABS and NEG give the exact result held in -2^31 to 2^31-1, with V and S where it did not fit; MULL the low 32 bits; CLZ the number of leading zeros, with Z; MOV, MOVI, MOVH, EXTS, PADD, MOVDP and MOVPD their value and no flag; SEL one of two registers. -/
def Sys2Proof.Claims.MovesAndSaturation : Prop :=
  (∀ (x y : Word) (k : RegOp) (v : Int), (k = .adds ∧ v = x.toInt + y.toInt) ∨ (k = .subs ∧ v = x.toInt - y.toInt) ∨ (k = .abs ∧ v = if x.toInt < 0 then -x.toInt else x.toInt) ∨
      (k = .neg ∧ v = -x.toInt) →
    let r := regOp k x.toNat y.toNat
    let w : Int := if v < -2 ^ 31 then -2 ^ 31 else if 2 ^ 31 ≤ v then 2 ^ 31 - 1 else v
    r.1 = (BitVec.ofInt 32 w).toNat ∧ r.2.mask = 11 ∧ (bitOf r.2.val 3 = true ↔ w ≠ v) ∧ (r.2.s = true ↔ w ≠ v) ∧ r.2.g = false) ∧
  (∀ (x y : Word), regOp .mull x.toNat y.toNat = ((x * y).toNat, flagsZN (x * y).toNat)) ∧
  (∀ (x y : Word), let r := regOp .clz x.toNat y.toNat
    r.1 ≤ 32 ∧ (r.1 = 32 ↔ x = 0#32) ∧ (r.1 < 32 → x.getLsbD (31 - r.1) = true ∧ ∀ j, 31 - r.1 < j → x.getLsbD j = false) ∧ r.2.mask = 1 ∧ (bitOf r.2.val 0 = true ↔ r.1 = 0)) ∧
  (∀ (a : Act) (d n m c : Nat) (v18 : BitVec 18) (v16 : BitVec 16) (v13 : BitVec 13),
    a.alu (.reg .mov d n 0) = some ([wordD d (a.dv n)], .none) ∧
    a.alu (.movi d v18.toNat) = some ([.d d (v18.signExtend 32)], .none) ∧
    a.alu (.movh d v16.toNat) = some ([.d d (BitVec.ofNat 32 (v16.toNat * 65536 + a.dv d % 65536))], .none) ∧
    a.alu (.padd d n v13.toNat) = some ([.p d (BitVec.ofNat 32 (a.pv n) + v13.signExtend 32)], .none) ∧
    a.alu (.movdp d n) = some ([wordD d (a.pv n)], .none) ∧ a.alu (.movpd d n) = some ([wordP d (a.dv n)], .none) ∧
    a.alu (.sel c d n m) = some ([wordD d (if condHolds c a.fl.toNat then a.dv n else a.dv m)], .none) ∧
    a.alu .nop = some ([], .none)) ∧
  (∀ x : Word, extsOp 0 x.toNat = ((x.setWidth 8).signExtend 32).toNat ∧ extsOp 1 x.toNat = ((x.setWidth 16).signExtend 32).toNat ∧ extsOp 2 x.toNat = x.toNat % 256 ∧ extsOp 3 x.toNat = x.toNat % 65536)

/-- R312, R313: the product, the sum in the accumulator, wrapped or held as AMODE says, with G where it left the guard and S where it was held; EXT scales, rounds and saturates with S; AMOV, ASH and AADD. -/
def Obligations.Accumulators : Prop :=
  (∀ (x y : Word), product false false x.toNat y.toNat = x.toInt * y.toInt ∧ product true false x.toNat y.toNat = 2 * (x.toInt * y.toInt) ∧
    product false true x.toNat y.toNat = (x.setWidth 16).toInt * (y.setWidth 16).toInt ∧
    product true true x.toNat y.toNat = 2 ^ 33 * ((x.setWidth 16).toInt * (y.setWidth 16).toInt)) ∧
  (∀ (a : Act) (n : Nat) (x : Int), let r := a.accWr n x
    (-2 ^ 71 ≤ x ∧ x < 2 ^ 71 → r = ([.a n (BitVec.ofInt 72 x)], .none)) ∧
    (¬ (-2 ^ 71 ≤ x ∧ x < 2 ^ 71) → r.2.g = true ∧ r.2.mask = 0 ∧ r.2.s = a.amode n ∧
      (a.amode n = false → r.1 = [.a n (BitVec.ofInt 72 x)]) ∧ (a.amode n = true → r.1 = [.a n (if x < 0 then BitVec.ofInt 72 (-2 ^ 71) else BitVec.ofInt 72 (2 ^ 71 - 1))]))) ∧
  (∀ (a : Act) (n d b : Nat) (f z : Bool),
    a.alu (.mac .mac n d b f z) = some (a.accWr n (accVal (a.av n) + product f z (a.dv d) (a.dv b))) ∧
    a.alu (.mac .msu n d b f z) = some (a.accWr n (accVal (a.av n) - product f z (a.dv d) (a.dv b))) ∧
    a.alu (.mac .mul n d b f z) = some ([.a n (BitVec.ofInt 72 (product f z (a.dv d) (a.dv b)))], .none)) ∧
  (∀ (a : Act) (n m d h : Nat),
    a.alu (.aadd n m) = some (a.accWr n (accVal (a.av n) + accVal (a.av m))) ∧ a.alu (.amov n d h) = some (a.accWr n ((lget 0#32 a.d d).toInt * 2 ^ h)) ∧
    (h < 64 → a.alu (.ash n h) = some (a.accWr n (accVal (a.av n) * 2 ^ h))) ∧
    (0 < h → h ≤ 64 → a.alu (.ash n (128 - h)) = some (a.accWr n (accVal (a.av n) / 2 ^ h)))) ∧
  (∀ (x : Acc) (h : Nat) (rd : Bool),
    let v : Int := if rd ∧ 0 < h then (x.toInt + 2 ^ (h - 1)) / 2 ^ h else x.toInt / 2 ^ h
    let w : Int := if v < -2 ^ 31 then -2 ^ 31 else if 2 ^ 31 ≤ v then 2 ^ 31 - 1 else v
    (extOp x h rd).1 = (BitVec.ofInt 32 w).toNat ∧ (extOp x h rd).2.mask = 3 ∧ ((extOp x h rd).2.s = true ↔ w ≠ v))

/-- R317, R318: a long instruction starts the unit: nothing is written before its latency has passed, and LONG_RESULT then writes the result registers and S where the operation says; the division corners. -/
def Sys2Proof.Claims.LongOperations : Prop :=
  (∀ (i : Instr) (e u d n m : Nat) (k : LongOp) (r : List Syl) (s s' : State) (a : Act), i.wf = true → bundleRow i = some (e, ⟨u, .long k d n m⟩, r) → aluAll a r = true →
    Starts s e (bundleOf ⟨u, .long k d n m⟩ r) a s' →
    Completes i s (fun t =>
      let b := bundleOf ⟨u, .long k d n m⟩ r
      let q := longOp k (a.dv n) (a.dv m)
      (t.core e).long = some ⟨s.now + q.2.2 * (if e < 96 then 1 else 2), (List.range q.1.length).map (fun j => (d + j, BitVec.ofNat 32 (lget 0 q.1 j))), q.2.1, some a.level⟩ ∧
      (t.core e).cur = some ((a.goes (aluWr a b) (flApply a.fl.toNat (aluFl a b)) (a.past b)).counted e) ∧ BundleFrame e s t ∧ SameMem s t)) ∧
  (∀ (e : Nat) (l : LongRun) (a : Act) (s : State), e < 99 → s.awake = true → (s.core e).long = some l → (s.core e).cur = some a → l.level = some a.level →
    Completes (.longResult e) s (fun t =>
      (t.core e).cur = some { a with d := l.dst.foldl (fun d p => lput d p.1 p.2) a.d, fl := if l.sat then a.fl ||| 0x20#32 else a.fl } ∧
      (t.core e).long = none ∧ t.now = max s.now l.due ∧ SameRegs s t [] ∧ SameMem s t ∧ ∀ j, j ≠ e → t.core j = s.core j)) ∧
  (∀ (x y : Word), y ≠ 0#32 → longOp .divu x.toNat y.toNat = ([(x / y).toNat, (x % y).toNat], false, 18)) ∧
  (∀ (x : Word), longOp .divu x.toNat 0 = ([0xFFFFFFFF, x.toNat], true, 18) ∧
    longOp .divs x.toNat 0 = ([if 0 ≤ x.toInt then 0x7FFFFFFF else 0x80000000, x.toNat], true, 18)) ∧
  longOp .divs 0x80000000 0xFFFFFFFF = ([0x7FFFFFFF, 0], true, 18) ∧
  (∀ (x y : Word), y ≠ 0#32 → ¬ (x = 0x80000000#32 ∧ y = 0xFFFFFFFF#32) → longOp .divs x.toNat y.toNat = ([(x.sdiv y).toNat, (x.srem y).toNat], false, 18)) ∧
  (∀ (x y : Word), ∃ q, longOp .sqrt x.toNat y.toNat = ([q], false, 17) ∧ q * q ≤ x.toNat * 2 ^ 32 ∧ x.toNat * 2 ^ 32 < (q + 1) * (q + 1)) ∧
  (longOp .atan2 0 0 = ([0], false, 20)) ∧
  (∀ (x y : Nat), (longOp .sincos x y).2 = (false, 20) ∧ (longOp .atan2 x y).2 = (false, 20) ∧ (longOp .fdiv x y).2 = (false, 12))

/-- R320, R321: the special values of the fp32 instructions: a subnormal operand counts as zero, FCMP of a NaN sets V alone, a conversion to an integer saturates with S and takes a NaN to 0, every NaN result is 0x7FC0_0000 and no result is subnormal. -/
def Sys2Proof.Claims.FloatSpecials : Prop :=
  (∀ (k : FpOp) (d x y : Nat), x < 2 ^ 32 → y < 2 ^ 32 → fpOp k d x y = fpOp k d (flush32 x) (flush32 y) ∧ (fpOp k d x y).2.mask = 11 ∧ (fpOp k d x y).2.s = false) ∧
  (∀ (x y : Nat), b32.isNaN (flush32 x) = true ∨ b32.isNaN (flush32 y) = true → fcmpFlags x y = ⟨15, 8, false, false⟩) ∧
  (∀ x : Nat, b32.val (flush32 x) = .nan → fcvtOp 1 x = (0, ⟨3, 1, true, false⟩) ∧ fcvtOp 3 x = (0, ⟨3, 1, true, false⟩) ∧ fcvtOp 5 x = (0, ⟨3, 1, true, false⟩)) ∧
  (fcvtOp 1 0x7F800000 = (0x7FFFFFFF, ⟨3, 0, true, false⟩) ∧ fcvtOp 1 0xFF800000 = (0x80000000, ⟨3, 2, true, false⟩) ∧
    fcvtOp 1 0x40200000 = (2, ⟨3, 0, false, false⟩) ∧ fcvtOp 1 0x40600000 = (4, ⟨3, 0, false, false⟩) ∧ fcvtOp 0 0x7FFFFFFF = (0x4F000000, ⟨3, 0, false, false⟩)) ∧
  (∀ (k : FpOp) (d x y : Nat), b32.isNaN (fpOp k d x y).1 = true → (fpOp k d x y).1 = 0x7FC00000) ∧
  (∀ (k : FpOp) (d x y : Nat), (fpOp k d x y).1 < 2 ^ 32 ∧ ((fpOp k d x y).1 / 2 ^ 23 % 256 = 0 → (fpOp k d x y).1 % 2 ^ 31 = 0))

/-- The integer operations (R300, R301). -/
def Obligations.IntegerOperations : Prop := Claims.IntegerResults ∧ Claims.ShiftsAndImmediates ∧ Claims.MovesAndSaturation

/-- The long operations and binary32 (R305, R316-R321). -/
def Obligations.LongAndFloat : Prop := Claims.LongOperations ∧ Claims.FloatSpecials

/-! ## Control flow of the engines (chapters 10 and 11) -/

namespace Sys2Proof.Machine

/-- An access of `n` bytes at `va` by activation `a` in ring `ring` finds its translation in the TLB, is permitted, and leads to the core's own memory at `p`, powered and free of errors. -/
def LocalAt (s : State) (e : Nat) (a : Act) (ring va n : Nat) (write : Bool) (x : TlbEnt) (p : Nat) : Prop :=
  tlbFind (s.core e).tlb a.tenant va = some x ∧ (if write then leafWrites x.entry ring && x.d else leafReads x.entry ring) = true ∧ entDev x.entry = false ∧
  s.place e (leafPA x.entry va) = .own p ∧ (e < 96 → memRefused (coreRq e a.tenant ring) p n write s = none) ∧ (96 ≤ e → leafPA x.entry va + n ≤ 0xD0080000) ∧
  s.memOff p = false ∧ ∀ q, q < p + n → p < q + 8 → s.synd q = 0

/-- What a load of `n` bytes there brings: memory, with the core's buffered stores in place (R336). -/
def State.loaded_ (s : State) (e p n : Nat) : Nat := wbMerge (s.core e).wbuf p n (s.raw p n)

/-- The core after a bundle whose accesses changed the order of use of its TLB, as `t` shows it. -/
def Core.after' (k : Core) (a : Act) (lines : List (Nat × Nat × Bool)) (t : Core) : Core := { k.after a lines with tlb := t.tlb }

/-- Stores in the core's own memory: of an engine into its write buffer (R336), of a copy into memory, where no other byte changes and only reservations may go (R310). -/
def Stored (s s' : State) (e p n v : Nat) (a a' : Act) (t : State) : Prop :=
  (e < 96 → t.core e = { (s'.core e).after' a' (s'.linesKept e) (t.core e) with wbuf := (s'.core e).wbuf ++ [⟨p, n, v, false, a.tenant, a.ring⟩] } ∧
    BundleFrame e s t ∧ SameMem s t) ∧
  (96 ≤ e → t.core e = { (s'.core e).after' a' (s'.linesKept e) (t.core e) with resv := (t.core e).resv } ∧
    (∀ j, j ≠ e → t.core j = { s.core j with resv := (t.core j).resv }) ∧ BlocksKept e s t ∧
    t.raw p n = v ∧ (∀ q, q < p ∨ p + n ≤ q → t.byte q = s.byte q) ∧ ∀ q, t.synd q = s.synd q)

end Sys2Proof.Machine

/-- R302, R303, R304, R351: BR goes to the bundle's address + 4 x the signed offset where its condition holds on FL from before the bundle, JMP to Ps; WAIT holds the activation; the rest of the bundle is performed. -/
def Obligations.Branches : Prop :=
  ∀ (e : Nat) (r : List Syl) (s s' : State) (a : Act), aluAll a r = true →
    (∀ c v, (Instr.br e c v r).wf = true → Starts s e (bundleOf ⟨0, .br c v⟩ r) a s' →
      Completes (.br e c v r) s (fun t =>
        let b := bundleOf ⟨0, .br c v⟩ r
        t.core e = (s'.core e).after ((a.goes (aluWr a b) (flApply a.fl.toNat (aluFl a b))
          (if condHolds c a.fl.toNat then ux 32 ((a.pc.toNat : Int) + 4 * sx 19 v) / 4 * 4 else a.past b)).counted e) (s'.linesKept e) ∧ BundleFrame e s t ∧ SameMem s t)) ∧
    (∀ p, (Instr.jmp e p r).wf = true → Starts s e (bundleOf ⟨0, .jmp p⟩ r) a s' →
      Completes (.jmp e p r) s (fun t =>
        let b := bundleOf ⟨0, .jmp p⟩ r
        t.core e = (s'.core e).after ((a.goes (aluWr a b) (flApply a.fl.toNat (aluFl a b)) (a.pv p / 4 * 4)).counted e) (s'.linesKept e) ∧ BundleFrame e s t ∧ SameMem s t)) ∧
    ((Instr.wait e r).wf = true → Starts s e (bundleOf ⟨0, .wait⟩ r) a s' →
      Completes (.wait e r) s (fun t =>
        let b := bundleOf ⟨0, .wait⟩ r
        t.core e = (s'.core e).after { (a.goes (aluWr a b) (flApply a.fl.toNat (aluFl a b)) (a.past b)).counted e with wait := true } (s'.linesKept e) ∧
        BundleFrame e s t ∧ SameMem s t))

/-- R304: the conditions on Z, N, C and V, and S or G, which BR alone may use. -/
def Obligations.Conditions : Prop :=
  (∀ (z n c v : Bool), let fl := b2n z + 2 * b2n n + 4 * b2n c + 8 * b2n v
    (∀ g s : Bool, ((List.range 15).map (fun k => condHolds k (fl + 16 * b2n g + 32 * b2n s)) =
        [z, !z, c, !c, n, !n, v, !v, c && !z, !c || z, n == v, n != v, !z && (n == v), z || (n != v), true]) ∧
      condHolds 15 (fl + 16 * b2n g + 32 * b2n s) = (g || s))) ∧
  (∀ dd da db slot : Nat, (Syl.mk slot (.sel 15 dd da db)).ok = false) ∧ (∀ v : Nat, v < 2 ^ 19 → (Syl.mk 0 (.br 15 v)).ok = true)

/-- R291, R295, R302, R363: MFC gives a control register the ring may read, MTC writes one it may write, MTC FL and CLRF override every other flag effect of the bundle. -/
def Obligations.ControlRegisters : Prop :=
  ∀ (e : Nat) (r : List Syl) (s s' : State) (a : Act), aluAll a r = true →
    (∀ d n, (Instr.mfc e d n r).wf = true → a.ring ≤ crReadRing n → Starts s e (bundleOf ⟨0, .mfc d n⟩ r) a s' →
      Completes (.mfc e d n r) s (fun t =>
        let b := bundleOf ⟨0, .mfc d n⟩ r
        t.core e = (s'.core e).after ((a.goes (.d d (a.cr e s.now n) :: aluWr a b) (flApply a.fl.toNat (aluFl a b)) (a.past b)).counted e) (s'.linesKept e) ∧
        BundleFrame e s t ∧ SameMem s t)) ∧
    (∀ n d, (Instr.mtc e n d r).wf = true → a.ring ≤ crWriteRing n → n ≠ 0 → Starts s e (bundleOf ⟨0, .mtc n d⟩ r) a s' →
      Completes (.mtc e n d r) s (fun t =>
        let b := bundleOf ⟨0, .mtc n d⟩ r
        t.core e = (s'.core e).after ((a.goes (.cr n (BitVec.ofNat 32 (a.dv d)) :: aluWr a b) (flApply a.fl.toNat (aluFl a b)) (a.past b)).counted e) (s'.linesKept e) ∧
        BundleFrame e s t ∧ SameMem s t)) ∧
    (∀ d, (Instr.mtc e 0 d r).wf = true → Starts s e (bundleOf ⟨0, .mtc 0 d⟩ r) a s' →
      Completes (.mtc e 0 d r) s (fun t =>
        let b := bundleOf ⟨0, .mtc 0 d⟩ r
        t.core e = (s'.core e).after ((a.goes (aluWr a b) (Nat.land (a.dv d) 0xF83F) (a.past b)).counted e) (s'.linesKept e) ∧ BundleFrame e s t ∧ SameMem s t)) ∧
    (∀ m, (Instr.clrf e m r).wf = true → Starts s e (bundleOf ⟨0, .clrf m⟩ r) a s' →
      Completes (.clrf e m r) s (fun t =>
        let b := bundleOf ⟨0, .clrf m⟩ r
        t.core e = (s'.core e).after ((a.goes (aluWr a b) (a.fl &&& ~~~(BitVec.ofNat 32 m)).toNat (a.past b)).counted e) (s'.linesKept e) ∧ BundleFrame e s t ∧ SameMem s t))

/-- R326: CALL and CALLR push the address after the bundle at P15 - 4, which P15 becomes; RET continues at the word at P15 with its low two bits 0, and P15 rises by 4. -/
def Sys2Proof.Claims.Calls : Prop :=
  ∀ (e : Nat) (r : List Syl) (s s' : State) (a : Act) (x : TlbEnt) (p : Nat), aluAll a r = true →
    let sp := (a.pv 15 + 2 ^ 32 - 4) % 2 ^ 32
    (∀ v, (Instr.call e v r).wf = true → Starts s e (bundleOf ⟨0, .call v⟩ r) a s' → sp % 4 = 0 → LocalAt s' e a a.ring sp 4 true x p → (s'.core e).wbuf.length < 4 →
      s.b Reg.ECC.FLIPCTL 31 = false →
      Completes (.call e v r) s (fun t =>
        let b := bundleOf ⟨0, .call v⟩ r
        Stored s s' e p 4 (a.past b) a ((a.goes (wordP 15 sp :: aluWr a b) (flApply a.fl.toNat (aluFl a b)) (ux 32 ((a.pc.toNat : Int) + 4 * sx 23 v) / 4 * 4)).counted e) t)) ∧
    (∀ q, (Instr.callr e q r).wf = true → Starts s e (bundleOf ⟨0, .callr q⟩ r) a s' → sp % 4 = 0 → LocalAt s' e a a.ring sp 4 true x p → (s'.core e).wbuf.length < 4 →
      s.b Reg.ECC.FLIPCTL 31 = false →
      Completes (.callr e q r) s (fun t =>
        let b := bundleOf ⟨0, .callr q⟩ r
        Stored s s' e p 4 (a.past b) a ((a.goes (wordP 15 sp :: aluWr a b) (flApply a.fl.toNat (aluFl a b)) (a.pv q / 4 * 4)).counted e) t)) ∧
    ((Instr.ret e r).wf = true → Starts s e (bundleOf ⟨0, .ret⟩ r) a s' → a.pv 15 % 4 = 0 → LocalAt s' e a a.ring (a.pv 15) 4 false x p →
      Completes (.ret e r) s (fun t =>
        let b := bundleOf ⟨0, .ret⟩ r
        t.core e = (s'.core e).after' ((a.goes (wordP 15 ((a.pv 15 + 4) % 2 ^ 32) :: aluWr a b) (flApply a.fl.toNat (aluFl a b)) (s'.loaded_ e p 4 / 4 * 4)).counted e) (s'.linesKept e) (t.core e) ∧
        BundleFrame e s t ∧ SameMem s t))

/-- R361, R362: GATE through a valid descriptor pushes the return address with the ring on the target ring's stack and continues there; RETG pops them. -/
def Sys2Proof.Claims.RingCrossings : Prop :=
  (∀ (e n : Nat) (s s' : State) (a : Act) (x y : TlbEnt) (p q : Nat), (Instr.gate e n []).wf = true → Starts s e [⟨0, .gate n⟩] a s' → (s'.core e).wbuf = [] → s.b Reg.ECC.FLIPCTL 31 = false →
    let va := (a.gtab.toNat + 8 * n) % 2 ^ 32
    let w := s'.raw p 8
    let r := w % 4
    let sp := ((a.spv r).toNat + 2 ^ 32 - 4) % 2 ^ 32
    n < a.glen.toNat → va % 8 = 0 → LocalAt s' e a 1 va 8 false x p →
    w / 2 ^ 63 % 2 = 1 → a.ring ≤ w / 2 ^ 32 % 4 → r ≤ a.ring → (r = 0 → a.sring = 0) → sp % 4 = 0 → LocalAt (tlbTouch e x s') e a r sp 4 true y q →
    Completes (.gate e n []) s (fun t =>
      let u := (a.goes [] a.fl.toNat (w % 2 ^ 32 / 4 * 4)).toRing r
      (t.core e).cur = some ({ u with p := lput u.p 15 (BitVec.ofNat 32 sp) }.counted e) ∧ (t.core e).resv = none ∧ BlocksKept e s t ∧
      (e < 96 → (t.core e).wbuf = [⟨q, 4, a.past [⟨0, .gate n⟩] / 4 * 4 + a.ring, false, a.tenant, r⟩] ∧ SameMem s t) ∧
      (96 ≤ e → t.raw q 4 = a.past [⟨0, .gate n⟩] / 4 * 4 + a.ring ∧ ∀ j, j < q ∨ q + 4 ≤ j → t.byte j = s.byte j))) ∧
  (∀ (e : Nat) (s s' : State) (a : Act) (x : TlbEnt) (p : Nat), (Instr.retg e []).wf = true → Starts s e [⟨0, .retg⟩] a s' → a.pv 15 % 4 = 0 →
    LocalAt s' e a a.ring (a.pv 15) 4 false x p →
    let w := s'.loaded_ e p 4
    a.ring ≤ w % 4 → (w % 4 = 0 → a.sring = 0) →
    Completes (.retg e []) s (fun t =>
      (t.core e).cur = some ((ringTo ((a.pv 15 + 4) % 2 ^ 32) (w % 4) (a.goes [] a.fl.toNat (w / 4 * 4))).counted e) ∧ (t.core e).resv = none ∧ (t.core e).wbuf = (s'.core e).wbuf ∧
      BundleFrame e s t ∧ SameMem s t)) ∧
  (∀ (a : Act) (r : Nat), r ≠ a.ring → (a.toRing r).ring = r ∧ (a.toRing r).p = lput a.p 15 (lget 0#32 a.sp r) ∧ (a.toRing r).sp = lput a.sp a.ring (lget 0#32 a.p 15))

/-- R350, R358: RETE of a handler takes the frame of 16 bytes back: address, FL and ring, and P15 rises by 16; RETE of an activation ends it, and the core goes on with the highest saved one, or is idle. -/
def Sys2Proof.Claims.Returns : Prop :=
  (∀ (e : Nat) (s s' : State) (a : Act) (x : TlbEnt) (p : Nat), (Instr.rete e []).wf = true → Starts s e [⟨0, .rete⟩] a s' → 0 < a.tdepth → a.ring ≤ 1 → a.pv 15 % 16 = 0 →
    LocalAt s' e a a.ring (a.pv 15) 16 false x p →
    let w := s'.loaded_ e p 16
    let r := w / 2 ^ 68 % 4
    a.ring ≤ r → (r = 0 → a.sring = 0) →
    Completes (.rete e []) s (fun t =>
      (t.core e).cur = some ({ ringTo ((a.pv 15 + 16) % 2 ^ 32) r (a.goes [] (Nat.land (w / 2 ^ 32 % 2 ^ 32) 0xF83F) (w % 2 ^ 32 / 4 * 4)) with tdepth := a.tdepth - 1 }.counted e) ∧
      (t.core e).resv = none ∧ BundleFrame e s t ∧ SameMem s t)) ∧
  (∀ (e : Nat) (s s' : State) (a : Act), (Instr.rete e []).wf = true → Starts s e [⟨0, .rete⟩] a s' → a.tdepth = 0 → a.ring = a.sring → (e < 96 → s.taskAt e a.slot = none) →
    (∀ n, n < coreSlots e → s.slotF e n 27 24 = 0) → (s.core e).halted = none →
    Completes (.rete e []) s (fun t =>
      (∀ b l, (s.core e).saved = b :: l → (t.core e).cur = some { b with since := s.now + 7 * coreClk e } ∧ (t.core e).saved = l) ∧
      ((s.core e).saved = [] → (t.core e).cur = none ∧ (t.core e).saved = []) ∧ (t.core e).resv = none ∧ BundleFrame e s t ∧ SameMem s t))

/-- R328, R636: BRK halts an engine where the debug port has enabled breakpoints; elsewhere it is ILLOP. R355, R356, R364: a fault pushes the frame of 16 bytes on the stack of ring 0 or 1 and continues at the vector of its cause, with FADDR and FINFO, nothing else of the bundle done (the frame in the engine's write buffer). -/
def Obligations.BreakAndFaults : Prop :=
  (∀ (e : Nat) (s s' : State) (a : Act), (Instr.brk e []).wf = true → Starts s e [⟨0, .brk⟩] a s' → s.brkOn e a.tenant = true →
    Completes (.brk e []) s (fun t => (t.core e).halted = some .brk ∧ (t.core e).cur = some (a.goes [] a.fl.toNat (a.past [⟨0, .brk⟩])) ∧ BundleFrame e s t ∧ SameMem s t)) ∧
  (∀ (e : Nat) (s s' : State) (a : Act) (x y : TlbEnt) (p q : Nat), (Instr.brk e []).wf = true → Starts s e [⟨0, .brk⟩] a s' → s.brkOn e a.tenant = false → e < 96 →
    a.df = false → a.trapEntry = false → a.tdepth < 15 → (s'.core e).wbuf = [] →
    let hr := if a.ring = 0 then 0 else 1
    let sp := ((a.spv hr).toNat + 2 ^ 32 - 16) % 2 ^ 32
    let va := (a.tvec.toNat + 4) % 2 ^ 32
    sp % 16 = 0 → va % 4 = 0 → LocalAt s' e a hr sp 16 true x p → LocalAt (tlbTouch e x s') e a hr va 4 false y q →
    Completes (.brk e []) s (fun t => ∃ u, (t.core e).cur = some u ∧
      u.pc = BitVec.ofNat 32 (s'.raw q 4 / 4 * 4) ∧ u.ring = hr ∧ (15 < a.p.length → lget 0#32 u.p 15 = BitVec.ofNat 32 sp) ∧
      u.tdepth = a.tdepth + 1 ∧ u.faddr = a.pc ∧ u.finfo = BitVec.ofNat 32 (a.ring * 16 + 1) ∧ u.trapEntry = true ∧ u.d = a.d ∧ u.a = a.a ∧ u.fl = a.fl ∧
      (t.core e).wbuf = [⟨p, 16, a.pc.toNat + a.fl.toNat * 2 ^ 32 + (BitVec.ofNat 32 (a.ring * 16 + 1)).toNat * 2 ^ 64 + a.pc.toNat * 2 ^ 96, false, a.tenant, hr⟩] ∧
      t.reg (Reg.ENG.FAULTCNT e) = s.reg (Reg.ENG.FAULTCNT e) + 1#32 ∧ SameMem s t ∧ ∀ j, j ≠ e → t.core j = s.core j))

/-- Calls, the crossing of rings, and the returns (R302, R350, R358-R364). -/
def Obligations.CallsAndRings : Prop := Claims.Calls ∧ Claims.RingCrossings ∧ Claims.Returns

/-! ## Memory instructions and what happens on an engine beside its instructions (chapters 10-12) -/

namespace Sys2Proof.Machine

/-- The writes of a bundle whose syllable `y` writes `ws` and whose others touch no memory. -/
def wrWith (a : Act) (b : List Syl) (y : Syl) (ws : List Wr) : List Wr := b.flatMap (fun z => if z = y then ws else aluWr a [z])
/-- Its flag effects. -/
def flWith (a : Act) (b : List Syl) (y : Syl) (f : FlagOut) : List FlagOut := b.map (fun z => if z = y then f else ((a.alu z.op).map (·.2)).getD .none)

/-- A store that is not buffered reaches the core's own memory with the bundle: no other byte changes, and only reservations may go (R309, R310). -/
def Direct (s s' : State) (e p v : Nat) (a' : Act) (t : State) : Prop :=
  t.core e = { (s'.core e).after' a' (s'.linesKept e) (t.core e) with resv := (t.core e).resv } ∧
  (∀ j, j ≠ e → t.core j = { s.core j with resv := (t.core j).resv }) ∧ BlocksKept e s t ∧
  t.raw p 4 = v ∧ (∀ q, q < p ∨ p + 4 ≤ q → t.byte q = s.byte q) ∧ ∀ q, t.synd q = s.synd q

end Sys2Proof.Machine

/-- R306, R307, R308, R312: a load writes its value, extended as the instruction says, and a post-modified pointer: LDB, LDBU, LDH, LDHU, LDW, LDD, LDP and LDA, from the core's own memory at an aligned address. -/
def Sys2Proof.Claims.Loads : Prop :=
  (∀ (i : Instr) (e n pb : Nat) (k : LoadOp) (ad : Addr) (r : List Syl) (s s' : State) (a : Act) (x : TlbEnt) (p : Nat), i.wf = true →
    bundleRow i = some (e, ⟨3, .load k n pb ad⟩, r) → aluAll a r = true → Starts s e (bundleOf ⟨3, .load k n pb ad⟩ r) a s' →
    (a.ea pb ad).1 % k.size = 0 → LocalAt s' e a a.ring (a.ea pb ad).1 k.size false x p →
    Completes i s (fun t =>
      let b := bundleOf ⟨3, .load k n pb ad⟩ r
      t.core e = (s'.core e).after' ((a.goes (aluWr a b ++ loadWr k n (s'.loaded_ e p k.size) ++ a.postWr pb (a.ea pb ad).2) (flApply a.fl.toNat (aluFl a b)) (a.past b)).counted e)
        (s'.linesKept e) (t.core e) ∧ BundleFrame e s t ∧ SameMem s t)) ∧
  (∀ (d : Nat) (v : BitVec 128),
    loadWr .ldb d (v.setWidth 8).toNat = [.d d ((v.setWidth 8).signExtend 32)] ∧ loadWr .ldbu d (v.setWidth 8).toNat = [.d d ((v.setWidth 8).setWidth 32)] ∧
    loadWr .ldh d (v.setWidth 16).toNat = [.d d ((v.setWidth 16).signExtend 32)] ∧ loadWr .ldhu d (v.setWidth 16).toNat = [.d d ((v.setWidth 16).setWidth 32)] ∧
    loadWr .ldw d (v.setWidth 32).toNat = [.d d (v.setWidth 32)] ∧ loadWr .ldp d (v.setWidth 32).toNat = [.p d (v.setWidth 32)] ∧
    loadWr .ldd d (v.setWidth 64).toNat = [.d d (v.setWidth 32), .d (d + 1) ((v >>> 32).setWidth 32)] ∧ loadWr .lda d v.toNat = [.a d (v.setWidth 72)]) ∧
  (∀ (a : Act) (pb o k : Nat) (c : BitVec 12), o = c.toNat →
    a.ea pb (.off o) = ((BitVec.ofNat 32 (a.pv pb) + c.signExtend 32).toNat, 0) ∧ a.ea pb (.post o) = (a.pv pb, c.toInt) ∧
    a.ea pb (.idx k) = ((BitVec.ofNat 32 (a.pv pb) + BitVec.ofNat 32 (a.dv k)).toNat, 0))

/-- R306, R336: a store puts the low bytes of its register at its address: an engine's into its write buffer, a copy's into its memory: STB, STH, STW, STD, STP and STA, in the core's own memory at an aligned address. -/
def Sys2Proof.Claims.Stores : Prop :=
  (∀ (i : Instr) (e n pb : Nat) (k : StoreOp) (ad : Addr) (r : List Syl) (s s' : State) (a : Act) (x : TlbEnt) (p : Nat), i.wf = true →
    bundleRow i = some (e, ⟨3, .store k n pb ad⟩, r) → aluAll a r = true → Starts s e (bundleOf ⟨3, .store k n pb ad⟩ r) a s' →
    (a.ea pb ad).1 % k.size = 0 → LocalAt s' e a a.ring (a.ea pb ad).1 k.size true x p → (s'.core e).wbuf.length < 4 → s.b Reg.ECC.FLIPCTL 31 = false →
    Completes i s (fun t =>
      let b := bundleOf ⟨3, .store k n pb ad⟩ r
      Stored s s' e p k.size (a.storeVal k n % 2 ^ (8 * k.size)) a
        ((a.goes (aluWr a b ++ a.postWr pb (a.ea pb ad).2) (flApply a.fl.toNat (aluFl a b)) (a.past b)).counted e) t)) ∧
  (∀ (a : Act) (n : Nat), a.storeVal .stb n = a.dv n % 256 ∧ a.storeVal .sth n = a.dv n % 65536 ∧ a.storeVal .stw n = a.dv n ∧ a.storeVal .stp n = a.pv n ∧
    a.storeVal .std n = a.dv n + a.dv (n + 1) * 2 ^ 32 ∧ a.storeVal .sta n = ((a.av n).signExtend 128).toNat)

/-- R308: a post-modified pointer moves by the amount, and with L not 0 stays in the buffer of L bytes at B where it was inside it and the amount is no larger. -/
def Sys2Proof.Claims.CircularPointers : Prop :=
  (∀ (a : Act) (n : Nat) (m : Int), 7 < n ∨ lget 0#32 a.l n = 0#32 → a.postMod n m = BitVec.ofNat 32 (a.pv n) + BitVec.ofInt 32 m) ∧
  (∀ (a : Act) (n : Nat) (m : Int), n ≤ 7 → lget 0#32 a.l n ≠ 0#32 →
    let b : Int := (lget 0#32 a.b n).toNat
    let l : Int := (lget 0#32 a.l n).toNat
    b + l < 2 ^ 31 → b ≤ a.pv n → (a.pv n : Int) < b + l → -l ≤ m → m ≤ l → (0 : Int) ≤ a.pv n + m →
    let q : Int := (a.postMod n m).toNat
    b ≤ q ∧ q < b + l ∧ (q - a.pv n - m) % l = 0)

/-- R305, R315: MACD takes its operands at Px in X memory and at Py in Y memory, adds or subtracts their product to An, or to 0 with CLR, and moves both pointers by units of the operand's size. -/
def Sys2Proof.Claims.DualMac : Prop :=
  ∀ (e u n px py mx my : Nat) (z f neg clr : Bool) (r : List Syl) (s s' : State) (a : Act) (x y : TlbEnt) (p q : Nat),
    (Instr.macd e u n px py mx my z f neg clr r).wf = true → aluAll a r = true →
    let m : Syl := ⟨u, .macd n px py mx my z f neg clr⟩
    let b := bundleOf m r
    let w := if z then 2 else 4
    Starts s e b a s' → a.pv px % w = 0 → a.pv py % w = 0 → bitOf a.fl.toNat 11 = false →
    LocalAt s' e a a.ring (a.pv px) w false x p → inX e (leafPA x.entry (a.pv px)) = true →
    LocalAt (tlbTouch e x s') e a a.ring (a.pv py) w false y q → inY e (leafPA y.entry (a.pv py)) = true →
    let o : Int := if clr then 0 else accVal (a.av n)
    let v := product f z (s'.loaded_ e p w) (s'.loaded_ e q w)
    let c := a.accWr n (if neg then o - v else o + v)
    Completes (.macd e u n px py mx my z f neg clr r) s (fun t =>
      t.core e = (s'.core e).after' ((a.goes (wrWith a b m (c.1 ++ a.postWr px (sx 4 mx * (w : Int)) ++ a.postWr py (sx 4 my * (w : Int))))
        (flApply a.fl.toNat (flWith a b m c.2)) (a.past b)).counted e) (s'.linesKept e) (t.core e) ∧ BundleFrame e s t ∧ SameMem s t)

/-- R309, R310: LDRX loads a word and holds its 64-byte granule; STCX stores only while its granule is held, with Z, and lets the reservation go either way; AADDM, AORM and ASWAP read a word, leave the sum, the union or the register's value, and give what was read. -/
def Sys2Proof.Claims.Reservations : Prop :=
  ∀ (e : Nat) (r : List Syl) (s s' : State) (a : Act) (x : TlbEnt) (p : Nat), aluAll a r = true → (s'.core e).wbuf = [] → s.b Reg.ECC.FLIPCTL 31 = false →
    (∀ n pb o, (Instr.ldrx e n pb o r).wf = true → Starts s e (bundleOf ⟨3, .ldrx n pb o⟩ r) a s' → a.offs pb o % 4 = 0 → LocalAt s' e a a.ring (a.offs pb o) 4 false x p →
      isRegAddr (leafPA x.entry (a.offs pb o)) = false →
      Completes (.ldrx e n pb o r) s (fun t =>
        let b := bundleOf ⟨3, .ldrx n pb o⟩ r
        t.core e = { (s'.core e).after' ((a.goes (aluWr a b ++ [wordD n (s'.raw p 4)]) (flApply a.fl.toNat (aluFl a b)) (a.past b)).counted e) (s'.linesKept e) (t.core e) with
          resv := some (p / 64 * 64) } ∧ BundleFrame e s t ∧ SameMem s t)) ∧
    (∀ n pb o, (Instr.stcx e n pb o r).wf = true → Starts s e (bundleOf ⟨3, .stcx n pb o⟩ r) a s' → a.offs pb o % 4 = 0 → LocalAt s' e a a.ring (a.offs pb o) 4 true x p →
      isRegAddr (leafPA x.entry (a.offs pb o)) = false →
      Completes (.stcx e n pb o r) s (fun t =>
        let b := bundleOf ⟨3, .stcx n pb o⟩ r
        let held := (s.core e).resv = some (p / 64 * 64)
        let a' := (a.goes (aluWr a b) (flApply a.fl.toNat (aluFl a b ++ [⟨1, if held then 1 else 0, false, false⟩])) (a.past b)).counted e
        (t.core e).resv = none ∧ (t.core e).cur = some a' ∧ (held → Direct s s' e p (a.dv n) a' t) ∧ (¬ held → BundleFrame e s t ∧ SameMem s t))) ∧
    (∀ (i : Instr) k d pb n, i.wf = true → bundleRow i = some (e, ⟨3, .atom k d pb n⟩, r) → Starts s e (bundleOf ⟨3, .atom k d pb n⟩ r) a s' → a.pv pb % 4 = 0 →
      LocalAt s' e a a.ring (a.pv pb) 4 true x p → leafReads x.entry a.ring = true →
      Completes i s (fun t =>
        let b := bundleOf ⟨3, .atom k d pb n⟩ r
        let old := s'.raw p 4
        let new := match k with
          | .aaddm => (old + a.dv n) % 2 ^ 32
          | .aorm => Nat.lor old (a.dv n)
          | .aswap => a.dv n
        Direct s s' e p new ((a.goes (aluWr a b ++ [wordD d old]) (flApply a.fl.toNat (aluFl a b)) (a.past b)).counted e) t))

/-- R322-R325: a micro-routine whose count is 0 does nothing; one element of VMAC, BLKMOV (within a unit of 8 bytes at both ends) and BLKCRC (within a word) does its work and leaves the registers of what remains, execution staying at the bundle until nothing does. -/
def Sys2Proof.Claims.MicroRoutines : Prop :=
  ∀ (e limit : Nat) (s s' : State) (a : Act) (x y : TlbEnt) (p q : Nat), bitOf a.fl.toNat 11 = false →
    (∀ n px py dn z f neg, (Instr.vmac e n px py dn z f neg limit []).wf = true → Starts s e [⟨1, .vmac n px py dn z f neg⟩] a s' →
      (a.dv dn = 0 → 0 < limit → Completes (.vmac e n px py dn z f neg limit []) s (fun t =>
        t.core e = (s'.core e).after ((a.goes [] a.fl.toNat (a.past [⟨1, .nop⟩])).counted e) (s'.linesKept e) ∧ BundleFrame e s t ∧ SameMem s t)) ∧
      (let w := if z then 2 else 4
       a.dv dn ≠ 0 → (e < 96 ∧ limit = 1) ∨ (a.dv dn = 1 ∧ (0 < limit ∨ 96 ≤ e)) → a.pv px % w = 0 → a.pv py % w = 0 →
        LocalAt s' e a a.ring (a.pv px) w false x p → inX e (leafPA x.entry (a.pv px)) = true →
        LocalAt (tlbTouch e x s') e a a.ring (a.pv py) w false y q → inY e (leafPA y.entry (a.pv py)) = true →
        let v := product f z (s'.loaded_ e p w) (s'.loaded_ e q w)
        let c := a.accWr n (if neg then accVal (a.av n) - v else accVal (a.av n) + v)
        Completes (.vmac e n px py dn z f neg limit []) s (fun t =>
          (t.core e).cur = some ((a.goes (c.1 ++ [.p px (a.postMod px w), .p py (a.postMod py w), wordD dn (a.dv dn - 1)]) (flApply a.fl.toNat [c.2])
            (if a.dv dn = 1 then a.past [⟨1, .nop⟩] else a.pc.toNat)).counted e) ∧ BundleFrame e s t ∧ SameMem s t))) ∧
    (∀ dn ps pd, (Instr.blkmov e dn ps pd limit []).wf = true → Starts s e [⟨3, .blkmov dn ps pd⟩] a s' →
      (a.dv dn = 0 → 0 < limit → Completes (.blkmov e dn ps pd limit []) s (fun t =>
        t.core e = (s'.core e).after ((a.goes [] a.fl.toNat (a.past [⟨1, .nop⟩])).counted e) (s'.linesKept e) ∧ BundleFrame e s t ∧ SameMem s t)) ∧
      (let m := min (a.dv dn) (8 - a.pv pd % 8)
       e < 96 → limit = 1 → a.dv dn ≠ 0 → a.pv ps % 8 + m ≤ 8 → LocalAt s' e a a.ring (a.pv ps) m false x p → LocalAt (tlbTouch e x s') e a a.ring (a.pv pd) m true y q →
        leafPA x.entry (a.pv ps) + m ≤ leafPA y.entry (a.pv pd) ∨ leafPA y.entry (a.pv pd) + m ≤ leafPA x.entry (a.pv ps) → (s'.core e).wbuf = [] →
        Completes (.blkmov e dn ps pd limit []) s (fun t =>
          (t.core e).cur = some (a.goes [wordD dn (a.dv dn - m), wordP ps ((a.pv ps + m) % 2 ^ 32), wordP pd ((a.pv pd + m) % 2 ^ 32)] a.fl.toNat
            (if a.dv dn = m then a.past [⟨1, .nop⟩] else a.pc.toNat)) ∧
          (t.core e).wbuf = [⟨q, m, s'.raw p m, false, a.tenant, a.ring⟩] ∧ BundleFrame e s t ∧ SameMem s t))) ∧
    (∀ dc ps dn, (Instr.blkcrc e dc ps dn limit []).wf = true → Starts s e [⟨3, .blkcrc dc ps dn⟩] a s' →
      (a.dv dn = 0 → 0 < limit → Completes (.blkcrc e dc ps dn limit []) s (fun t =>
        t.core e = (s'.core e).after ((a.goes [] a.fl.toNat (a.past [⟨1, .nop⟩])).counted e) (s'.linesKept e) ∧ BundleFrame e s t ∧ SameMem s t)) ∧
      (let m := min (a.dv dn) 4
       a.dv dn ≠ 0 → (e < 96 ∧ limit = 1) ∨ (a.dv dn ≤ 4 ∧ (0 < limit ∨ 96 ≤ e)) → a.pv ps % 4 + m ≤ 4 → LocalAt s' e a a.ring (a.pv ps) m false x p →
        let v := s'.loaded_ e p m
        let c := (List.range m).foldl (fun c i => crcBits a.crcp.toNat 8 (Nat.xor c (v / 256 ^ i % 256))) (a.dv dc)
        Completes (.blkcrc e dc ps dn limit []) s (fun t =>
          (t.core e).cur = some ((a.goes [wordD dc c, wordP ps ((a.pv ps + m) % 2 ^ 32), wordD dn (a.dv dn - m)] a.fl.toNat
            (if a.dv dn = m then a.past [⟨1, .nop⟩] else a.pc.toNat)).counted e) ∧ BundleFrame e s t ∧ SameMem s t)))

/-- R311, R336, R338: FENCE completes once nothing is buffered; a buffered store reaches memory at STORE_PERFORM or at a FENCE; IFLUSH lets the line of its address go. -/
def Sys2Proof.Claims.FencesAndBuffer : Prop :=
  (∀ (e : Nat) (r : List Syl) (s s' : State) (a : Act), (Instr.fence e r).wf = true → aluAll a r = true → Starts s e (bundleOf ⟨3, .fence⟩ r) a s' → (s'.core e).wbuf = [] →
    Completes (.fence e r) s (fun t =>
      let b := bundleOf ⟨3, .fence⟩ r
      t.core e = (s'.core e).after ((a.goes (aluWr a b) (flApply a.fl.toNat (aluFl a b)) (a.past b)).counted e) (s'.linesKept e) ∧ BundleFrame e s t ∧ SameMem s t)) ∧
  (∀ (e n pb o : Nat) (r : List Syl) (s s' : State) (a : Act) (x : TlbEnt), (Instr.iflush e n pb o r).wf = true → aluAll a r = true →
    Starts s e (bundleOf ⟨3, .iflush n pb o⟩ r) a s' → (s'.core e).wbuf = [] → tlbFind (s'.core e).tlb a.tenant (a.offs pb o) = some x →
    Completes (.iflush e n pb o r) s (fun t =>
      let b := bundleOf ⟨3, .iflush n pb o⟩ r
      (t.core e).cur = some ((a.goes (aluWr a b) (flApply a.fl.toNat (aluFl a b)) (a.past b)).counted e) ∧
      (∀ l ∈ (t.core e).lines, l.1 ≠ leafPA x.entry (a.offs pb o) / 64 * 64 ∧ l ∈ (s'.core e).lines) ∧ BundleFrame e s t ∧ SameMem s t)) ∧
  (∀ (e : Nat) (w : WbEnt) (l : List WbEnt) (k : MemKind) (b : Nat) (s : State), e < 96 → s.awake = true → (s.core e).wbuf = w :: l → w.dev = false →
    s.memAt w.pa = some (k, e, b) → k = .engX ∨ k = .engY → w.pa + w.size ≤ b + 0x10000 → s.memOff w.pa = false → s.memHeld w.pa = false →
    (∀ q, q < w.pa + w.size → w.pa < q + 8 → s.synd q = 0) → s.b Reg.ECC.FLIPCTL 31 = false → s.host.bw = [] →
    Completes (.storePerform e) s (fun t =>
      (t.core e).wbuf = l ∧ t.raw w.pa w.size = w.value % 2 ^ (8 * w.size) ∧ (∀ q, q < w.pa ∨ w.pa + w.size ≤ q → t.byte q = s.byte q) ∧ (∀ q, t.synd q = s.synd q) ∧ SameRegs s t [] ∧
      t.now = s.now ∧ ∀ j, t.core j = { s.core j with wbuf := (t.core j).wbuf, resv := (t.core j).resv }))

/-- R333, R338, R372: the data of a load beyond the core's memory, the instruction line or the translation that a bundle waits for arrives, and the bundle completes. -/
def Sys2Proof.Claims.WaitedFor : Prop :=
  (∀ (e n pb v : Nat) (k : LoadOp) (ad : Addr) (pa : Nat) (s s' : State) (a : Act) (x : TlbEnt),
    let b : List Syl := [⟨3, .load k n pb ad⟩]
    let z : ExtAcc := ⟨.read, pa, k.size, a.ring, a.tenant, 0, false⟩
    let s0 := s.setCore e { s.core e with stall := none }
    e < 96 → s.awake = true → (s.core e).cur = some a → (s.core e).stall = some ⟨.bundle b 0, .data z, [], none⟩ → (s.core e).wbuf = [] → (s.core e).stepReq = false → Legal a b →
    (∃ i, s.memAt pa = some (.plinth, i, pa - (pa - 0x80000000) % 0x200000)) → pa % k.size = 0 → s.memHeld pa = false → s.memOff pa = false →
    (∀ q, q < pa + k.size → pa < q + 8 → s.synd q = 0) → s.host.bw = [] → s.raw pa k.size = v →
    Fetches s0 e b a [⟨some v, false⟩] s' → (a.ea pb ad).1 % k.size = 0 → tlbFind (s'.core e).tlb a.tenant (a.ea pb ad).1 = some x → leafReads x.entry a.ring = true →
    entDev x.entry = false → leafPA x.entry (a.ea pb ad).1 = pa →
    Completes (.loadDataReturn e) s (fun t =>
      t.core e = (s'.core e).after' (a.goes (loadWr k n v ++ a.postWr pb (a.ea pb ad).2) a.fl.toNat (a.past b)) (s'.linesKept e) (t.core e) ∧ BundleFrame e s t ∧ SameMem s t)) ∧
  (∀ (e line : Nat) (s s' : State) (a : Act),
    let b : List Syl := [⟨0, .nop⟩]
    let c := s.f (Reg.ENG.CFG e) 1 0
    let sets := if c = 1 then 32 else if c = 2 then 64 else 128
    let lines := (line, a.ctx, false) :: ((s.core e).lines.filter (fun l => l.1 / 64 % sets == line / 64 % sets)).take 3 ++ (s.core e).lines.filter (fun l => l.1 / 64 % sets != line / 64 % sets)
    e < 96 → s.awake = true → (s.core e).cur = some a → (s.core e).stall = some ⟨.bundle b 0, .fill line, [], none⟩ → (s.core e).stepReq = false →
    (∃ i, s.memAt line = some (.plinth, i, line - (line - 0x80000000) % 0x200000)) → line % 64 = 0 → s.memHeld line = false → s.memOff line = false →
    (∀ q, q < line + 64 → line < q + 8 → s.synd q = 0) → s.host.bw = [] →
    Fetches (s.setCore e { s.core e with stall := none, lines := lines }) e b a [] s' →
    Completes (.icacheFill e) s (fun t =>
      t.core e = (s'.core e).after (a.goes [] a.fl.toNat (a.past b)) (s'.linesKept e) ∧ BundleFrame e s t ∧ SameMem s t)) ∧
  (∀ (e va ent at_ : Nat) (l1 : Bool) (s s' : State) (a : Act),
    let b : List Syl := [⟨0, .nop⟩]
    let s1 := tlbFill e a.tenant va ent at_ l1 s
    e < 96 → s.awake = true → (s.core e).cur = some a → (s.core e).stall = some ⟨.bundle b 0, .walk a.tenant va, [], none⟩ → (s.core e).stepReq = false →
    walk ⟨a.tenant, e + 1, 3⟩ a.tenant va s = (.leaf ent at_ l1, s) → entA ent = true → ent < 2 ^ 56 → at_ < 2 ^ 40 →
    Fetches (s1.setCore e { s1.core e with stall := none }) e b a [] s' →
    Completes (.tableWalk e) s (fun t =>
      t.core e = (s'.core e).after (a.goes [] a.fl.toNat (a.past b)) (s'.linesKept e) ∧ BundleFrame e s t ∧ SameMem s t))

/-- R344-R346, R357, R365, R461: the preferred slot is entered, its counter one lower, at its ENTRY with ARG in D0; a third fault's reset ends; a tenant context that no slot uses takes its new value, and its instruction lines go. -/
def Obligations.SlotsAndContexts : Prop :=
  (∀ (e n : Nat) (s : State), e < 96 → n < 64 → s.awake = true → s.coreReady e = true → (s.core e).cur = none → (s.core e).stall = none → s.slotReady e n = true →
    (∀ j, j < 64 → j ≠ n → s.slotF e j 27 24 = 0) → s.arrivedAt e n ≤ s.now → (s.core e).changed ≤ s.now →
    Completes (.eventEntry e) s (fun t => ∃ a, (t.core e).cur = some a ∧ a.slot = n ∧ a.level = s.slotF e n 23 20 ∧ a.pc = s.reg (Reg.ENG.SCTL e n + 4) ∧
      a.dv 0 = (s.reg (Reg.ENG.SCTL e n + 8)).toNat ∧ a.dv 1 = s.slotF e n 27 24 - 1 + 16 * s.slotF e n 29 29 ∧ a.pv 15 = (s.reg (Reg.ENG.SCTL e n + 12)).toNat ∧ a.ring = s.slotF e n 19 18 ∧
      a.tenant = s.slotTenant e n ∧ a.fl = 0#32 ∧ t.slotF e n 27 24 = s.slotF e n 27 24 - 1 ∧ (t.core e).resv = none ∧ (t.core e).saved = (s.core e).saved ∧ SameMem s t ∧
      t.now = max s.now (max (s.arrivedAt e n) (s.core e).changed + 12))) ∧
  (∀ (e u : Nat) (s : State), e < 96 → s.awake = true → (s.core e).rst = some u → (∀ n, n < 64 → s.slotF e n 27 24 = 0) → (s.core e).saved = [] →
    Completes (.engineResetDone e) s (fun t => (t.core e).rst = none ∧ (t.core e).cur = none ∧ t.now = max s.now u ∧ SameRegs s t [] ∧ SameMem s t ∧ ∀ j, j ≠ e → t.core j = s.core j)) ∧
  (∀ (rq : Rq) (e x v : Nat) (s : State), (Instr.contextWrite rq e x v).wf = true → s.writable rq (Reg.ENG.CTXCFG e x) = true → s.ctxUsed e x = false →
    Completes (.contextWrite rq e x v) s (fun t =>
      t.reg (Reg.ENG.CTXCFG e x) = BitVec.ofNat 32 (Nat.land v 0x800001FF) ∧ SameRegs s t [Reg.ENG.CTXCFG e x] ∧ SameMem s t ∧
      (t.reg (Reg.ENG.CTXCFG e x) ≠ s.reg (Reg.ENG.CTXCFG e x) → ∀ l ∈ (t.core e).lines, l.2.1 ≠ x))) ∧
  (∀ (rq : Rq) (e x v : Nat) (s : State), (Instr.contextWrite rq e x v).wf = true → s.writable rq (Reg.ENG.CTXCFG e x) = true → s.ctxUsed e x = true →
    Completes (.contextWrite rq e x v) s (fun t => t.reg (Reg.ENG.CTXCFG e x) = s.reg (Reg.ENG.CTXCFG e x) ∧ t.b (Reg.ENG.page e + 0xC) 31 = true ∧ SameMem s t))

/-- Loads, stores and what they do to their pointers (R306-R308, R336). -/
def Obligations.MemoryOperations : Prop := Claims.Loads ∧ Claims.Stores ∧ Claims.CircularPointers

/-- MACD, VMAC, BLKMOV and BLKCRC (R309-R324). -/
def Obligations.DualMacAndRoutines : Prop := Claims.DualMac ∧ Claims.MicroRoutines

/-- Reservations, fences, the write buffer and what an activation waits for (R310, R336-R341, R351). -/
def Obligations.Synchronisation : Prop := Claims.Reservations ∧ Claims.FencesAndBuffer ∧ Claims.WaitedFor

/-! ## Translation and memory (chapters 12 and 13) -/

/-- R385, R388: an invalidation takes every covered entry out of every TLB and is busy until 48 CCLK later and until what went through them is performed; R367, R387: ROOT takes a table in plinth SRAM or LPDDR4, and a change invalidates the tenant. -/
def Sys2Proof.Claims.Invalidation : Prop :=
  (∀ (i : Instr) (rq : Rq) (op tn : Nat) (s : State), (i = .invalidateAddress rq tn ∧ op = 0) ∨ (i = .invalidateTenant rq tn ∧ op = 1) ∨ (i = .invalidateAll rq ∧ op = 2 ∧ tn = 0) →
    i.wf = true → s.writable rq Reg.MMU.INVCMD = true → s.invs = [] →
    let va := (s.reg Reg.MMU.INVVA).toNat
    Completes i s (fun t =>
      (∀ e, t.core e = { s.core e with tlb := (s.core e).tlb.filter (fun x => !(op == 2 || (x.tenant == tn && (op == 1 || x.page == va / 2 ^ (x.size + 10))))) }) ∧
      t.b Reg.MMU.INVSTAT 31 = true ∧ t.invs.length = 1 ∧ SameRegs s t [Reg.MMU.INVCMD, Reg.MMU.INVSTAT] ∧ SameMem s t)) ∧
  (∀ (op tn va u : Nat) (cs : List Nat) (s : State), s.awake = true → s.invs = [⟨op, tn, va, some u, cs⟩] → (∀ e ∈ cs, (s.core e).wbuf = []) → s.held = [] →
    Completes .invalidateDone s (fun t =>
      t.invs = [] ∧ t.b Reg.MMU.INVSTAT 31 = false ∧ t.f Reg.MMU.INVSTAT 15 0 = (s.f Reg.MMU.INVSTAT 15 0 + 1) % 65536 ∧ t.now = max s.now (u + 48) ∧
      SameRegs s t [Reg.MMU.INVSTAT] ∧ SameMem s t ∧ t.cores = s.cores)) ∧
  (∀ (rq : Rq) (tn v : Nat) (s : State), (Instr.rootWrite rq tn v).wf = true → s.writable rq (Reg.MMU.ROOT tn) = true → s.invs = [] →
    let base := v % 2 ^ 25 * 2 ^ 15
    (s.tableAt base = true → s.tableAt (base + 0x7FFF) = true →
      Completes (.rootWrite rq tn v) s (fun t =>
        t.reg (Reg.MMU.ROOT tn) = BitVec.ofNat 32 (Nat.land v 0x81FFFFFF) ∧ SameRegs s t [Reg.MMU.ROOT tn, Reg.MMU.INVSTAT] ∧ SameMem s t ∧
        (t.reg (Reg.MMU.ROOT tn) = s.reg (Reg.MMU.ROOT tn) → t.cores = s.cores) ∧
        (t.reg (Reg.MMU.ROOT tn) ≠ s.reg (Reg.MMU.ROOT tn) → ∀ e, ∀ x ∈ (t.core e).tlb, x.tenant ≠ tn ∧ x ∈ (s.core e).tlb))) ∧
    (s.tableAt base = false → Completes (.rootWrite rq tn v) s (fun t =>
      t.reg (Reg.MMU.ROOT tn) = s.reg (Reg.MMU.ROOT tn) ∧ t.b (Reg.MMU.page + 0xC) 31 = true ∧ (s.b (Reg.MMU.page + 0x18) 31 = false → t.f (Reg.MMU.page + 0x18) 30 24 = 0x70) ∧
      t.cores = s.cores ∧ SameMem s t)))

/-- R368-R373, R376, R377: what a walk finds: no table, an invalid or malformed entry, or a leaf of either level, whose page the physical address lies in. -/
def Sys2Proof.Claims.Walks : Prop :=
  (∀ (rq : MemRq) (t va : Nat) (s : State), s.b (Reg.MMU.ROOT t) 31 = false → walk rq t va s = (.fault 1 false, s)) ∧
  (∀ (rq : MemRq) (t va b d i j : Nat) (s : State), s.b (Reg.MMU.ROOT t) 31 = true →
    let a := s.f (Reg.MMU.ROOT t) 24 0 * 2 ^ 15 + va / 2 ^ 20 % 4096 * 8
    let e := s.raw a 8
    s.memAt a = some (.plinth, i, b) → s.synd a = 0 →
    (e % 2 = 0 → walk rq t va s = (.fault 2 false, s)) ∧
    (e % 2 = 1 → entLeaf e = true → walk rq t va s = (if wellFormed e true then (.leaf e a true, s) else (.fault 3 false, s))) ∧
    (e % 2 = 1 → entLeaf e = false → wellFormed e true = true →
      let c := entPA e / 8192 * 8192 + va / 2 ^ 10 % 1024 * 8
      let g := s.raw c 8
      s.tableAt (entPA e / 8192 * 8192) = true → s.memAt c = some (.plinth, j, d) → s.synd c = 0 →
      walk rq t va s = (if g % 2 = 0 then (.fault 2 false, s) else if wellFormed g false then (.leaf g c false, s) else (.fault 3 false, s)))) ∧
  (∀ (e va : Nat) (l1 : Bool), wellFormed e l1 = true → entLeaf e = true →
    leafPA e va = entPA e + va % 2 ^ (entSize e + 10) ∧ entPA e % 2 ^ (entSize e + 10) = 0 ∧ (l1 = true → 10 ≤ entSize e ∧ entSize e ≤ 22) ∧ (l1 = false → entSize e ≤ 9)) ∧
  (∀ e r : Nat, (permRead r e = 0 ↔ entR e = true ∧ r ≤ entRring e) ∧ (permWrite r e = 0 ↔ entW e = true ∧ r ≤ entWring e) ∧
    (permRun r e = 0 ↔ entDev e = false ∧ entX e = true ∧ r ≤ entRring e))

/-- R391, R392: the code corrects every single error of a word, and names every double error and every single error of an address bit as uncorrectable. -/
def Sys2Proof.Claims.ErrorClasses : Prop :=
  ∀ w, w = 4 ∨ w = 8 →
    let cols := (List.range (8 * w)).map dataCol ++ (List.range 8).map (fun i => 2 ^ i)
    eccClass w 0 = .clean ∧ (∀ c ∈ cols, eccClass w c = .ce) ∧ (∀ i < 8 * w, dataBitOf w (dataCol i) = some i) ∧
    (∀ c ∈ cols, ∀ d ∈ cols, c ≠ d → eccClass w (Nat.xor c d) = .double) ∧ cols.Nodup ∧ (∀ n c, addrCol w n = some c → eccClass w c = .address)

/-- R391-R397: reading a word corrects a single error and brings nothing from an uncorrectable one, changes no memory, and leaves a record while the log has room; writing a whole word stores it with its check bits, writing a part of an uncorrectable word stores nothing. -/
def Sys2Proof.Claims.WordAccess : Prop :=
  ∀ (rq : MemRq) (k : MemKind) (i a : Nat) (s : State), k ≠ .rom → s.b Reg.ECC.FLIPCTL 31 = false →
    let w := wordBytes k
    (s.synd a = 0 → wordRead rq k i a s = (some (s.raw a w), s)) ∧
    (∀ j, j < 8 * w → s.synd a = dataCol j → (wordRead rq k i a s).1 = some (Nat.xor (s.raw a w) (2 ^ j))) ∧
    (∀ j, j < 8 → s.synd a = 2 ^ j → (wordRead rq k i a s).1 = some (s.raw a w)) ∧
    (eccClass w (s.synd a) ≠ .clean → eccClass w (s.synd a) ≠ .ce → (wordRead rq k i a s).1 = none) ∧
    SameMem s (wordRead rq k i a s).2 ∧
    (eccClass w (s.synd a) ≠ .clean → s.rasp.log.length < 32 → s.rasp.lastCE = none → (wordRead rq k i a s).2.rasp.log.length = s.rasp.log.length + 1) ∧
    (∀ v, v < 2 ^ (8 * w) →
      let r := wordWrite rq k i a 0 w v s
      r.1 = true ∧ r.2.raw a w = v ∧ r.2.synd a = 0 ∧ (∀ q, q < a ∨ a + w ≤ q → r.2.byte q = s.byte q) ∧ ∀ q, q ≠ a → r.2.synd q = s.synd q) ∧
    (∀ o n v, 0 < n → o + n ≤ w → n < w →
      let r := wordWrite rq k i a o n v s
      (s.synd a = 0 → r.1 = true ∧ r.2.raw (a + o) n = v % 2 ^ (8 * n) ∧ r.2.synd a = 0 ∧ ∀ q, q < a + o ∨ a + o + n ≤ q → r.2.byte q = s.byte q) ∧
      (eccClass w (s.synd a) ≠ .clean → eccClass w (s.synd a) ≠ .ce → r.1 = false ∧ SameMem s r.2))

/-- R397, R411: a read of ECC.LOG2 gives the head record's third word and takes the record from the log; of an empty log it gives 0 and captures code 0x04. -/
def Sys2Proof.Claims.ErrorLog : Prop :=
  ∀ (rq : Rq) (s : State), rq.ok = true → rq.dbg = false → s.readable rq Reg.ECC.LOG2 = true →
    (∀ x l, s.rasp.log = x :: l → s.rasp.pushAt ≠ some s.now →
      Completes (.eccLogPop rq) s (fun t => t.answer = .ok ∧ t.data = BitVec.ofNat 64 x.w2.toNat ∧ t.rasp.log = l ∧ (l.length < 64 → t.f Reg.ECC.LOGLVL 5 0 = l.length) ∧ SameRegs s t [Reg.ECC.LOGLVL] ∧ SameBlocks s t)) ∧
    (s.rasp.log = [] → s.b (Reg.ECC.page + 0x18) 31 = false →
      Completes (.eccLogPop rq) s (fun t => t.data = 0#64 ∧ t.f (Reg.ECC.page + 0x18) 30 24 = 4 ∧ SameRegs s t [Reg.ECC.page + 0xC, Reg.ECC.page + 0x18] ∧ SameBlocks s t))

/-- R400-R403: the walkers: a burst scrubs its 64 words and the next follows after SINTV; a sweep of a bank takes 4 CCLK a word and scrubs all of it; a line of filled LPDDR4 is read after another DINTV; a scrub rewrites a correctable word and leaves the others. -/
def Sys2Proof.Claims.Scrubbing : Prop :=
  (∀ s : State, s.awake = true → s.raspOn = true → s.b Reg.RASP.CTL 0 = true → s.rasp.burst < 122880 →
    Completes .scrubBurst s (fun t =>
      t.rasp.burst = (s.rasp.burst + 1) % 122880 ∧ t.now = max s.now s.rasp.burstAt ∧ t.rasp.burstAt = t.now + (s.reg Reg.RASP.SINTV).toNat ∧
      SameMem (scrubBank 4 (burstBank s.rasp.burst).1 (64 * (burstBank s.rasp.burst).2) (64 * (burstBank s.rasp.burst).2 + 64) s) t)) ∧
  (∀ (b : Bank) (l : List Bank) (s : State), s.awake = true → s.rasp.sweeps = b :: l → s.rasp.sweepEnd = none → s.arm.tasks = [] →
    Completes .sweepStart s (fun t => t.rasp = { s.rasp with sweepEnd := some (s.now + 4 * bankWords b.kind) } ∧ t.now = s.now ∧ SameMem s t)) ∧
  (∀ (b : Bank) (l : List Bank) (u : Nat) (s : State), s.awake = true → s.rasp.sweeps = b :: l → s.rasp.sweepEnd = some u → s.arm.tasks = [] →
    Completes .sweepEnd s (fun t => t.rasp.sweeps = l ∧ t.rasp.sweepEnd = none ∧ t.now = max s.now u ∧ SameMem (scrubBank 5 b 0 (bankWords b.kind) s) t)) ∧
  (∀ (n : Nat) (s : State), s.awake = true → s.raspOn = true → s.b Reg.RASP.CTL 1 = true → s.dramOn = true → s.dintv ≠ 0 → s.filledLine s.rasp.line = some n → s.synds = [] →
    Completes .dramScrubLine s (fun t => t.now = max s.now s.rasp.lineAt ∧ t.rasp.lineAt = t.now + s.dintv ∧
      t.rasp.line = (if (s.filledLine (n + 1)).isSome then n + 1 else 0) ∧ SameRegs s t [Reg.RASP.DPASS] ∧ SameMem s t)) ∧
  (∀ (kind lo hi a : Nat) (b : Bank) (s : State), b.kind ≠ .rom → a ∈ badWords b lo hi s → s.synds = [(a, s.synd a)] →
    let t := scrubBank kind b lo hi s
    let w := wordBytes b.kind
    (∀ j, j < 8 * w → s.synd a = dataCol j → t.synd a = 0 ∧ t.raw a w = Nat.xor (s.raw a w) (2 ^ j) ∧ ∀ q, q < a ∨ a + w ≤ q → t.byte q = s.byte q) ∧
    (eccClass w (s.synd a) ≠ .ce → SameMem s t)) ∧
  (∀ (kind lo hi : Nat) (b : Bank) (s : State), badWords b lo hi s = [] → scrubBank kind b lo hi s = s)

/-- R404-R406, R398: the SRAM fill makes every on-chip word 0, but for words the array does not keep; SDONE comes 240,128 CCLK after the release; LPDDR4 is trained when its page is enabled, then filled region after region. -/
def Sys2Proof.Claims.Fills : Prop :=
  (∀ (u : Nat) (s : State), s.awake = true → s.rasp.fillAt = some u → s.rasp.filled = false →
    Completes (.sramFill []) s (fun t => t.rasp.filled = true ∧ t.now = max s.now u ∧ SameRegs s t [] ∧
      ∀ q, (0x60000000 ≤ q ∧ q < 0xD0180000 → t.byte q = 0#8 ∧ t.synd q = 0) ∧ (¬ (0x60000000 ≤ q ∧ q < 0xD0180000) → t.byte q = s.byte q ∧ t.synd q = s.synd q))) ∧
  (∀ (a y u i b : Nat) (s : State), s.awake = true → s.rasp.fillAt = some u → s.rasp.filled = false → y < 256 → s.memAt a = some (.plinth, i, b) →
    Completes (.sramFill [(a, y)]) s (fun t => t.synd (a / 8 * 8) = y ∧ ∀ q, 0x60000000 ≤ q ∧ q < 0xD0180000 → t.byte q = 0#8)) ∧
  (∀ (m u : Nat) (s : State), m < 4 → s.awake = true → s.rasp.fillAt = some u → s.rasp.filled = true → s.b Reg.RASP.FILLSTAT 31 = false → s.synds = [] →
    Completes (.fillDone m) s (fun t => t.b Reg.RASP.FILLSTAT 31 = true ∧ t.b Reg.RASP.FILLSTAT 30 = s.b Reg.RASP.FILLSTAT 30 ∧ t.now = max s.now (u + 240128) ∧
      t.f Reg.BOOT.STATUS 25 24 = m ∧ t.rasp.burstAt = t.now + (s.reg Reg.RASP.SINTV).toNat ∧ SameMem s t)) ∧
  (∀ (rq : Rq) (s : State), rq.ok = true → s.writable rq (Reg.DRAM.page + 8) = true →
    Completes (.dramEnable rq) s (fun t => t.b (Reg.DRAM.page + 8) 0 = true ∧ t.f (Reg.DRAM.page + 8) 5 4 = s.f (Reg.DRAM.page + 8) 5 4 ∧ SameRegs s t [Reg.DRAM.page + 8] ∧ SameBlocks s t)) ∧
  (∀ (ok : Bool) (s : State), s.awake = true → s.runs Reg.DRAM.page = true → s.f Reg.DRAM.CFG 2 0 ≠ 0 → s.b Reg.DRAM.STATUS 31 = false → s.b Reg.DRAM.STATUS 29 = false →
    Completes (.trainingDone ok) s (fun t => SameMem s t ∧ SameRegs s t [Reg.DRAM.STATUS, Reg.RASP.FILLSTAT] ∧
      (ok = true → t.b Reg.DRAM.STATUS 31 = true ∧ t.b Reg.RASP.FILLSTAT 28 = true ∧ t.rasp.cur = some (0, s.now + 65536) ∧ t.rasp.nextRegion = 0) ∧
      (ok = false → t.b Reg.DRAM.STATUS 29 = true ∧ t.b Reg.DRAM.STATUS 31 = false ∧ t.rasp = s.rasp))) ∧
  (∀ (k u : Nat) (s : State), s.awake = true → s.rasp.cur = some (k, u) → s.rasp.nextRegion = k → s.rasp.filledOut = [] → s.rasp.waited = [] → s.rasp.susp = none → s.held = [] →
    Completes .dramFillRegion s (fun t =>
      (∀ q, (0x1000000000 + 917504 * k ≤ q ∧ q < 0x1000000000 + 917504 * (k + 1) → t.byte q = 0#8 ∧ t.synd q = 0) ∧
        (¬ (0x1000000000 + 917504 * k ≤ q ∧ q < 0x1000000000 + 917504 * (k + 1)) → t.byte q = s.byte q ∧ t.synd q = s.synd q)) ∧
      t.now = max s.now u ∧ t.reg Reg.RASP.DFILL = s.reg Reg.RASP.DFILL + 1#32 ∧ t.rasp.nextRegion = k + 1 ∧
      (k + 1 < s.dramRegions → t.rasp.cur = some (k + 1, t.now + 65536)) ∧
      (s.dramRegions ≤ k + 1 → t.rasp.cur = none ∧ t.b Reg.DRAM.STATUS 30 = true ∧ t.b Reg.RASP.FILLSTAT 29 = true ∧ t.b Reg.RASP.FILLSTAT 28 = false)))

/-- R407, R408: a clear of a range within one memory takes its time by the memory's kind and leaves zeros, CLRCTL.BUSY until then, and PAGE_STAT.CLRDONE at its end; another range is refused with code 0x75. -/
def Sys2Proof.Claims.Clears : Prop :=
  (∀ (rq : Rq) (k : MemKind) (s : State), rq.ok = true → s.writable rq Reg.RASP.CLRCTL = true → s.rasp.clears = [] → s.rasp.soft = none →
    let base := s.f Reg.RASP.CLRBASE 29 0 * 1024
    let len := s.f Reg.RASP.CLRLEN 23 0 * 1024
    (s.clearKind base len = some k → Completes (.raspClear rq) s (fun t =>
      t.rasp.soft = some ⟨base, len, some (s.now + clearTime k len)⟩ ∧ t.b Reg.RASP.CLRCTL 31 = true ∧ SameRegs s t [Reg.RASP.CLRCTL] ∧ SameBlocks s t)) ∧
    (s.clearKind base len = none → s.b (Reg.RASP.page + 0x18) 31 = false → Completes (.raspClear rq) s (fun t =>
      t.rasp = s.rasp ∧ t.f (Reg.RASP.page + 0x18) 30 24 = 0x75 ∧ SameRegs s t [Reg.RASP.page + 0xC, Reg.RASP.page + 0x18] ∧ SameBlocks s t))) ∧
  (∀ (b n u : Nat) (s : State), s.awake = true → s.rasp.clears = [] → s.rasp.soft = some ⟨b, n, some u⟩ → s.held = [] →
    Completes .clearDone s (fun t =>
      (∀ q, (b ≤ q ∧ q < b + n → t.byte q = 0#8 ∧ t.synd q = 0) ∧ (¬ (b ≤ q ∧ q < b + n) → t.byte q = s.byte q ∧ t.synd q = s.synd q)) ∧
      t.now = max s.now u ∧ t.rasp.soft = none ∧ t.b Reg.RASP.CLRCTL 31 = false ∧ t.b (Reg.RASP.page + 0xC) 0 = true ∧ SameRegs s t [Reg.RASP.CLRCTL, Reg.RASP.page + 0xC]))

/-! ## Tenants (chapter 15) -/

/-- R449, R451: clearing a tenant's VALID waits for a scan of 2,048 CCLK and happens only where nothing names the tenant, else code 0x7A; CHECK.GO scans and reports; R458: DWEND ends an episode once no cause is active. -/
def Obligations.TenantScans : Prop :=
  (∀ (rq : Rq) (tn : Nat) (s : State), (Instr.tenantRemove rq tn).wf = true → s.writable rq (Reg.TENANT.TCFG tn) = true → tn ≠ 0 → s.b (Reg.TENANT.TCFG tn) 31 = true →
    Completes (.tenantRemove rq tn) s (fun t => t.answer = .held ∧ (∃ v : Word, v.toNat < 2 ^ 31 ∧ t.scans = s.scans ++ [⟨tn, s.now + 2048, some v⟩]) ∧
      t.reg (Reg.TENANT.TCFG tn) = s.reg (Reg.TENANT.TCFG tn) ∧ t.b Reg.TENANT.CHECKRES 31 = true ∧ SameRegs s t [Reg.TENANT.CHECKRES] ∧ SameBlocks s t)) ∧
  (∀ (rq : Rq) (tn : Nat) (s : State), (Instr.tenantScan rq tn).wf = true → s.writable rq Reg.TENANT.CHECK = true →
    Completes (.tenantScan rq tn) s (fun t => t.answer = .ok ∧ t.scans = s.scans ++ [⟨tn, s.now + 2048, none⟩] ∧ t.b Reg.TENANT.CHECKRES 31 = true ∧
      SameRegs s t [Reg.TENANT.CHECK, Reg.TENANT.CHECKRES] ∧ SameBlocks s t)) ∧
  (∀ (c : Scan) (s : State), s.awake = true → s.scans = [c] → s.held = [] → c.tenant < 512 →
    Completes .scanDone s (fun t => t.scans = [] ∧ t.now = max s.now c.due ∧ t.reg Reg.TENANT.CHECKRES = BitVec.ofNat 32 (s.scanFound c.tenant) ∧ SameMem s t ∧
      (c.remove = none → SameRegs s t [Reg.TENANT.CHECKRES]) ∧
      (∀ v, c.remove = some v → s.scanFound c.tenant = 0 → t.reg (Reg.TENANT.TCFG c.tenant) = v ∧ SameRegs s t [Reg.TENANT.CHECKRES, Reg.TENANT.TCFG c.tenant]) ∧
      (∀ v, c.remove = some v → s.scanFound c.tenant ≠ 0 → t.reg (Reg.TENANT.TCFG c.tenant) = s.reg (Reg.TENANT.TCFG c.tenant) ∧ t.b (Reg.TENANT.page + 0xC) 31 = true ∧
        (s.b (Reg.TENANT.page + 0x18) 31 = false → t.f (Reg.TENANT.page + 0x18) 30 24 = 0x7A)))) ∧
  (∀ (tn : Nat) (s : State), tn < 512 → bitOf (s.scanFound tn) 5 = s.b (Reg.MMU.ROOT tn) 31 ∧ bitOf (s.scanFound tn) 4 = s.arm.tasks.any (fun p => p.2.tenant == tn) ∧ s.scanFound tn < 2048) ∧
  (∀ (rq : Rq) (s : State), rq.ok = true → rq.ring = 0 → s.writable rq Reg.DEVICE.DWEND = true → s.dwPend = none →
    (s.f Reg.DEVICE.DWSTAT 4 0 = 0 → Completes (.dwEnd rq) s (fun t => t.b Reg.DEVICE.DWSTAT 31 = false ∧ t.f Reg.DEVICE.DWREC0 15 0 = (s.f Reg.DEVICE.DWREC0 15 0 + 1) % 65536 ∧
      t.flight = s.flight ++ [⟨0x7C1, s.now + 5, .all, none⟩] ∧ SameRegs s t [Reg.DEVICE.DWSTAT, Reg.DEVICE.DWREC0] ∧ SameBlocks s t)) ∧
    (s.f Reg.DEVICE.DWSTAT 4 0 ≠ 0 → s.b (Reg.DEVICE.page + 0x18) 31 = false → Completes (.dwEnd rq) s (fun t => t.f (Reg.DEVICE.page + 0x18) 30 24 = 0x7B ∧
      SameRegs s t [Reg.DEVICE.page + 0xC, Reg.DEVICE.page + 0x18] ∧ SameBlocks s t)))

/-! ## Mailboxes, doorbells and locks (chapter 16) -/

/-- R470-R477: a sender stages the low word and pushes with the high one, four messages deep, stamped where CFG says; a push of a full channel is dropped and counted; a receiver pops the oldest; ring 0 configures. -/
def Sys2Proof.Claims.Mailboxes : Prop :=
  (∀ (rq : Rq) (m v : Nat) (s : State), (Instr.mboxStage rq m v).wf = true → s.writable rq (mboxReg m 0) = true →
    (s.mayPush rq m = true → Completes (.mboxStage rq m v) s (fun t => (t.mb m).stage.lookup rq.agent = some (BitVec.ofNat 32 v) ∧ (t.mb m).q = (s.mb m).q ∧
      (∀ g, g ≠ rq.agent → (t.mb m).stage.lookup g = (s.mb m).stage.lookup g) ∧ (∀ k, k ≠ m → t.mb k = s.mb k) ∧ SameRegs s t [] ∧ SameBlocks s t)) ∧
    (s.mayPush rq m = false → Completes (.mboxStage rq m v) s (fun t => t.answer = .buserr ∧ t.mbox = s.mbox ∧ SameRegs s t [] ∧ SameBlocks s t))) ∧
  (∀ (rq : Rq) (m v : Nat) (s : State), (Instr.mboxPush rq m v).wf = true → s.writable rq (mboxReg m 4) = true → s.mayPush rq m = true →
    ((s.mb m).q.length < 4 → s.b (mboxReg m 0xC) 8 = false → Completes (.mboxPush rq m v) s (fun t =>
      (t.mb m).q = (s.mb m).q ++ [BitVec.ofNat 64 ((if s.b (mboxReg m 8) 30 then rq.agent * 2 ^ 24 + rq.ring * 2 ^ 22 + v % 2 ^ 22 else v) * 2 ^ 32 + (((s.mb m).stage.lookup rq.agent).getD 0#32).toNat)] ∧
      (∀ k, k ≠ m → t.mb k = s.mb k) ∧ SameRegs s t [] ∧ SameBlocks s t)) ∧
    (4 ≤ (s.mb m).q.length → Completes (.mboxPush rq m v) s (fun t => t.mbox = s.mbox ∧ t.b (mboxReg m 0x10) 30 = true ∧
      (s.log.inc = [] → (t.reg (mboxReg m 0x14)).toNat = min (2 ^ 32 - 1) ((s.reg (mboxReg m 0x14)).toNat + 1)) ∧
      SameRegs s t [mboxReg m 0x10, mboxReg m 0x14, Reg.MBOX.page (m / 32) + 0xC, Reg.MBOX.page (m / 32) + 0x18] ∧ SameBlocks s t))) ∧
  (∀ (rq : Rq) (m : Nat) (wide : Bool) (x : DWord) (l : List DWord) (s : State), (Instr.mboxPop rq m wide).wf = true → rq.dbg = false → s.readable rq (mboxReg m 0) = true →
    s.readable rq (mboxReg m 4) = true → s.mayPop rq m = true → (s.mb m).q = x :: l → (s.mb m).pushAt ≠ some s.now →
    Completes (.mboxPop rq m wide) s (fun t => t.answer = .ok ∧ t.data = (if wide then x else x >>> 32) ∧ (t.mb m).q = l ∧ (∀ k, k ≠ m → t.mb k = s.mb k) ∧ SameRegs s t [] ∧ SameBlocks s t)) ∧
  (∀ (rq : Rq) (m v : Nat) (s : State), (Instr.mboxConfig rq m v).wf = true → s.writable rq (mboxReg m 8) = true →
    (rq.ring = 0 → 0x800 ≤ v % 4096 → Completes (.mboxConfig rq m v) s (fun t => t.reg (mboxReg m 8) = BitVec.ofNat 32 v ∧
      (v / 4096 ≠ s.f (mboxReg m 8) 31 12 → (t.mb m).q = []) ∧ (v / 4096 = s.f (mboxReg m 8) 31 12 → t.mbox = s.mbox) ∧ SameRegs s t [mboxReg m 8, mboxReg m 0x10] ∧ SameBlocks s t)) ∧
    (rq.ring ≠ 0 → Completes (.mboxConfig rq m v) s (fun t => t.answer = .buserr ∧ t.mbox = s.mbox ∧ SameRegs s t [] ∧ SameBlocks s t)))

/-- R479-R484: a doorbell counts, keeps who rang last and raises its event; a lock goes to the reader that finds it free, back with its holder's write, and free by debug; its tenant's change frees it. (Code 0x82 in the 7 bits of PAGE_ERR.CODE: the model's choice, log 8.) -/
def Sys2Proof.Claims.DoorbellsAndLocks : Prop :=
  (∀ (rq : Rq) (d : Nat) (s : State), (Instr.doorbellRing rq d).wf = true →
    let a := Reg.DBELL.RING (d / 256) (d % 256)
    s.writable rq a = true → rq.ring = 0 ∨ (s.b (Reg.DBELL.DBCFG (d / 256) (d % 256)) 31 = true ∧ s.f (Reg.DBELL.DBCFG (d / 256) (d % 256)) 8 0 = rq.tenant) →
    Completes (.doorbellRing rq d) s (fun t => t.f a 31 16 = min 65535 (s.f a 31 16 + 1) ∧ t.f a 15 8 = rq.agent ∧
      (∃ f ∈ t.flight, f.id = 0x800 + d ∧ f.due = s.now + 5 ∧ f.scope = .all) ∧ SameRegs s t [a] ∧ SameBlocks s t)) ∧
  (∀ (rq : Rq) (k : Nat) (s : State), (Instr.lockAcquire rq k).wf = true → rq.dbg = false → s.readable rq (Reg.LOCK.LOCK k) = true →
    (s.mayLock rq k = true → s.reg (Reg.LOCK.LOCK k) = 0#32 → Completes (.lockAcquire rq k) s (fun t => t.data = 0#64 ∧ t.reg (Reg.LOCK.LOCK k) = BitVec.ofNat 32 rq.agent ∧
      SameRegs s t [Reg.LOCK.LOCK k] ∧ SameBlocks s t)) ∧
    (s.mayLock rq k = true → s.reg (Reg.LOCK.LOCK k) ≠ 0#32 → Completes (.lockAcquire rq k) s (fun t => t.data = (s.reg (Reg.LOCK.LOCK k)).setWidth 64 ∧ SameRegs s t [] ∧ SameBlocks s t)) ∧
    (s.mayLock rq k = false → Completes (.lockAcquire rq k) s (fun t => t.answer = .buserr ∧ SameRegs s t [] ∧ SameBlocks s t))) ∧
  (∀ (rq : Rq) (k v : Nat) (s : State), (Instr.lockRelease rq k v).wf = true → s.writable rq (Reg.LOCK.LOCK k) = true → s.mayLock rq k = true →
    (0 < rq.agent → s.reg (Reg.LOCK.LOCK k) = BitVec.ofNat 32 rq.agent → Completes (.lockRelease rq k v) s (fun t => t.reg (Reg.LOCK.LOCK k) = 0#32 ∧ SameRegs s t [Reg.LOCK.LOCK k] ∧ SameBlocks s t)) ∧
    (s.reg (Reg.LOCK.LOCK k) ≠ BitVec.ofNat 32 rq.agent → s.b (Reg.LOCK.page + 0x18) 31 = false → Completes (.lockRelease rq k v) s (fun t =>
      t.reg (Reg.LOCK.LOCK k) = s.reg (Reg.LOCK.LOCK k) ∧ t.f (Reg.LOCK.page + 0x18) 30 24 = 2 ∧ SameRegs s t [Reg.LOCK.page + 0xC, Reg.LOCK.page + 0x18] ∧ SameBlocks s t))) ∧
  (∀ (k : Nat) (s : State), k < 64 → s.dbgRoot = true → s.writable ⟨0, 0, 103, true⟩ Reg.LOCK.FORCE = true →
    Completes (.lockForce k) s (fun t => t.reg (Reg.LOCK.LOCK k) = 0#32 ∧ t.b (Reg.LOCK.page + 0xC) 0 = true ∧ SameRegs s t [Reg.LOCK.LOCK k, Reg.LOCK.FORCE, Reg.LOCK.page + 0xC] ∧ SameBlocks s t)) ∧
  (∀ (rq : Rq) (k v : Nat) (s : State), (Instr.lockConfig rq k v).wf = true → rq.ring = 0 → s.writable rq (Reg.LOCK.LOCKCFG k) = true →
    Completes (.lockConfig rq k v) s (fun t => t.reg (Reg.LOCK.LOCKCFG k) = BitVec.ofNat 32 (Nat.land v 0x800001FF) ∧
      (t.reg (Reg.LOCK.LOCKCFG k) ≠ s.reg (Reg.LOCK.LOCKCFG k) → t.reg (Reg.LOCK.LOCK k) = 0#32) ∧ SameRegs s t [Reg.LOCK.LOCKCFG k, Reg.LOCK.LOCK k] ∧ SameBlocks s t))

/-- Table walks and invalidations (R367-R388). -/
def Obligations.Translation : Prop := Claims.Invalidation ∧ Claims.Walks

/-- The error code of memory, its classes and its log (R390-R396, R411). -/
def Obligations.MemoryErrors : Prop := Claims.ErrorClasses ∧ Claims.WordAccess ∧ Claims.ErrorLog

/-- Scrubbing, filling and clearing (R400-R408). -/
def Obligations.MemoryUpkeep : Prop := Claims.Scrubbing ∧ Claims.Fills ∧ Claims.Clears

/-- Mailboxes, doorbells and locks (R470-R487). -/
def Obligations.FabricServices : Prop := Claims.Mailboxes ∧ Claims.DoorbellsAndLocks

/-! ## The Armature (chapter 14) -/

namespace Sys2Proof.Machine

/-- The command in front of the Armature's queue has not been performed and has this operation. -/
def State.armNext (s : State) (op : Nat) (c : ArmCmd) (r : List ArmCmd) : Prop := s.arm.queue = c :: r ∧ c.done = none ∧ bitsOf c.cmd.toNat 27 24 = op
/-- It is performed, and completes at edge `at_` with a code, a task number and RINFO. -/
def ArmCmd.ends (c : ArmCmd) (at_ code id : Nat) (info : List Word) (start free : Option Nat) : ArmCmd :=
  { c with done := some ⟨at_, BitVec.ofNat 32 (code * 2 ^ 24 + id), info, start, free⟩ }
/-- RINFO of a refusal with this word. -/
def refusedInfo (n : Nat) : List Word := [0#32, 0#32, 0#32, BitVec.ofNat 32 n]

end Sys2Proof.Machine

/-- R415, R420, R431, R439, R443: QUERY answers after 64 CCLK with the task's RINFO, CTXSET keeps a template and answers after 32, RESTART gives a failed task a clean slot, an operation outside 1 to 5 ends with code 0x01; a task nobody may name with 0x0E; at its end the copy of the requester shows RESULT and RINFO, and the task named starts or leaves. -/
def Sys2Proof.Claims.ArmatureCommands : Prop :=
  (∀ (c : ArmCmd) (r : List ArmCmd) (k : Task) (s : State), s.awake = true → s.armNext 3 c r → c.ring = 0 ∨ cmdTenant c.cmd = 0 →
    (s.task (cmdId c.cmd) = some k → k.tenant = c.tenant → Completes .armQuery s (fun t =>
      t.arm.queue = c.ends (s.now + 64) 0 (cmdId c.cmd) k.rinfo none none :: r ∧ t.task (cmdId c.cmd) = some { k with missRep := false } ∧
      (∀ i, i ≠ cmdId c.cmd → t.task i = s.task i) ∧ t.cores = s.cores ∧ SameRegs s t [] ∧ SameMem s t)) ∧
    (s.task (cmdId c.cmd) = none → Completes .armQuery s (fun t =>
      t.arm.queue = c.ends (s.now + 64) 0x0E (cmdId c.cmd) (refusedInfo 0) none none :: r ∧ t.arm.tasks = s.arm.tasks ∧ t.cores = s.cores ∧ SameRegs s t [] ∧ SameMem s t))) ∧
  (∀ (c : ArmCmd) (r : List ArmCmd) (s : State), s.awake = true → s.armNext 5 c r → c.ring = 0 ∨ cmdTenant c.cmd = 0 → Completes .armCtxset s (fun t =>
    t.arm.queue = c.ends (s.now + 32) 0 (cmdId c.cmd) (refusedInfo 0) none none :: r ∧ t.arm.templates.lookup c.tenant = some (c.stage.take 8) ∧
    (∀ g, g ≠ c.tenant → t.arm.templates.lookup g = s.arm.templates.lookup g) ∧ t.arm.tasks = s.arm.tasks ∧ t.cores = s.cores ∧ SameRegs s t [] ∧ SameMem s t)) ∧
  (∀ (c : ArmCmd) (r : List ArmCmd) (k : Task) (s : State), s.awake = true → s.armNext 4 c r → c.ring = 0 ∨ cmdTenant c.cmd = 0 → s.task (cmdId c.cmd) = some k → k.tenant = c.tenant →
    (k.state = .failed → k.unit < 96 → k.slot < 64 → Completes .armRestart s (fun t =>
      t.arm.queue = c.ends s.now 0 (cmdId c.cmd) k.rinfo (some (cmdId c.cmd)) none :: r ∧ t.slotF k.unit k.slot 30 29 = 0 ∧ t.slotF k.unit k.slot 27 24 = 0 ∧
      t.slotF k.unit k.slot 23 0 = s.slotF k.unit k.slot 23 0 ∧ t.arm.tasks = s.arm.tasks ∧ SameRegs s t [Reg.ENG.SCTL k.unit k.slot] ∧ SameMem s t)) ∧
    (k.state ≠ .failed → Completes .armRestart s (fun t => t.arm.queue = c.ends s.now 0x01 (cmdId c.cmd) (refusedInfo 0) none none :: r ∧ SameRegs s t [] ∧ SameMem s t))) ∧
  (∀ (c : ArmCmd) (r : List ArmCmd) (op : Nat) (s : State), s.awake = true → s.armNext op c r → op = 0 ∨ 5 < op → Completes .armUnknownOp s (fun t =>
    t.arm.queue = c.ends s.now 0x01 (cmdId c.cmd) (refusedInfo 0) none none :: r ∧ t.arm.tasks = s.arm.tasks ∧ SameRegs s t [] ∧ SameMem s t)) ∧
  (∀ (c : ArmCmd) (r : List ArmCmd) (d : ArmDone) (s : State), s.awake = true → s.arm.queue = c :: r → c.done = some d → s.held = [] → Completes .armCommandDone s (fun t =>
    t.arm.queue = r ∧ t.now = max s.now d.at_ ∧ (t.armCopy c.agent).result = d.result ∧ (t.armCopy c.agent).rinfo = d.rinfo ∧ SameMem s t ∧
    (∀ g, g ≠ c.agent → t.armCopy g = s.armCopy g) ∧
    (d.start = none → d.free = none → t.arm.tasks = s.arm.tasks ∧ SameRegs s t []) ∧
    (∀ i k, d.start = some i → d.free = none → s.task i = some k → dJob k.words = false → k.unit < 96 → k.slot < 64 →
      t.task i = some { k with state := .running, lastrep := 1 } ∧ t.slotF k.unit k.slot 31 31 = 1) ∧
    (∀ i, d.start = none → d.free = some i → t.task i = none)))

/-- R414-R417, R420, R424, R430, R432: a descriptor that breaks its layout is refused with code 0x01 and the word, one past the tenant's quota with 0x03, one that no engine admits with 0x07; one that passes every check stands in the slot, the context and the memory of the chosen engine, its slot not yet enabled, and starts when the command completes. -/
def Sys2Proof.Claims.ArmatureSubmit : Prop :=
  ∀ (c : ArmCmd) (r : List ArmCmd) (s : State), s.awake = true → s.armNext 1 c r →
    let d := c.stage
    let tn := c.tenant
    let free := if s.f (Reg.ARM2.TQUOTA tn) 12 0 ≤ (s.arm.tasks.filter (fun p => p.2.tenant == tn)).length then none else s.freeId
    (∀ w, descWordBad d (c.ring == 0 && tn == 0) = some w → w < 16 → Completes .armSubmit s (fun t =>
      t.arm.queue = c.ends (s.now + 256) 0x01 0 (refusedInfo (4 * w)) none none :: r ∧ t.arm.tasks = s.arm.tasks ∧ t.cores = s.cores ∧ SameRegs s t [] ∧ SameMem s t)) ∧
    (descWordBad d (c.ring == 0 && tn == 0) = none → c.ring = 0 ∨ cmdTenant c.cmd = 0 →
      (free = none → Completes .armSubmit s (fun t =>
        t.arm.queue = c.ends (s.now + 256) 0x03 0 (refusedInfo 0) none none :: r ∧ t.arm.tasks = s.arm.tasks ∧ t.cores = s.cores ∧ SameRegs s t [] ∧ SameMem s t)) ∧
      (∀ id, free = some id →
        ¬ (s.f (Reg.ARM3.TMEM tn) 31 16 * 16384 < poolBytes (s.heldMems tn ++ dMems d) ∧ poolBytes (dMems d) ≠ 0) →
        ¬ (s.f (Reg.ARM3.TMEM tn) 15 0 * 1024 < engBytes (s.heldMems tn ++ dMems d) ∧ engBytes (dMems d) ≠ 0) →
        (∀ i ∈ dTrigs d, s.deliverable i tn = true) → (bitOf (dw d 10) 31 = true → s.swOwner (bitsOf (dw d 10) 11 0) = tn) → dJob d = false → dPine d = false →
        (s.candidates tn d = [] → Completes .armSubmit s (fun t =>
          t.arm.queue = c.ends (s.now + 256) 0x07 0 (refusedInfo 0) none none :: r ∧ t.arm.tasks = s.arm.tasks ∧ t.cores = s.cores ∧ SameRegs s t [] ∧ SameMem s t)) ∧
        (∀ e n x mems b, s.placeOf tn d = .ok (e, n, x, mems, b) → e < 96 → n < 60 → mapChecks tn d s = (none, s) → (s.arm.templates.lookup tn).isSome = true →
          mems.find? (fun m => m.x) = none →
          Completes .armSubmit s (fun t => ∃ at_,
            t.arm.queue = c.ends at_ 0 id (newTask tn d e n x mems b).rinfo (some id) none :: r ∧ s.now + 256 ≤ at_ ∧ t.task id = some (newTask tn d e n x mems b) ∧
            (∀ i, i ≠ id → t.task i = s.task i) ∧ t.slotF e n 31 31 = 0 ∧ t.slotF e n 27 24 = 0 ∧ t.slotF e n 23 20 = dLevel d ∧ t.slotF e n 19 18 = dRing d ∧
            t.slotW e n 1 = BitVec.ofNat 32 (dw d 1 / 4 * 4) ∧ t.slotW e n 2 = lget 0#32 d 2 ∧ t.b (Reg.ENG.CTXCFG e x) 31 = true ∧
            (x < 7 → tn < 512 → t.f (Reg.ENG.CTXCFG e x) 8 0 = tn)))))

/-- R440: WITHDRAW diverts a task's events, and once its slot is not active gives back slot and memory, cleared, the task leaving at the command's end. -/
def Sys2Proof.Claims.ArmatureWithdraw : Prop :=
  ∀ (c : ArmCmd) (r : List ArmCmd) (k : Task) (s : State), s.awake = true → s.armNext 2 c r → c.ring = 0 ∨ cmdTenant c.cmd = 0 → s.task (cmdId c.cmd) = some k → k.tenant = c.tenant ∨ c.ring = 0 →
    dJob k.words = false → k.unit < 96 → k.slot < 64 →
    (s.slotActive k.unit k.slot = true → Completes .armWithdraw s (fun t => t.arm.queue = s.arm.queue ∧ t.task (cmdId c.cmd) = some { k with state := .withdrawing } ∧
      (∀ i, i ≠ cmdId c.cmd → t.task i = s.task i) ∧ SameRegs s t [] ∧ SameMem s t ∧ t.cores = s.cores)) ∧
    (s.slotActive k.unit k.slot = false → Completes .armWithdraw s (fun t =>
      t.arm.queue = c.ends s.now 0 (cmdId c.cmd) (refusedInfo 0) none (some (cmdId c.cmd)) :: r ∧ t.slotW k.unit k.slot 0 = 0#32 ∧
      (∃ u, t.task (cmdId c.cmd) = some u ∧ u.state = .withdrawing ∧ u.mems = []) ∧ (∀ i, i ≠ cmdId c.cmd → t.task i = s.task i) ∧
      (k.mems = [] → SameMem s t) ∧ ∀ m, k.mems = [m] → ∀ q, m.pa ≤ q → q < m.pa + m.size → t.byte q = 0#8))

/-- R435, R437, R441, R444, R445: an engine or plinth is retired or avoided by register or found slow after its cause has lasted SLOWT; a floating task that may move starts to migrate, holds its events, and goes on in the new place with them counted; the oldest report is read and taken. -/
def Sys2Proof.Claims.SlowAndMigrating : Prop :=
  (∀ (rq : Rq) (k v : Nat) (s : State), (Instr.engineRetire rq k v).wf = true → rq.ring = 0 → s.arm.tasks = [] →
    let a := if k < 3 then Reg.ARM1.RETIRE k else Reg.ARM1.AVOID
    let w := BitVec.ofNat 32 (if k < 3 then v else v % 4096)
    s.writable rq a = true →
    Completes (.engineRetire rq k v) s (fun t => t.reg a = w ∧ (w &&& ~~~(s.reg a) ≠ 0#32 → t.b (Reg.ARM1.page + 0xC) 0 = true) ∧ SameRegs s t [a, Reg.ARM1.page + 0xC] ∧ SameBlocks s t)) ∧
  (∀ (k u : Nat) (s : State), k < 352 → s.awake = true → s.arm.slowFrom.lookup k = some u → s.arm.slow.contains k = false → s.arm.tasks = [] →
    Completes (.slowDetect k) s (fun t => t.arm.slow = k :: s.arm.slow ∧ t.now = max s.now (u + max 1 (s.f Reg.ARM1.CFG 31 16) * 800) ∧ t.b (Reg.ARM1.page + 0xC) 0 = true ∧
      SameRegs s t [Reg.ARM1.page + 0xC] ∧ SameMem s t)) ∧
  (∀ (e i : Nat) (k : Task) (s : State), e < 96 → s.awake = true → s.nextMove e = some (i, k) →
    Completes (.migrationStart e) s (fun t => t.task i = some { k with state := .migrating, held := 0, lost := false, from_ := e, since := s.now, waited := s.slotActive e k.slot } ∧
      (∀ j, j ≠ i → t.task j = s.task j) ∧ t.cores = s.cores ∧ SameRegs s t [] ∧ SameMem s t)) ∧
  (∀ (e : Nat) (s : State), (s.tasksOn e).any (fun p => p.2.state == .migrating) = true → s.nextMove e = none) ∧
  (∀ (e i e' n x : Nat) (k : Task) (s : State), e < 96 → e' < 96 → e' ≠ e → k.slot < 64 → n < 60 → s.awake = true → (s.tasksOn e).find? (fun p => p.2.state == .migrating) = some (i, k) →
    s.task i = some k → s.slotActive e k.slot = false → k.mems = [] → s.destOf k = some (e', n, x, []) →
    Completes (.migrationDone e) s (fun t =>
      t.task i = some { k with state := .running, unit := e', slot := n, ctx := x, held := 0, lost := false, migr := satN 65535 (k.migr + 1), lastrep := 2 } ∧
      t.slotF e' n 31 31 = 1 ∧ t.slotF e' n 27 24 = min 15 (s.slotF e k.slot 27 24 + k.held) ∧ t.slotW e k.slot 0 = 0#32 ∧ (∀ j, j ≠ i → t.task j = s.task j) ∧
      t.now = max s.now ((if k.waited then s.now else k.since) + 64) ∧ SameMem s t)) ∧
  (∀ (rq : Rq) (x : RepRec) (l : List RepRec) (s : State), rq.ok = true → rq.dbg = false → rq.ring = 0 → s.readable rq Reg.ARM3.REP3 = true → s.arm.reports = x :: l → s.arm.repPush ≠ some s.now →
    Completes (.reportPop rq) s (fun t => t.answer = .ok ∧ t.data = x.r3.setWidth 64 ∧ t.arm = { s.arm with reports := l } ∧ t.cores = s.cores ∧ SameRegs s t [] ∧ SameMem s t))

/-- The Armature: its commands, and SUBMIT (R414-R433). -/
def Obligations.PlacementRequests : Prop := Claims.ArmatureCommands ∧ Claims.ArmatureSubmit

/-- The Armature: WITHDRAW, slow engines and migration (R435-R440). -/
def Obligations.PlacementChanges : Prop := Claims.ArmatureWithdraw ∧ Claims.SlowAndMigrating

/-! ## The Pedestal (chapter 17) -/

namespace Sys2Proof.Machine

/-- The copies of the Pedestal request nothing, nothing is driven, and no copy waits for a rebuild. -/
def State.pedQuiet (s : State) : Prop :=
  (∀ k, (s.copy k).req0 = 0#32 ∧ (s.copy k).req1 = 0#32) ∧ s.reg Reg.PEDESTAL.PSOUT0 = 0#32 ∧ s.reg Reg.PEDESTAL.PSOUT1 = 0#32 ∧
    s.b Reg.PEDESTAL.CTRL 31 = false ∧ s.ped.waiting = [] ∧ s.ped.rebuild = none ∧ s.dwPend = none ∧ s.ped.copies.length = 3
/-- Bit of a channel in the voted outputs (R500). -/
def State.psout (s : State) (c : Nat) : Bool := if c < 32 then s.b Reg.PEDESTAL.PSOUT0 c else s.b Reg.PEDESTAL.PSOUT1 (c - 32)
/-- Copy `k` has left the vote with a cause, and the departure is recorded and announced (R494, R495). -/
def Departed (s t : State) (k cause : Nat) : Prop :=
  t.inVote k = false ∧ (∀ j, j < 3 → j ≠ k → t.inVote j = s.inVote j) ∧
    t.reg Reg.PEDESTAL.LASTOUT = BitVec.ofNat 32 (cause * 2 ^ 28 + k * 2 ^ 24) ∧ t.reg Reg.PEDESTAL.LASTIC = BitVec.ofNat 32 (s.copy k).ic ∧
    t.f Reg.PEDESTAL.OUTCNT (8 * k + 7) (8 * k) = min 255 (s.f Reg.PEDESTAL.OUTCNT (8 * k + 7) (8 * k) + 1) ∧ t.b (Reg.PEDESTAL.page + 0xC) 0 = true ∧
    t.b Reg.DEVICE.DWSTAT 19 = true ∧ t.b Reg.DEVICE.DWSTAT 31 = true ∧ t.dwPend = some ⟨t.now, 4, k, 0⟩ ∧ SameMem s t ∧
    SameRegs s t [Reg.PEDESTAL.STATUS, Reg.PEDESTAL.LASTOUT, Reg.PEDESTAL.LASTIC, Reg.PEDESTAL.OUTCNT, Reg.PEDESTAL.page + 0xC, Reg.DEVICE.DWSTAT]

end Sys2Proof.Machine

/-- R491-R495: the second agreeing access is performed once and kept for the third copy, a copy's own registers not by it; a third that differs leaves with cause OUTPUT; an agreed checkpoint restarts the time of CKTO; a copy that has not issued CMPTO clocks after the performance leaves with cause LAG. -/
def Sys2Proof.Claims.CopiesCompared : Prop :=
  (∀ (x : ExtAcc) (s : State), s.awake = true → s.voters = [0, 1, 2] → s.ped.queue = [⟨[(0, x), (1, x)], none⟩] → x.kind = .write → pedOwn x.pa = true →
    s.extHeld 96 x = false → (s.copy 2).issued ≤ s.ped.base →
    Completes .externalAccessVote s (fun t => t.ped = { s.ped with queue := [⟨[(0, x), (1, x)], some (x, ⟨some 0, false⟩, s.now)⟩] } ∧ SameRegs s t [] ∧ SameMem s t)) ∧
  (∀ (v : Nat) (s : State), s.awake = true → s.voters = [0, 1, 2] → inBits 32 v = true → s.host.bw = [] → s.host.gpio.acts = [] →
    let x : ExtAcc := ⟨.write, Reg.GPIO.DIR, 4, 0, 0, v, false⟩
    s.ped.queue = [⟨[(0, x), (1, x)], none⟩] → s.extHeld 96 x = false → s.off Reg.GPIO.page = false → (s.copy 2).issued ≤ s.ped.base →
    Completes .externalAccessVote s (fun t => t.reg Reg.GPIO.DIR = BitVec.ofNat 32 v ∧ SameRegs s t [Reg.GPIO.DIR] ∧ SameMem s t)) ∧
  (∀ (x y : ExtAcc) (s : State), s.awake = true → s.voters = [0, 1, 2] → s.ped.queue = [⟨[(0, x), (1, x), (2, y)], none⟩] → x.kind = .write → y.kind = .write →
    pedOwn x.pa = true → y.agrees x = false → s.extHeld 96 x = false → s.pedQuiet →
    Completes .externalAccessVote s (fun t => Departed s t 2 1 ∧ t.now = s.now)) ∧
  (∀ (x : ExtAcc) (s : State), s.awake = true → s.voters = [0, 1, 2] → s.ped.queue = [⟨[(0, x), (1, x)], none⟩] → x.kind = .ckpt → x.dev = false →
    s.b Reg.PEDESTAL.STATUS 31 = false →
    Completes .checkpoint s (fun t => t.ped.ckptAt = s.now ∧ t.ped.stalled = false ∧ t.b Reg.PEDESTAL.STATUS 28 = false ∧ t.voters = s.voters ∧
      SameRegs s t [Reg.PEDESTAL.STATUS] ∧ SameMem s t)) ∧
  (∀ (x : ExtAcc) (g : Got) (t0 : Nat) (l : List (Nat × ExtAcc)) (s : State), s.awake = true → s.voters = [0, 1, 2] → s.ped.queue = [⟨l, some (x, g, t0)⟩] →
    (s.copy 0).issued = s.ped.base + 1 → (s.copy 1).issued = s.ped.base + 1 → (s.copy 2).issued = s.ped.base → s.pedQuiet →
    Completes .lagTimeout s (fun t => Departed s t 2 3 ∧ t.now = max s.now (t0 + 2 * s.f Reg.PEDESTAL.CMPTO 15 0)))

/-- R500-R503: a copy's write loads its own latch alone and each output bit follows the majority of the copies in the vote; in SAFE HOLD every latch and every output is 0 and every driven enable falls; a checkpoint overdue by CKTO enters it; while voted SAFE is 1 the pair toggles every 40,000 CCLK, its balls complementary. -/
def Obligations.VotedOutputs : Prop :=
  (∀ (k v : Nat) (s : State), (Instr.psreqWrite k 0 v).wf = true → s.awake = true → s.voters = [0, 1, 2] → s.ped.broken = none → s.ped.fresh = false →
    s.b Reg.PEDESTAL.STATUS 31 = false → s.ped.copies.length = 3 →
    Completes (.psreqWrite k 0 v) s (fun t => (t.copy k).req0 = BitVec.ofNat 32 v ∧ (t.copy k).req1 = (s.copy k).req1 ∧ (∀ j, j ≠ k → t.copy j = s.copy j) ∧
      (∀ c, c < 32 → t.b Reg.PEDESTAL.PSOUT0 c =
        ((bitOf (t.copy 0).req0.toNat c && bitOf (t.copy 1).req0.toNat c) || (bitOf (t.copy 0).req0.toNat c && bitOf (t.copy 2).req0.toNat c) ||
          (bitOf (t.copy 1).req0.toNat c && bitOf (t.copy 2).req0.toNat c))) ∧
      SameMem s t)) ∧
  (∀ (k which v : Nat) (s : State), (Instr.psreqWrite k which v).wf = true → s.awake = true → s.voters.length < 2 →
    Completes (.psreqWrite k which v) s (fun t => t.ped = s.ped ∧ SameRegs s t [] ∧ SameBlocks s t)) ∧
  (∀ s : State, s.awake = true → s.f Reg.PEDESTAL.CKTO 15 0 ≠ 0 → s.voters ≠ [] → s.ped.stalled = false → s.ped.rom = false → s.ped.copies.length = 3 →
    Completes .checkpointTimeout s (fun t => t.ped.stalled = true ∧ t.b Reg.PEDESTAL.STATUS 31 = true ∧ t.b (Reg.PEDESTAL.page + 0xC) 5 = true ∧
      (∀ k, (t.copy k).req0 = 0#32 ∧ (t.copy k).req1 = 0#32) ∧ t.reg Reg.PEDESTAL.PSOUT0 = 0#32 ∧ t.reg Reg.PEDESTAL.PSOUT1 = 0#32 ∧
      (∀ c, c < 48 → s.psout c = true → t.psen c = false) ∧ t.voters = s.voters ∧
      s.ped.ckptAt + s.f Reg.PEDESTAL.CKTO 15 0 * 800 ≤ t.now ∧ SameMem s t)) ∧
  (∀ (t0 : Nat) (s : State), s.awake = true → s.ped.safeAt = some t0 →
    Completes .safeToggle s (fun t => t.safePair = (s.safePair.2, s.safePair.1) ∧ t.safePair.1 = !t.safePair.2 ∧ t.ped.safeAt = some (t0 + 40000) ∧ t.now = max s.now t0 ∧
      SameRegs s t [] ∧ SameMem s t))

/-- R497: a batch gets its target one clock after its sampling, the count of a copy held in WAIT or the largest count plus EXLEAD, and never below the last; each copy applies it at that count to the slots that wait for the event. -/
def Sys2Proof.Claims.Exchange : Prop :=
  (∀ (b : Batch) (s : State), s.awake = true → s.ped.batches = [b] → b.target = none → s.voters = [0, 1, 2] →
    Completes .exchangeBatch s (fun t => t.now = max s.now (b.at_ + 4) ∧ SameRegs s t [] ∧ SameMem s t ∧ ∃ T, t.ped.batches = [{ b with target := some T }] ∧ t.ped.lastTarget = T ∧ s.ped.lastTarget ≤ T ∧
      (s.inWait 0 = true → T = max (s.copy 0).ic s.ped.lastTarget) ∧
      (s.inWait 0 = false → s.inWait 1 = false → s.inWait 2 = false →
        T = max (max (max (s.copy 0).ic (s.copy 1).ic) (s.copy 2).ic + s.f Reg.PEDESTAL.EXCFG 15 0) s.ped.lastTarget))) ∧
  (∀ (k j id T : Nat) (at_ : Nat) (s : State), k < 3 → j < 3 → j ≠ k → s.awake = true → s.inVote k = true → s.inVote j = true → s.ped.copies.length = 3 →
    s.ped.batches = [⟨[id], at_, some T, []⟩] → (s.copy k).ic = T →
    Completes (.batchApply k) s (fun t => t.ped.batches = [⟨[id], at_, some T, [k]⟩] ∧ SameRegs s t [] ∧ SameMem s t ∧ (∀ i, i ≠ k → t.copy i = s.copy i) ∧
      ∀ n, n < 16 → t.slotF (96 + k) n 27 24 =
        if s.slotF (96 + k) n 16 16 = 1 ∧ s.slotF (96 + k) n 11 0 = id then min 15 (s.slotF (96 + k) n 27 24 + 1) else s.slotF (96 + k) n 27 24))

/-- R505, R506: a rebuild resets the copy, copies the source's memory, freezes the copies at a target, copies the source's state and lets the copy rejoin where signature and count agree; after a restart the memories are cleared and the copies are in the vote again. -/
def Sys2Proof.Claims.Rebuilds : Prop :=
  (∀ (rq : Rq) (k src : Nat) (l : List Nat) (s : State), (Instr.resyncStart rq k).wf = true → k < 3 → s.writable rq Reg.PEDESTAL.RESYNC = true → s.inVote k = false →
    s.b Reg.PEDESTAL.CTRL (16 + k) = false → s.voters = src :: l → s.ped.rebuild = none → s.ped.waiting = [] →
    Completes (.resyncStart rq k) s (fun t => t.ped.rebuild = some ⟨k, src, 1, s.now + 128, none⟩ ∧ t.b Reg.PEDESTAL.STATUS 29 = true ∧ t.f Reg.PEDESTAL.STATUS 27 26 = k ∧
      (∀ j, j < 3 → t.inVote j = s.inVote j) ∧ SameRegs s t [Reg.PEDESTAL.RESYNC, Reg.PEDESTAL.STATUS] ∧ SameMem s t)) ∧
  (∀ (rq : Rq) (k : Nat) (s : State), (Instr.resyncStart rq k).wf = true → s.writable rq Reg.PEDESTAL.RESYNC = true →
    k = 3 ∨ s.inVote k = true ∨ s.b Reg.PEDESTAL.CTRL (16 + k) = true →
    Completes (.resyncStart rq k) s (fun t => t.ped = s.ped ∧ t.b (Reg.PEDESTAL.page + 0x18) 31 = true ∧ SameRegs s t [Reg.PEDESTAL.page + 0xC, Reg.PEDESTAL.page + 0x18] ∧ SameMem s t)) ∧
  (∀ (r : Rebuild) (s : State), s.awake = true → s.ped.rebuild = some r → r.step = 1 →
    Completes .resyncCopy s (fun t => t.ped.rebuild = some { r with step := 2, due := r.due + 131072 } ∧ t.now = max s.now r.due ∧ SameRegs s t [] ∧ SameMem s t)) ∧
  (∀ (r : Rebuild) (s : State), s.awake = true → s.ped.rebuild = some r → r.step = 2 → r.copy < 3 → r.src < 3 → r.src ≠ r.copy → s.synds = [] → Memory.wf s.mem = true →
    Completes .resyncFreeze s (fun t => (∃ T, t.ped.rebuild = some { r with step := 3, target := some T } ∧ t.ped.lastTarget = T ∧ s.ped.lastTarget ≤ T) ∧ t.now = max s.now r.due ∧ SameRegs s t [] ∧
      (∀ a, a < 0x80000 → t.byte (0xD0000000 + r.copy * 0x80000 + a) = s.byte (0xD0000000 + r.src * 0x80000 + a)) ∧
      (∀ a, a < 0xD0000000 + r.copy * 0x80000 ∨ 0xD0000000 + r.copy * 0x80000 + 0x80000 ≤ a → t.byte a = s.byte a))) ∧
  (∀ (r : Rebuild) (T : Nat) (s : State), s.awake = true → s.ped.rebuild = some r → r.step = 3 → r.target = some T → (∀ k ∈ s.voters, (s.copy k).ic = T) →
    Completes .resyncFreeze s (fun t => t.ped.rebuild = some { r with step := 4, due := s.now + 1024 } ∧ SameRegs s t [] ∧ SameMem s t)) ∧
  (∀ (r : Rebuild) (s : State), s.awake = true → s.ped.rebuild = some r → r.step = 4 → r.copy < 3 → s.inVote r.copy = false → s.ped.copies.length = 3 → s.ped.waiting = [] →
    s.ped.broken = none → s.b Reg.PEDESTAL.STATUS 31 = false → (∀ k ∈ s.voters, (s.copy k).sig = (s.copy r.src).sig ∧ (s.copy k).ic = (s.copy r.src).ic) →
    Completes .resyncCheck s (fun t => t.inVote r.copy = true ∧ t.copy r.copy = s.copy r.src ∧ t.b (Reg.PEDESTAL.page + 0xC) 2 = true ∧ t.ped.rebuild = none ∧
      t.b Reg.PEDESTAL.STATUS 29 = false ∧ max s.now r.due + 16 ≤ t.now ∧ SameMem s t)) ∧
  (∀ (t0 : Nat) (s : State), s.awake = true → s.ped.clearAt = some t0 →
    Completes .pedestalClearDone s (fun t => t.ped.clearAt = none ∧ t.voters = [0, 1, 2] ∧ t.now = max s.now (t0 + 65536) ∧
      (∀ a, 0xD0000000 ≤ a → a < 0xD0180000 → t.byte a = 0#8) ∧ (∀ a, a < 0xD0000000 ∨ 0xD0180000 ≤ a → t.byte a = s.byte a)))

/-- The Pedestal copies: comparison, exchange and rebuild (R489-R509). -/
def Obligations.CoreCopies : Prop := Claims.CopiesCompared ∧ Claims.Exchange ∧ Claims.Rebuilds

/-! ## The Pelzia line (chapter 18) -/

namespace Sys2Proof.Machine

/-- The port's inbox holds `r` in front of `l`. -/
def State.holds (s : State) (p : Nat) (r : RxRec) (l : List RxRec) : Prop := s.dozing = true ∧ (s.port p).inbox = r :: l
/-- The state with the frame taken from the inbox. -/
def State.taken (s : State) (p : Nat) (l : List RxRec) : State := s.setPort p { s.port p with inbox := l }
/-- The header of the frame the port launched last, as it went out. -/
def State.sent (s : State) (p : Nat) : Option Sys2Proof.Machine.Frm := (s.port p).tx.map (fun r => parseFrm r.body)
/-- A saturating 32-bit counter has counted once. -/
def Counted (s t : State) (a : Nat) : Prop := (t.reg a).toNat = min (2 ^ 32 - 1) ((s.reg a).toNat + 1)
/-- A frame of this type to this device, with the next sequence number, left port `p` at edge `at_`, and nothing but the port and the sequence counter changed (R516, R517, R520). -/
def SentNow (s t : State) (p typ ddev at_ : Nat) : Prop :=
  (∃ r, (t.port p).tx = some r ∧ r.at_ = at_ ∧ (parseFrm r.body).typ = typ ∧ (parseFrm r.body).ddev = ddev ∧ (parseFrm r.body).sdev = s.devNum ∧ (parseFrm r.body).seq = s.line.txSeq) ∧
    t.line.txSeq = (if s.line.txSeq = 0xFFFFFFFF then 1 else s.line.txSeq + 1) ∧ SameRegs s t [] ∧ SameMem s t ∧ (∀ q, q ≠ p → t.port q = s.port q)

end Sys2Proof.Machine

/-- R516-R524: a received frame is judged by form, length, CRC, header, source, key, TAG, enrolment and sequence number, in this order; each failure counts in its own counter; an accepted one updates LAST and reaches its consumer. -/
def Obligations.FrameChecks : Prop :=
  ∀ (p : Nat) (ok : Bool) (body : List Nat) (ref chk : Nat) (s : State), (Instr.frameReceive p ok body ref chk).wf = true → s.dozing = true → s.lineTalks p = true → (s.port p).tx = none →
    let f := parseFrm body
    let e := ref + (7 + 10 * body.length) * s.lineBaud p
    let bad := ok = false ∨ body.length < 24 ∨ 512 < f.len ∨ body.length ≠ 24 + f.len
    let crc := leNat (body.drop (body.length - 4)) = crc32 (body.take (body.length - 4))
    let form := f.typ = 0 ∨ 0xB < f.typ ∨ bitOf f.h0 24 = true ∨ bitOf f.h1 11 = true ∨ 2 < f.hop
    let good := ∃ i, s.rxKey f.ksel f.sten f.kgen = some i ∧ f.tagOk (s.lineKey i) = true
    let member := (f.typ = 0xA ∨ s.enrolled f.sdev = true) ∧ (f.ksel = 1 → f.sten = f.dten)
    Completes (.frameReceive p ok body ref chk) s (fun t => t.now = max s.now (e + min chk 64) ∧ SameMem s t ∧
      (bad → Counted s t (Reg.LINE.FMTERR p) ∧ SameRegs s t [Reg.LINE.FMTERR p] ∧ t.line.last = s.line.last ∧ (t.port p).inbox = (s.port p).inbox) ∧
      (¬bad → ¬crc → Counted s t (Reg.LINE.CRCERR p) ∧ SameRegs s t [Reg.LINE.CRCERR p] ∧ t.line.last = s.line.last ∧ (t.port p).inbox = (s.port p).inbox) ∧
      (¬bad → crc → form → Counted s t (Reg.LINE.FMTERR p) ∧ SameRegs s t [Reg.LINE.FMTERR p] ∧ t.line.last = s.line.last ∧ (t.port p).inbox = (s.port p).inbox) ∧
      (¬bad → crc → ¬form → f.sdev = s.devNum → t.b (Reg.LINE.STATUS p) 30 = true ∧ t.b (Reg.LINE.page p + 0xC) 6 = true ∧
        SameRegs s t [Reg.LINE.STATUS p, Reg.LINE.page p + 0xC] ∧ t.line.last = s.line.last ∧ (t.port p).inbox = (s.port p).inbox) ∧
      (¬bad → crc → ¬form → f.sdev ≠ s.devNum → ¬(good ∧ member) → Counted s t (Reg.LINE.STRANGER p) ∧ t.reg (Reg.LINE.STRLAST p) = BitVec.ofNat 32 (2 ^ 31 + f.sten * 2 ^ 12 + f.sdev) ∧
        SameRegs s t [Reg.LINE.STRANGER p, Reg.LINE.STRLAST p, Reg.LINE.page p + 0xC] ∧ t.line.last = s.line.last ∧ (t.port p).inbox = (s.port p).inbox) ∧
      (¬bad → crc → ¬form → f.sdev ≠ s.devNum → good → member → seqNewer f.seq (s.lineLast f.sdev) = false →
        Counted s t (Reg.LINE.REPLAY p) ∧ SameRegs s t [Reg.LINE.REPLAY p] ∧ t.line.last = s.line.last ∧ (t.port p).inbox = (s.port p).inbox) ∧
      (¬bad → crc → ¬form → f.sdev ≠ s.devNum → good → member → seqNewer f.seq (s.lineLast f.sdev) = true → f.bc = false → f.ddev = s.devNum → 1 ≤ f.typ → f.typ ≤ 6 →
        s.b (Reg.LINE.CFG p) 0 = false → t.lineLast f.sdev = f.seq ∧ (∀ d, d ≠ f.sdev → t.lineLast d = s.lineLast d) ∧ SameRegs s t [] ∧
          ∃ r, (t.port p).inbox = (s.port p).inbox ++ [r] ∧ r.frm = f ∧ r.endAt = e))

/-- R527-R529, R531, R541: a cycle begins at T_c with its event and, at the head, its CYCLE frame; a member takes CYCLE as a sign of its head; half a cycle without one is a miss and eight lose the head; a slot's data is read 4 µs before its launch and sent at it, or counted missing. -/
def Sys2Proof.Claims.LineCycle : Prop :=
  (∀ (p q : Nat) (s : State), p < 4 → q < p → s.dozing = true → s.lineFull p = true → s.lineFull q = true → s.phase = 0 → (s.port p).tc = none → (s.port p).turned = false →
    s.flight = [] → s.b (Reg.LINE.ROLE p) 0 = false →
    Completes (.cycleStart p) s (fun t => t.now = max s.now (alignUp 8 (s.nsEdge (s.nextTc p))) ∧ (t.port p).tc = some (s.nextTc p) ∧ (t.port p).headNow = false ∧ (t.port p).judged = false ∧
      (∃ f ∈ t.flight, f.id = 0x780 + 16 * p ∧ f.due = t.now + 5 ∧ f.tag = none) ∧ SameRegs s t [] ∧ SameMem s t)) ∧
  (∀ (p q i : Nat) (s : State), p < 4 → q < p → s.dozing = true → s.lineTalks p = true → s.lineFull p = true → s.lineFull q = true → s.phase = 0 → (s.port p).tc = none → (s.port p).turned = false →
    s.f (Reg.LINE.ROLE p) 31 16 = 0 → s.b (Reg.LINE.ROLE p) 0 = true → s.txKey 0 0 = some i → s.line.txSeq < 2 ^ 32 →
    Completes (.cycleStart p) s (fun t => (t.port p).tc = some (s.nextTc p) ∧ (t.port p).headNow = true ∧
      ∃ f, t.sent p = some f ∧ f.typ = 1 ∧ f.bc = true ∧ f.sdev = s.devNum ∧ f.seq = s.line.txSeq ∧ SameRegs s t [] ∧ SameMem s t)) ∧
  (∀ (p : Nat) (r : RxRec) (l : List RxRec) (th : Int) (s : State), p < 4 → s.holds p r l → r.frm.typ = 1 → (s.port p).headNow = false → s.phase = 0 →
    lget 0 r.frm.pay 12 = 0 → s.b (Reg.LINE.ROLE p) 1 = false → s.cycleTheta p r = some th →
    Completes (.cycleReceive p) s (fun t => (t.port p).cycAt = some r.stamp ∧ (t.port p).misses = 0 ∧ (t.port p).headDev = r.frm.sdev ∧ (t.port p).inbox = l ∧
      t.b (Reg.LINE.STATUS p) 29 = true ∧ t.b (Reg.LINE.STATUS p) 31 = false ∧ SameRegs s t [Reg.LINE.STATUS p] ∧ SameMem s t)) ∧
  (∀ (p : Nat) (tc : Int) (s : State), p < 4 → s.dozing = true → s.lineFull p = true → (s.port p).tc = some tc → (s.port p).headNow = false → (s.port p).judged = false → (s.port p).cycAt = none →
    s.phase ≠ 6 → s.formed = false →
    Completes (.cycleMiss p) s (fun t => Counted s t (Reg.LINE.CYCMISS p) ∧ (t.port p).misses = (s.port p).misses + 1 ∧ (t.port p).judged = true ∧ t.b (Reg.LINE.STATUS p) 29 = false ∧
      t.b (Reg.LINE.page p + 0xC) 0 = true ∧ ((s.port p).misses + 1 = 8 → t.b (Reg.LINE.STATUS p) 31 = true ∧ t.b (Reg.LINE.page p + 0xC) 5 = true) ∧
      ((s.port p).misses + 1 ≠ 8 → t.b (Reg.LINE.STATUS p) 31 = s.b (Reg.LINE.STATUS p) 31) ∧ SameRegs s t [Reg.LINE.CYCMISS p, Reg.LINE.STATUS p, Reg.LINE.page p + 0xC] ∧ SameMem s t)) ∧
  (∀ (p k v : Nat) (tc : Int) (u s : State), p < 4 → k < 8 → s.dozing = true → s.lineFull p = true → (s.port p).tc = some tc → (s.port p).reads = [] → s.edge.sw.lookup (Reg.LINE.TSCTL p k) = none →
    s.b (Reg.LINE.TSCTL p k) 31 = true → s.now ≤ s.nsEdge (tc + s.slotAt p k - 4000) →
    blkRead (lineRq p (s.f (Reg.LINE.TSCTL p k) 24 16) 1) (s.f (Reg.LINE.TSBUF p k) 29 0 * 1024 + 512 * s.f (Reg.LINE.TSCTL p k) 29 29) (s.f (Reg.LINE.TSDEST p k) 8 0)
      (s.moveTo (s.nsEdge (tc + s.slotAt p k - 4000))) = (.val v, u) →
    Completes (.slotReadStart p k) s (fun t => (t.port p).reads = (u.port p).reads ++ [⟨k, tc, some (leBytes v (s.f (Reg.LINE.TSDEST p k) 8 0))⟩] ∧ t.now = u.now ∧ SameRegs u t [] ∧ SameMem u t)) ∧
  (∀ (p k : Nat) (r : SlotRd) (s : State), p < 4 → k < 8 → s.dozing = true → s.lineTalks p = true → s.b (Reg.LINE.TSCTL p k) 31 = true → (s.port p).reads = [r] → r.slot = k →
    (r.data = none → Completes (.slotLaunch p k) s (fun t => (t.port p).reads = [] ∧ Counted s t (Reg.LINE.SLOTMISS p) ∧ t.b (Reg.LINE.page p + 0xC) 1 = true ∧
      t.now = max s.now (s.nsEdge (r.tc + s.slotAt p k)) ∧ SameRegs s t [Reg.LINE.SLOTMISS p, Reg.LINE.page p + 0xC] ∧ SameMem s t)) ∧
    (∀ (d : List Nat) (i : Nat), r.data = some d → d.length ≤ 508 → s.f (Reg.LINE.TSCTL p k) 15 0 = 0 → s.txKey (s.f (Reg.LINE.TSCTL p k) 30 30) (s.f (Reg.LINE.TSCTL p k) 24 16) = some i →
      s.line.txSeq < 2 ^ 32 → Completes (.slotLaunch p k) s (fun t => (t.port p).reads = [] ∧ t.now = max s.now (s.nsEdge (r.tc + s.slotAt p k)) ∧ SentNow s t p 2 0 t.now)))

/-- R533, R537, R546: an ISO frame goes into the other half of its slot's buffer and raises NOTIFY; MSG and PRESENT frames go into a message channel's ring, a frame that finds no channel or a full ring is dropped and counted. -/
def Sys2Proof.Claims.LineReceive : Prop :=
  (∀ (p : Nat) (r : RxRec) (l : List RxRec) (s : State), p < 4 → s.holds p r l → r.frm.typ = 2 → lget 0 r.frm.pay 0 = 0 →
    (s.rxSlot p r.frm = none → Completes (.isoReceive p) s (fun t => (t.port p).inbox = l ∧ Counted s t (Reg.LINE.RXDROP p) ∧ SameRegs s t [Reg.LINE.RXDROP p] ∧ SameMem s t)) ∧
    (∀ (k v : Nat) (u : State), s.rxSlot p r.frm = some k → u.b (Reg.LINE.RSNOTE p k) 31 = false →
      let q := s.f (Reg.LINE.RSSTAT p k) 15 0
      let d := leBytes (stampWord r.stamp) 4 ++ r.frm.pay.drop 4
      blkWrite (lineRq p (s.f (Reg.LINE.RSNOTE p k) 20 12) 1) (s.f (Reg.LINE.RSBUF p k) 29 0 * 1024 + 512 * ((q + 1) % 2)) d.length (leNat d) (s.taken p l) = (.val v, u) →
      Completes (.isoReceive p) s (fun t => t.f (Reg.LINE.RSSTAT p k) 15 0 = (q + 1) % 65536 ∧ t.b (Reg.LINE.RSSTAT p k) 31 = false ∧
        k ∈ (t.port p).stored ∧ SameRegs u t [Reg.LINE.RSSTAT p k] ∧ SameMem u t))) ∧
  (∀ (p : Nat) (r : RxRec) (l : List RxRec) (s : State), p < 4 → s.holds p r l → r.frm.typ = 3 →
    (s.rxChan p r.frm.dten = none → Completes (.msgReceive p) s (fun t => (t.port p).inbox = l ∧ Counted s t (Reg.LINE.RXDROP p) ∧ SameRegs s t [Reg.LINE.RXDROP p] ∧ SameMem s t)) ∧
    (∀ u, msgStore p r (s.taken p l) = (true, u) → (r.frm.ack = false → Completes (.msgReceive p) s (fun t => t = u)) ∧
      (r.frm.ack = true → r.frm.bc = false → Completes (.msgReceive p) s (fun t => (t.port p).ans = (u.port p).ans ++ [⟨.ack, r.endAt + u.lineGap p, r.frm, 0⟩] ∧ SameRegs u t [] ∧ SameMem u t)))) ∧
  (∀ (p : Nat) (r : RxRec) (l : List RxRec) (s : State), p < 4 → s.holds p r l → r.frm.typ = 8 →
    (s.rxChan p 0 = none → Completes (.presentReceive p) s (fun t => (t.port p).inbox = l ∧ Counted s t (Reg.LINE.RXDROP p) ∧ SameRegs s t [Reg.LINE.RXDROP p] ∧ SameMem s t)) ∧
    (∀ u, msgStore p { r with frm := { r.frm with h1 := putBits r.frm.h1 31 23 0 } } (s.taken p l) = (true, u) → r.frm.ack = false → Completes (.presentReceive p) s (fun t => t = u))) ∧
  (∀ (p j v w : Nat) (r : RxRec) (u x s : State), s.rxChan p r.frm.dten = some j →
    let base := s.f (Reg.LINE.MRBASE p j) 29 0 * 1024
    let rq := lineRq p (s.f (Reg.LINE.MRCFG p j) 28 20) 1
    let n := 2 ^ u.f (Reg.LINE.MRCFG p j) 19 16
    let d := r.frm.head ++ leBytes (stampWord r.stamp) 4 ++ r.frm.pay
    blkRead rq base 8 s = (.val v, u) →
    ((v % 2 ^ 32 + 2 ^ 32 - v / 2 ^ 32) % 2 ^ 32 = n → msgStore p r s = (false, u)) ∧
    ((v % 2 ^ 32 + 2 ^ 32 - v / 2 ^ 32) % 2 ^ 32 ≠ n → blkWrite rq (base + 1024 * (1 + v % 2 ^ 32 % n)) d.length (leNat d) u = (.val w, x) →
      msgStore p r s = (true, lineNotify ((blkWrite rq base 4 ((v % 2 ^ 32 + 1) % 2 ^ 32) x).2.f (Reg.LINE.MRCFG p j) 11 0) (blkWrite rq base 4 ((v % 2 ^ 32 + 1) % 2 ^ 32) x).2)))

/-- R534, R535: in an open window the next contention frame of the port leaves; an acknowledgement in time ends it, a missing one makes it try again with a wider backoff up to RETRY times; an addressed frame is acknowledged under its own key after GAP. -/
def Sys2Proof.Claims.LineContention : Prop :=
  (∀ (p at_ : Nat) (f : Sys2Proof.Machine.Frm) (l : List Sys2Proof.Machine.Frm) (s : State), p < 4 → s.dozing = true → s.lineTalks p = true → (s.port p).cont = none → (s.port p).own = f :: l → s.rootPort ≠ some p →
    (s.moveTo at_).windowFits p f = true → (s.port p).idleAt + s.lineGap p ≤ max s.now at_ → f.ack = false → f.typ ≠ 5 → f.typ ≠ 0xB →
    Completes (.contentionSend p at_) s (fun t => t.now = max s.now at_ ∧ (∃ r, (t.port p).tx = some r ∧ r.body = f.body ∧ r.at_ = t.now) ∧ (t.port p).own = l ∧ (t.port p).cont = none ∧
      SameRegs s t [] ∧ SameMem s t)) ∧
  (∀ (p w : Nat) (r : RxRec) (l : List RxRec) (c : Cont) (s : State), p < 4 → s.holds p r l → r.frm.typ = 4 → (s.port p).cont = some c → c.src = .own → c.wait = some w →
    (r.endAt ≤ w → leNat (r.frm.pay.take 4) = c.frm.seq → Completes (.ackReceive p) s (fun t => (t.port p).cont = none ∧ (t.port p).inbox = l ∧ SameRegs s t [] ∧ SameMem s t)) ∧
    (w < r.endAt ∨ leNat (r.frm.pay.take 4) ≠ c.frm.seq → Completes (.ackReceive p) s (fun t => (t.port p).cont = some c ∧ (t.port p).inbox = l ∧ Counted s t (Reg.LINE.RXDROP p) ∧
      SameRegs s t [Reg.LINE.RXDROP p] ∧ SameMem s t))) ∧
  (∀ (p w : Nat) (c : Cont) (s : State), p < 4 → s.dozing = true → (s.port p).cont = some c → c.wait = some w → c.src = .own → c.frm.typ ≠ 0xB →
    (c.tries + 1 ≤ s.f (Reg.LINE.CONT p) 11 8 → Completes (.ackTimeout p) s (fun t => t.now = max s.now w ∧
      (t.port p).cont = some { c with tries := c.tries + 1, be := min (c.be + 1) (s.f (Reg.LINE.CONT p) 7 4), wait := none } ∧ SameRegs s t [] ∧ SameMem s t)) ∧
    (s.f (Reg.LINE.CONT p) 11 8 < c.tries + 1 → Completes (.ackTimeout p) s (fun t => t.now = max s.now w ∧ (t.port p).cont = none ∧ Counted s t (Reg.LINE.COLL p) ∧
      t.b (Reg.LINE.page p + 0xC) 4 = true ∧ SameRegs s t [Reg.LINE.COLL p, Reg.LINE.page p + 0xC] ∧ SameMem s t))) ∧
  (∀ (p i : Nat) (a : Ans) (s : State), p < 4 → s.dozing = true → (s.port p).ans = [a] → a.kind = .ack → s.lineTalks p = true → s.rxKey a.dest.ksel a.dest.sten a.dest.kgen = some i →
    s.line.txSeq < 2 ^ 32 → Completes (.ackSend p) s (fun t => t.now = max s.now a.due ∧ (t.port p).ans = [] ∧ SentNow s t p 4 a.dest.sdev a.due))

/-- R542, R548: the head answers a DLYREQ after GAP with its stamps; the member sets D to the first exact result and later moves it by an eighth of the difference; an awake port answers a POLL after its delay with PRESENT. -/
def Sys2Proof.Claims.LineDelay : Prop :=
  (∀ (p : Nat) (r : RxRec) (l : List RxRec) (s : State), p < 4 → s.holds p r l → r.frm.typ = 5 → (s.port p).headNow = true →
    Completes (.dlyreqReceive p) s (fun t => (t.port p).inbox = l ∧ (t.port p).ans = (s.port p).ans ++ [⟨.dlyrsp, r.endAt + s.lineGap p, r.frm, r.stamp⟩] ∧ SameRegs s t [] ∧ SameMem s t)) ∧
  (∀ (p i : Nat) (a : Ans) (s : State), p < 4 → s.dozing = true → (s.port p).ans = [a] → a.kind = .dlyrsp → s.lineTalks p = true → s.txKey 0 0 = some i → s.line.txSeq < 2 ^ 32 →
    Completes (.dlyrspSend p) s (fun t => t.now = max s.now a.due ∧ (t.port p).ans = [] ∧ SentNow s t p 6 a.dest.sdev a.due)) ∧
  (∀ (p by_ : Nat) (t1 d : Int) (r : RxRec) (l : List RxRec) (s : State), p < 4 → s.holds p r l → r.frm.typ = 6 → (s.port p).dly = some (t1, by_) → r.endAt ≤ by_ →
    (s.stamp48Time r.frm.pay - t1) + (r.stamp - s.stamp48Time (r.frm.pay.drop 8)) = d * (2 * 2 ^ 38) →
    (s.b (Reg.LINE.DELAY p) 31 = false → Completes (.dlyrspReceive p) s (fun t => t.reg (Reg.LINE.DELAY p) = BitVec.ofNat 32 (2 ^ 31 + ux 24 d) ∧ (t.port p).dly = none ∧
      (t.port p).inbox = l ∧ SameRegs s t [Reg.LINE.DELAY p] ∧ SameMem s t)) ∧
    (∀ k : Int, s.b (Reg.LINE.DELAY p) 31 = true → d - (s.f (Reg.LINE.DELAY p) 23 0 : Nat) = k * 8 → Completes (.dlyrspReceive p) s (fun t =>
      t.reg (Reg.LINE.DELAY p) = BitVec.ofNat 32 (2 ^ 31 + ux 24 ((s.f (Reg.LINE.DELAY p) 23 0 : Nat) + k)) ∧ (t.port p).dly = none ∧ SameRegs s t [Reg.LINE.DELAY p] ∧ SameMem s t))) ∧
  (∀ (p by_ : Nat) (t1 : Int) (s : State), p < 4 → s.dozing = true → (s.port p).dly = some (t1, by_) →
    Completes (.dlyrspTimeout p) s (fun t => t.now = max s.now by_ ∧ (t.port p).dly = none ∧ SameRegs s t [] ∧ SameMem s t)) ∧
  (∀ (p i : Nat) (a : Int) (s : State), p < 4 → s.dozing = true → s.lineFull p = true → (s.port p).headNow = false → (s.port p).dlyCnt = 0 → (s.port p).cycAt = some a →
    s.b (Reg.LINE.STATUS p) 31 = false → s.txKey 0 0 = some i →
    Completes (.dlyreqDue p) s (fun t => (∃ f, (t.port p).own = (s.port p).own ++ [f] ∧ f.typ = 5 ∧ f.ddev = (s.port p).headDev % 4096 ∧ f.sdev = s.devNum ∧ f.seq = s.line.txSeq) ∧
      (t.port p).dlyCnt = max 1 (s.f (Reg.LINE.CONT p) 23 16) ∧ SameRegs s t [] ∧ SameMem s t)) ∧
  (∀ (p : Nat) (body : List Nat) (at_ : Nat) (r : RxRec) (l : List RxRec) (s : State), (Instr.pollReceive p body at_).wf = true → s.holds p r l → r.frm.typ = 7 → r.frm.ack = false →
    Completes (.pollReceive p body at_) s (fun t => (t.port p).inbox = l ∧ SameRegs s t [] ∧ SameMem s t ∧
      (t.port p).ans = (s.port p).ans ++ [⟨.present, r.endAt + 25600 + (if r.frm.bc then s.f (Reg.LINE.CFG p) 13 8 * 204800 else 0), r.frm, 0⟩])) ∧
  (∀ (p i : Nat) (a : Ans) (s : State), p < 4 → s.dozing = true → (s.port p).ans = [a] → a.kind = .present → s.lineTalks p = true → s.txKey 0 0 = some i → s.line.txSeq < 2 ^ 32 →
    Completes (.presentSend p) s (fun t => t.now = max s.now a.due ∧ (t.port p).ans = [] ∧ SentNow s t p 8 a.dest.sdev a.due))

/-- R548, R584, R585: in WATCH the link keeper takes POLL and WAKE frames for its device under its key; WAKE starts the device with cause LINE where WAKEEN allows it. -/
def Sys2Proof.Claims.LinkKeeper : Prop :=
  (∀ (body : List Nat) (f : Sys2Proof.Machine.Frm) (k : Keeper) (s : State), (Instr.wakeFrame body).wf = true → s.plat.power = .watch → s.plat.down = none → s.keeperTakes 9 body = some (f, k) →
    (s.b Reg.PWR.WAKEEN 30 = false → Completes (.wakeFrame body) s (fun t => t.line.keeper = some { k with last := f.seq } ∧ t.plat = s.plat ∧ SameRegs s t [] ∧ SameMem s t)) ∧
    (s.b Reg.PWR.WAKEEN 30 = true → Completes (.wakeFrame body) s (fun t => t = wake 3 (s.setLine { s.line with keeper := some { k with last := f.seq } }) ∧ t.plat.power = .start))) ∧
  (∀ (body : List Nat) (at_ : Nat) (f : Sys2Proof.Machine.Frm) (k : Keeper) (s : State), (Instr.pollReceive 0 body at_).wf = true → s.plat.power = .watch → s.keeperTakes 7 body = some (f, k) →
    Completes (.pollReceive 0 body at_) s (fun t => t.line.keeper = some { k with last := f.seq } ∧ t.now = max s.now at_ ∧
      (t.port 0).ans = (s.port 0).ans ++ [⟨.present, at_ + 25600 + (if f.bc then k.pidx * 204800 else 0), f, 0⟩] ∧ SameRegs s t [] ∧ SameMem s t)) ∧
  (∀ (a : Ans) (k : Keeper) (key : List Nat) (s : State), s.plat.power = .watch → (s.port 0).ans = [a] → a.kind = .present → s.line.keeper = some k → k.key = some key →
    Completes (.presentSend 0) s (fun t => (t.port 0).ans = [] ∧ t.now = max s.now a.due ∧ (∃ r, (t.port 0).tx = some r ∧ r.at_ = a.due) ∧ SameRegs s t [] ∧ SameMem s t))

/-- R521, R552: LOAD moves KEYIN into an entry that clashes with none, and clears KEYIN; ERASE zeroes the entry; TXUSE leaves its owner one sending entry. -/
def Sys2Proof.Claims.LineKeys : Prop :=
  (∀ (rq : Rq) (ix : Nat) (s : State), (Instr.keyLoad rq ix).wf = true → s.writable rq Reg.LINEKEY.KCMD = true →
    (∀ j, j < 64 → j ≠ ix → s.b (Reg.LINEKEY.KCTL j) 31 = false) →
    Completes (.keyLoad rq ix) s (fun t => t.b (Reg.LINEKEY.KCTL ix) 31 = true ∧ t.lineKey ix = (List.range 4).flatMap (fun m => leBytes (s.reg (Reg.LINEKEY.KEYIN m)).toNat 4) ∧
      (∀ m, m < 4 → t.reg (Reg.LINEKEY.KEYIN m) = 0#32) ∧ (∀ j, j ≠ ix → t.lineKey j = s.lineKey j) ∧
      SameRegs s t ([Reg.LINEKEY.KCTL ix, Reg.LINEKEY.KCMD] ++ (List.range 4).map Reg.LINEKEY.KEYIN) ∧ SameMem s t)) ∧
  (∀ (rq : Rq) (ix : Nat) (s : State), (Instr.keyErase rq ix).wf = true → s.writable rq Reg.LINEKEY.KCMD = true →
    Completes (.keyErase rq ix) s (fun t => t.b (Reg.LINEKEY.KCTL ix) 31 = false ∧ t.b (Reg.LINEKEY.KCTL ix) 28 = false ∧ t.lineKey ix = List.replicate 16 0 ∧
      (∀ j, j ≠ ix → t.lineKey j = s.lineKey j) ∧ SameRegs s t [Reg.LINEKEY.KCTL ix, Reg.LINEKEY.KCMD] ∧ SameMem s t)) ∧
  (∀ (rq : Rq) (ix : Nat) (s : State), (Instr.keyTxuse rq ix).wf = true → s.writable rq (Reg.LINEKEY.KCTL ix) = true →
    Completes (.keyTxuse rq ix) s (fun t => t.b (Reg.LINEKEY.KCTL ix) 28 = true ∧ t.b (Reg.LINEKEY.KCTL ix) 31 = s.b (Reg.LINEKEY.KCTL ix) 31 ∧
      (∀ j, j < 64 → j ≠ ix → s.b (Reg.LINEKEY.KCTL j) 30 = s.b (Reg.LINEKEY.KCTL ix) 30 →
        s.b (Reg.LINEKEY.KCTL ix) 30 = true ∨ s.f (Reg.LINEKEY.KCTL j) 8 0 = s.f (Reg.LINEKEY.KCTL ix) 8 0 → t.b (Reg.LINEKEY.KCTL j) 28 = false) ∧
      SameRegs s t ((List.range 64).map Reg.LINEKEY.KCTL) ∧ t.line = s.line ∧ SameMem s t))

/-- The cycle of a line, and what a port receives (R520-R538). -/
def Obligations.LineCycles : Prop := Claims.LineCycle ∧ Claims.LineReceive

/-- The contention window and the delay of the line (R534-R543). -/
def Obligations.LineTiming : Prop := Claims.LineContention ∧ Claims.LineDelay

/-- The link keeper and the keys of the line (R516-R525, R547-R549). -/
def Obligations.LineSupport : Prop := Claims.LinkKeeper ∧ Claims.LineKeys

/-! ## Systems of devices (chapter 19) -/

namespace Sys2Proof.Machine

/-- The port's inbox holds in front a DISC or SYS frame with operation `op` that asks for no acknowledgement. -/
def State.holdsOp (s : State) (p typ op : Nat) (r : RxRec) (l : List RxRec) : Prop := p < 4 ∧ s.holds p r l ∧ r.frm.typ = typ ∧ r.frm.op = op ∧ r.frm.ack = false
/-- Some other enabled port is still undecided, so that the election goes on. -/
def State.electing (s : State) (p : Nat) : Prop := s.phase = 1 ∧ ∃ q ∈ s.fullPorts, q ≠ p ∧ (s.port q).role = .cand

end Sys2Proof.Machine

/-- R556, R575: FORM begins the election where the device has a number, a sending key and a port, and is refused while formation runs; ABORT ends it; KEYCHK on the root begins the key phase again. -/
def Sys2Proof.Claims.Formation : Prop :=
  (∀ (rq : Rq) (i p : Nat) (s : State), rq.ok = true → s.writable rq Reg.LINEKEY.SYSCTL = true → s.b Reg.LINEKEY.DEVID 31 = true → s.txKey 0 0 = some i → s.phase = 0 →
    p ∈ s.fullPorts → s.portUp p = false →
    Completes (.form rq) s (fun t => t.phase = 1 ∧ t.reg Reg.LINEKEY.SYSSTAT = 0x01000000#32 ∧ t.line.formAt = s.now ∧
      (∀ q ∈ s.fullPorts, (t.port q).role = (if s.portUp q then .member else .cand) ∧ (t.port q).roster = [] ∧ (t.port q).joined = false) ∧
      SameRegs s t [Reg.LINEKEY.SYSSTAT] ∧ SameMem s t)) ∧
  (∀ (rq : Rq) (s : State), rq.ok = true → s.writable rq Reg.LINEKEY.SYSCTL = true → 1 ≤ s.phase → s.phase ≤ 5 →
    Completes (.form rq) s (fun t => t.b (Reg.LINEKEY.page + 0x18) 31 = true ∧ t.line = s.line ∧ SameRegs s t [Reg.LINEKEY.page + 0xC, Reg.LINEKEY.page + 0x18] ∧ SameMem s t)) ∧
  (∀ (rq : Rq) (s : State), rq.ok = true → s.writable rq Reg.LINEKEY.SYSCTL = true →
    Completes (.formAbort rq) s (fun t => t.phase = 0 ∧ (∀ p, p < 4 → (t.port p).turn = none ∧ (t.port p).role ≠ .cand ∧ (t.port p).role ≠ .claimed) ∧
      SameRegs s t [Reg.LINEKEY.SYSSTAT] ∧ SameMem s t)) ∧
  (∀ (rq : Rq) (s : State), rq.ok = true → s.writable rq Reg.LINEKEY.SYSCTL = true → s.b Reg.LINEKEY.SYSSTAT 30 = true →
    Completes (.keychkRerun rq) s (fun t => t.phase = 5 ∧ t.formed = false ∧ t.b Reg.LINEKEY.SYSSTAT 28 = false ∧ (∀ p ∈ s.headPorts, (t.port p).keyAns = []) ∧
      SameRegs s t [Reg.LINEKEY.SYSSTAT] ∧ SameMem s t))

/-- R557: a candidate's CLAIM leaves after E; the eighth collision in a row ends its candidacy with ELECTFAIL; a higher claim makes a member, a lower one is ignored; 4,000 µs without a higher one make the head. -/
def Sys2Proof.Claims.Election : Prop :=
  (∀ (p i : Nat) (s : State), p < 4 → s.dozing = true → s.phase = 1 → (s.port p).role = .cand → s.lineTalks p = true → s.txKey 0 0 = some i → s.line.txSeq < 2 ^ 32 →
    let at_ := (s.port p).waitAt + 16000 * (64 * (2 - s.portClass p) + s.pidx p)
    Completes (.claim p false) s (fun t => t.now = max s.now at_ ∧ (t.port p).role = .claimed ∧ (t.port p).collided = 0 ∧ SentNow s t p 0xA 0 t.now) ∧
    ((s.port p).collided + 1 < 8 → Completes (.claim p true) s (fun t => t.now = max s.now at_ ∧ (t.port p).role = .cand ∧ (t.port p).collided = (s.port p).collided + 1 ∧ SameRegs s t [])) ∧
    (8 ≤ (s.port p).collided + 1 → Completes (.claim p true) s (fun t => (t.port p).role = .none ∧ t.b Reg.LINEKEY.SYSSTAT 29 = true ∧ SameRegs s t [Reg.LINEKEY.SYSSTAT]))) ∧
  (∀ (p : Nat) (r : RxRec) (l : List RxRec) (s : State), s.holdsOp p 0xA 1 r l → s.electing p → (s.port p).role = .cand → s.edge.sw.lookup (Reg.LINE.ROLE p) = none →
    (s.portClass p < r.frm.arg1 ∨ (r.frm.arg1 = s.portClass p ∧ r.frm.arg2 < s.pidx p) →
      Completes (.claimReceive p) s (fun t => (t.port p).role = .member ∧ (t.port p).headDev = r.frm.sdev ∧ t.b (Reg.LINE.ROLE p) 0 = false ∧ SameRegs s t [Reg.LINE.ROLE p] ∧ SameMem s t)) ∧
    (¬(s.portClass p < r.frm.arg1 ∨ (r.frm.arg1 = s.portClass p ∧ r.frm.arg2 < s.pidx p)) →
      Completes (.claimReceive p) s (fun t => (t.port p).role = .cand ∧ (t.port p).inbox = l ∧ SameRegs s t [] ∧ SameMem s t))) ∧
  (∀ (p : Nat) (s : State), p < 4 → s.dozing = true → s.electing p → (s.port p).role = .claimed → s.edge.sw.lookup (Reg.LINE.ROLE p) = none →
    Completes (.headConfirm p) s (fun t => t.now = max s.now ((s.port p).waitAt + 3200000) ∧ (t.port p).role = .head ∧ t.b (Reg.LINE.ROLE p) 0 = true ∧
      SameRegs s t [Reg.LINE.ROLE p] ∧ SameMem s t))

/-- R558-R561: TURN follows the head's CYCLE frame and names the groups in order; a member answers in its own place with JOIN; the head's roster takes enrolled devices only; the root polls bridges, records their devices and counts them; ROOT sets the root, the levels and the count of every device. -/
def Sys2Proof.Claims.RollCall : Prop :=
  (∀ (p i : Nat) (tc : Int) (s : State), p < 4 → s.dozing = true → s.lineTalks p = true → (s.port p).headNow = true → (s.port p).role = .head → s.phase = 2 → (s.port p).turned = false →
    (s.port p).tc = some tc → s.txKey 0 0 = some i → s.line.txSeq < 2 ^ 32 →
    Completes (.turn p) s (fun t => t.now = max s.now ((s.port p).txEnd + s.lineGap p) ∧ (t.port p).turned = true ∧ (t.port p).group = ((s.port p).group + 1) % s.turnG p ∧
      SentNow s t p 0xA 0 t.now)) ∧
  (∀ (p q i : Nat) (u : Turn) (s : State), p < 4 → s.dozing = true → s.phase = 2 → q ∈ s.fullPorts → q ≠ p → s.rolled q = false → (s.port p).turn = some u → u.phase = 2 → u.a ≠ 0 →
    s.pidx p / u.a = u.group → (s.port p).role = .member → s.lineTalks p = true → s.txKey 0 0 = some i → s.line.txSeq < 2 ^ 32 →
    let due := u.endAt + s.lineGap p + 19200 * (s.pidx p % u.a)
    Completes (.turnAnswer p) s (fun t => t.now = max s.now due ∧ (t.port p).turn = none ∧ (t.port p).joined = true ∧ SentNow s t p 0xA ((s.port p).headDev % 4096) due)) ∧
  (∀ (p : Nat) (r : RxRec) (l : List RxRec) (s : State), s.holdsOp p 0xA 3 r l → (s.port p).role = .head → (s.port p).complete = false →
    (s.enrolled r.frm.sdev = true → (s.port p).roster.contains r.frm.sdev = false →
      Completes (.joinReceive p) s (fun t => (t.port p).roster = (s.port p).roster ++ [r.frm.sdev] ∧ (t.port p).added = true ∧ (t.port p).inbox = l ∧ SameRegs s t [] ∧ SameMem s t)) ∧
    (s.enrolled r.frm.sdev = false → Completes (.joinReceive p) s (fun t => (t.port p).roster = (s.port p).roster ∧ (t.port p).inbox = l ∧ SameRegs s t [] ∧ SameMem s t))) ∧
  (∀ (p d n i : Nat) (s : State), p < 4 → s.dozing = true → s.rootPort = some p → (s.port p).complete = true → s.phase = 2 → s.lineTalks p = true → (s.port p).bridges = [d] → (s.port p).regs = [] →
    (s.port p).polls = [(d, n)] → n < 8 → s.txKey 0 0 = some i → s.line.txSeq < 2 ^ 32 →
    Completes (.regreq p) s (fun t => t.now = max s.now ((s.port p).idleAt + s.lineGap p) ∧ (t.port p).polls = [(d, n + 1)] ∧ SentNow s t p 0xA (d % 4096) t.now)) ∧
  (∀ (p : Nat) (r : RxRec) (l : List RxRec) (s : State), s.holdsOp p 0xA 5 r l → s.rootPort = some p → r.frm.arg1 = 1 → s.b Reg.LINEKEY.SYSSTAT 30 = true →
    Completes (.registerReceive p) s (fun t =>
      (t.port p).regs = (r.frm.sdev, devList (min r.frm.arg2 (r.frm.data.length / 2)) r.frm.data) :: (s.port p).regs.filter (fun g => g.1 != r.frm.sdev) ∧
      t.f Reg.LINEKEY.SYSSTAT 12 0 = t.rootCount p % 8192 ∧ t.f Reg.LINEKEY.SYSSTAT 21 20 = t.rootLevels p ∧ SameRegs s t [Reg.LINEKEY.SYSSTAT] ∧ SameMem s t)) ∧
  (∀ (p : Nat) (r : RxRec) (l : List RxRec) (s : State), s.holdsOp p 0xA 6 r l → s.phase = 3 → s.b Reg.CALIPER0.DSTAT 30 = false →
    Completes (.rootReceive p) s (fun t => t.reg Reg.LINEKEY.SYSROOT = BitVec.ofNat 32 (2 ^ 31 + r.frm.sdev) ∧ t.f Reg.LINEKEY.SYSSTAT 21 20 = r.frm.arg1 % 4 ∧
      t.f Reg.LINEKEY.SYSSTAT 12 0 = r.frm.arg2 % 8192 ∧ t.b Reg.LINEKEY.SYSSTAT 30 = false ∧ t.phase = 4 ∧ (t.port p).inbox = l ∧
      SameRegs s t [Reg.LINEKEY.SYSROOT, Reg.LINEKEY.SYSSTAT] ∧ SameMem s t))

/-- R563, R565: a device compares the listed keys with all its own; heads collect the answers; the root sends FORMED when all are covered and none fails, and KEYFAIL otherwise; FORMED ends formation; the root repeats ROOT and KEYCHK every 256 cycles. -/
def Sys2Proof.Claims.KeysAndFormed : Prop :=
  (∀ (p : Nat) (r : RxRec) (l : List RxRec) (s : State), s.holdsOp p 0xA 7 r l → s.phase = 5 → s.rootPort = none → (∀ q, (s.port q).late = false) →
    Completes (.keychkReceive p) s (fun t => (t.port p).inbox = l ∧ t.phase = 5 ∧ SameRegs s t [] ∧ SameMem s t ∧
      t.line.keyOk = some (s.txEntries.all (fun i => s.keyListed i (min r.frm.arg1 (r.frm.data.length / 6)) r.frm.data) && (s.txKey 0 0).isSome))) ∧
  (∀ (p : Nat) (r : RxRec) (l : List RxRec) (s : State), s.holdsOp p 0xA 8 r l → s.phase = 5 → (s.port p).role = .head →
    let a : KeyAns := ⟨r.frm.sdev, r.frm.arg2, leNat ((r.frm.data.drop 2).take 2), leNat (r.frm.data.take 2)⟩
    (s.rootPort = none → (∀ q, (s.port q).late = false) →
      Completes (.keyresReceive p) s (fun t => (t.port p).keyAns = a :: (s.port p).keyAns.filter (fun k => k.dev != r.frm.sdev) ∧ SameRegs s t [] ∧ SameMem s t)) ∧
    (s.rootPort = some p → s.leafPorts = [] → (s.port p).keyAns = [] → s.f Reg.LINEKEY.SYSSTAT 12 0 ≤ 1 + a.covered → s.b Reg.LINEKEY.SYSSTAT 28 = false →
      (a.nfail ≠ 0 → Completes (.keyresReceive p) s (fun t => t.b Reg.LINEKEY.SYSSTAT 28 = true ∧ t.reg Reg.LINEKEY.KEYRES = BitVec.ofNat 32 (a.nfail * 65536 + min 0xFFFF a.first % 4096) ∧
        t.formed = s.formed ∧ SameRegs s t [Reg.LINEKEY.SYSSTAT, Reg.LINEKEY.KEYRES] ∧ SameMem s t)) ∧
      (a.nfail = 0 → (s.port p).keySent = false → Completes (.keyresReceive p) s (fun t => (t.port p).keySent = true ∧ SameRegs s t [] ∧ SameMem s t)))) ∧
  (∀ (p : Nat) (r : RxRec) (l : List RxRec) (s : State), s.holdsOp p 0xA 9 r l →
    Completes (.formedReceive p) s (fun t => t.formed = true ∧ t.phase = 6 ∧ t.f Reg.LINEKEY.SYSSTAT 12 0 = r.frm.arg2 % 8192 ∧
      t.reg Reg.LINEKEY.FORMTIME = BitVec.ofNat 32 (min 0xFFFFFFFF ((s.now - s.line.formAt) / 800000)) ∧ SameRegs s t [Reg.LINEKEY.SYSSTAT, Reg.LINEKEY.FORMTIME] ∧ SameMem s t)) ∧
  (∀ (p i : Nat) (s : State), s.dozing = true → s.b Reg.LINEKEY.SYSSTAT 30 = true → s.formed = true → 256 ≤ s.line.rep → s.headPorts = [p] → s.txKey 0 0 = some i →
    Completes .rootRepeat s (fun t => t.line.rep = 0 ∧ SameRegs s t [] ∧ SameMem s t ∧
      ∃ f g, (t.port p).own = (s.port p).own ++ [f, g] ∧ f.typ = 0xA ∧ f.op = 6 ∧ g.typ = 0xA ∧ g.op = 7))

/-- R568, R570, R573: BARRIER opens and closes under one ID while the system is formed; arrivals are counted under their ID; the root's RELEASE of the open barrier arms its time, at which every device raises the event, clears OPEN and sets DONE; a SYS frame of anyone else is dropped and counted. -/
def Sys2Proof.Claims.Barrier : Prop :=
  (∀ (rq : Rq) (v : Nat) (s : State), (Instr.barrierArrive rq v).wf = true → s.writable rq Reg.LINEKEY.BARRIER = true →
    (bitsOf v 27 16 < 0x800 ∨ s.formed = false ∨ (s.b Reg.LINEKEY.BARRIER 30 = true ∧ bitsOf v 7 0 ≠ s.f Reg.LINEKEY.BARRIER 7 0) →
      Completes (.barrierArrive rq v) s (fun t => t.b (Reg.LINEKEY.page + 0x18) 31 = true ∧ t.line = s.line ∧ SameRegs s t [Reg.LINEKEY.page + 0xC, Reg.LINEKEY.page + 0x18] ∧ SameMem s t)) ∧
    (0x800 ≤ bitsOf v 27 16 → s.formed = true → s.b Reg.LINEKEY.BARRIER 30 = false → bitOf v 31 = true →
      (s.rootPort = none → s.upPort = none → Completes (.barrierArrive rq v) s (fun t => t.b Reg.LINEKEY.BARRIER 30 = true ∧ t.f Reg.LINEKEY.BARRIER 27 16 = bitsOf v 27 16 ∧
        t.f Reg.LINEKEY.BARRIER 7 0 = bitsOf v 7 0 ∧ SameRegs s t [Reg.LINEKEY.BARRIER] ∧ SameMem s t)) ∧
      (∀ p i : Nat, s.rootPort = some p → s.headPorts = [p] → s.txKey 0 0 = some i → s.line.arrivals = [] → s.f Reg.LINEKEY.SYSSTAT 12 0 ≤ 1 →
        Completes (.barrierArrive rq v) s (fun t => t.line.arriveSent = true ∧ SameRegs s t [Reg.LINEKEY.BARRIER] ∧
          ∃ f, (t.port p).own = (s.port p).own ++ [f] ∧ f.typ = 0xB ∧ f.op = 2 ∧ f.arg1 = bitsOf v 7 0))) ∧
    (0x800 ≤ bitsOf v 27 16 → s.formed = true → s.b Reg.LINEKEY.BARRIER 30 = true → bitsOf v 7 0 = s.f Reg.LINEKEY.BARRIER 7 0 → bitOf v 31 = false →
      Completes (.barrierArrive rq v) s (fun t => t.b Reg.LINEKEY.BARRIER 30 = false ∧ SameRegs s t [Reg.LINEKEY.BARRIER] ∧ SameMem s t))) ∧
  (∀ (p : Nat) (r : RxRec) (l : List RxRec) (s : State), s.holdsOp p 0xB 1 r l → (s.port p).role = .head → s.b Reg.LINEKEY.BARRIER 30 = false →
    Completes (.arriveReceive p) s (fun t => (t.port p).inbox = l ∧ SameRegs s t [] ∧ SameMem s t ∧
      t.line.arrivals = (r.frm.arg1, r.frm.sdev, r.frm.arg2) :: s.line.arrivals.filter (fun x => !(x.1 == r.frm.arg1 && x.2.1 == r.frm.sdev)))) ∧
  (∀ (p : Nat) (r : RxRec) (l : List RxRec) (s : State), s.holdsOp p 0xB 2 r l →
    (s.sysTrusted r.frm = false → Completes (.releaseReceive p) s (fun t => Counted s t Reg.LINEKEY.SYSLATE ∧ t.line.release = s.line.release ∧ SameRegs s t [Reg.LINEKEY.SYSLATE] ∧ SameMem s t)) ∧
    (s.sysTrusted r.frm = true → s.reached (s.sysTime r.frm) = false → s.b Reg.LINEKEY.BARRIER 30 = true → s.f Reg.LINEKEY.BARRIER 7 0 = r.frm.arg1 →
      Completes (.releaseReceive p) s (fun t => t.line.release = some (s.sysTime r.frm) ∧ SameRegs s t [] ∧ SameMem s t))) ∧
  (∀ (T : Int) (s : State), s.dozing = true → s.line.release = some T →
    Completes .barrierRelease s (fun t => t.now = max s.now (s.actEdge T) ∧ t.b Reg.LINEKEY.BARRIER 30 = false ∧ t.b Reg.LINEKEY.BARRIER 29 = true ∧ t.line.release = none ∧
      (0x800 ≤ s.f Reg.LINEKEY.BARRIER 27 16 → ∃ f ∈ t.flight, f.id = s.f Reg.LINEKEY.BARRIER 27 16 ∧ f.due = t.now + 5 ∧ f.scope = .all) ∧
      SameRegs s t [Reg.LINEKEY.BARRIER] ∧ SameMem s t))

/-- R571-R573: a SNAP accepted in time arms one of four captures, which at its time raises the event and loads SNAPLAST, SNAPNS and SNAPSEC; a RESET accepted in time by a device with RSTEN resets it at its time with cause LINE. -/
def Sys2Proof.Claims.SnapshotsAndReset : Prop :=
  (∀ (p : Nat) (r : RxRec) (l : List RxRec) (s : State), s.holdsOp p 0xB 3 r l → s.sysTrusted r.frm = true → s.reached (s.sysTime r.frm) = false →
    (s.line.snaps.length < 4 → Completes (.snapReceive p) s (fun t => t.line.snaps = s.line.snaps ++ [(s.sysTime r.frm, r.frm.arg1, r.frm.arg2 % 4096)] ∧ SameRegs s t [] ∧ SameMem s t)) ∧
    (4 ≤ s.line.snaps.length → Completes (.snapReceive p) s (fun t => t.line.snaps = s.line.snaps ∧ Counted s t Reg.LINEKEY.SYSLATE ∧ SameRegs s t [Reg.LINEKEY.SYSLATE] ∧ SameMem s t))) ∧
  (∀ (T : Int) (id ev : Nat) (s : State), s.dozing = true → s.line.snaps = [(T, id, ev)] → s.line.stepAt = none →
    Completes .snapshotCapture s (fun t => t.now = max s.now (alignUp 8 (s.nsEdge T)) ∧ t.line.snaps = [] ∧ t.reg Reg.LINEKEY.SNAPLAST = BitVec.ofNat 32 (2 ^ 31 + id % 256) ∧
      t.reg Reg.LINEKEY.SNAPNS = BitVec.ofNat 32 (T % 1000000000).toNat ∧ t.reg Reg.LINEKEY.SNAPSEC = BitVec.ofNat 32 (T / 1000000000).toNat ∧
      (0x800 ≤ ev → ∃ f ∈ t.flight, f.id = ev ∧ f.due = t.now + 5 ∧ f.scope = .all) ∧
      SameRegs s t [Reg.LINEKEY.SNAPLAST, Reg.LINEKEY.SNAPNS, Reg.LINEKEY.SNAPSEC] ∧ SameMem s t)) ∧
  (∀ (p : Nat) (r : RxRec) (l : List RxRec) (s : State), s.holdsOp p 0xB 4 r l → s.sysTrusted r.frm = true →
    (s.b Reg.LINEKEY.SYSCFG 30 = true → s.reached (s.sysTime r.frm) = false → Completes (.resetReceive p) s (fun t => t.line.reset = some (s.sysTime r.frm) ∧ SameRegs s t [] ∧ SameMem s t)) ∧
    (s.b Reg.LINEKEY.SYSCFG 30 = false → Completes (.resetReceive p) s (fun t => t.line.reset = s.line.reset ∧ Counted s t Reg.LINEKEY.SYSLATE ∧ SameRegs s t [Reg.LINEKEY.SYSLATE] ∧ SameMem s t))) ∧
  (∀ (T : Int) (s : State), s.dozing = true → s.line.reset = some T → s.line.release = none → s.line.snaps = [] →
    Completes .lineReset s (fun t => t.plat.power = .start ∧ t.now = max s.now (s.actEdge T) ∧ t.b Reg.RST.CAUSE 5 = true))

/-- Formation of a system up to its roll call (R553-R562). -/
def Obligations.GroupForming : Prop := Claims.Formation ∧ Claims.Election ∧ Claims.RollCall

/-- The formed system: keys, barriers, snapshots and reset (R563-R572). -/
def Obligations.GroupOperation : Prop := Claims.KeysAndFormed ∧ Claims.Barrier ∧ Claims.SnapshotsAndReset

/-! ## Power, clocks, reset and boot (chapter 20) -/

namespace Sys2Proof.Machine

/-- Start-up has reached step `k`, its time runs from edge `at_`, and it is now. -/
def At (s t : State) (k : StartStep) (at_ : Nat) : Prop :=
  t.plat.power = .start ∧ t.plat.step = k ∧ t.plat.from_ = t.now ∧ t.now = max s.now at_ ∧ SameRegs s t [] ∧ SameMem s t
/-- A reset with this cause has begun, and start-up begins at this step (R592, R593). -/
def ResetTo (s t : State) (code : Nat) (k : StartStep) : Prop :=
  t.plat.power = .start ∧ t.plat.step = k ∧ t.b Reg.RST.CAUSE (code - 1) = true ∧ t.f Reg.RST.LAST 3 0 = code ∧ Counted s t Reg.RST.COUNT ∧
    (∀ a, islandReg a = false → t.reg a = regReset a) ∧ t.plat.fuses = s.plat.fuses ∧ t.cores = [] ∧ t.flight = []
/-- A cause of a device-wide episode that stays while its level does is announced (R456, R457). -/
def Announced (t : State) (cause detail : Nat) : Prop :=
  t.b Reg.DEVICE.DWSTAT (cause - 1) = true ∧ t.b Reg.DEVICE.DWSTAT (15 + cause) = true ∧ t.b Reg.DEVICE.DWSTAT 31 = true ∧ t.dwPend = some ⟨t.now, cause, detail, 2 ^ (cause - 1)⟩ ∧
    ∃ f ∈ t.flight, f.id = 0x7C0 ∧ f.due = t.now + 6
/-- The cause is not active and no announcement is under way. -/
def State.calm (s : State) (cause : Nat) : Prop := s.dwPend = none ∧ s.b Reg.DEVICE.DWSTAT (cause - 1) = false

end Sys2Proof.Machine

/-- R579, R581, R592, R594: start-up passes its steps in order, each after its time; at its end the device runs, the fuses are in their registers and the fill of the memories begins; loss of VAON ends everything but the fuses. -/
def Sys2Proof.Claims.StartUp : Prop :=
  (∀ (x : Bool) (s : State), s.plat.power = .off → Completes (.powerOn x) s (fun t => t.plat.power = .start ∧ t.plat.step = .aon ∧ t.plat.from_ = s.now ∧ t.plat.porAt = s.now ∧
    t.plat.coreEn = false ∧ t.plat.xmode = x ∧ t.plat.fuses = s.plat.fuses ∧ (∀ a, t.reg a = regReset a))) ∧
  (∀ s : State, s.atStep .aon = true → Completes .coreEnable s (fun t => At s t .core (s.plat.from_ + 805665) ∧ t.plat.coreEn = true)) ∧
  (∀ s : State, s.atStep .wait = true → Completes .powerCycleRestart s (fun t => At s t .core s.plat.from_ ∧ t.plat.coreEn = true)) ∧
  (∀ (g : Nat) (s : State), s.atStep .core = true → Completes (.ioEnable g) s (fun t => At s t .rails (s.plat.from_ + g + 80000) ∧ t.plat.ioEn = true)) ∧
  (∀ (d : Nat) (s : State), s.atStep .rails = true → Completes (.railsGood d) s (fun t => At s t .osc (s.plat.from_ + d))) ∧
  (∀ (d : Nat) (s : State), s.atStep .osc = true → Completes (.oscValid d) s (fun t => At s t .pll (s.plat.from_ + d + 32768))) ∧
  (∀ (d : Nat) (s : State), s.atStep .pll = true → Completes (.pllLock d) s (fun t => At s t .fuses (s.plat.from_ + min d 40000))) ∧
  (∀ s : State, s.atStep .pin = true → Completes .resetRelease s (fun t => At s t .fuses s.now)) ∧
  (∀ s : State, s.atStep .fuses = true → s.plat.watchOk = false →
    Completes .fuseReadDone s (fun t => t.plat.power = .run ∧ t.now = max s.now (alignUp 8 (s.plat.from_ + 16000)) ∧ t.rel = t.now ∧ t.rasp.fillAt = some t.now ∧
      (∀ k, k < 8 → t.reg (Reg.FUSE.KEYHASH k) = lget 0#32 s.plat.fuses k) ∧ t.reg Reg.FUSE.SVN = lget 0#32 s.plat.fuses 8 ∧ t.reg Reg.FUSE.CFG = (lget 0#32 s.plat.fuses 9 &&& 1#32) ∧
      t.b Reg.CLK.STATUS 31 = true ∧ t.b Reg.CLK.STATUS 30 = false ∧ t.b Reg.CLK.STATUS 26 = s.plat.x32 ∧ t.b Reg.CLK.STATUS 0 = s.plat.xmode ∧ SameMem s t)) ∧
  (∀ s : State, Completes .lossOfVaon s (fun t => t.plat.power = .off ∧ t.plat.fuses = s.plat.fuses ∧ (∀ a, t.reg a = regReset a) ∧ t.pending = s.pending)) ∧
  (∀ s : State, s.plat.power ≠ .off → Completes .x32CrystalValid s (fun t => t.plat.x32 = true ∧ (s.dozing = true → t.b Reg.CLK.STATUS 26 = true) ∧ SameRegs s t [Reg.CLK.STATUS] ∧ SameMem s t)) ∧
  (∀ (ok : Bool) (s : State), s.dozing = false → Completes (.watchokChange ok) s (fun t => t.plat.watchOk = ok ∧ SameRegs s t [] ∧ SameMem s t))

/-- R595, R596, R613, R615: the boot ROM takes the image of one source after the other; the first that passes the checks starts the copies at its entry; one that fails leaves its code, and after the last every copy waits. -/
def Obligations.Boot : Prop :=
  (∀ (bytes : List Nat) (src : Nat) (s : State), (Instr.bootImageLoad bytes).wf = true → s.awake = true → s.plat.boot.cur = some src →
    (src = 2 → Completes (.bootImageLoad bytes) s (fun t => t.plat.boot.img = some s.plat.boot.bytes ∧ SameRegs s t [] ∧ SameMem s t)) ∧
    (src ≠ 2 → Completes (.bootImageLoad bytes) s (fun t => t.plat.boot.img = some bytes ∧ t.now = max s.now (s.plat.boot.from_ + 32 * bytes.length) ∧ SameRegs s t [] ∧ SameMem s t))) ∧
  (∀ (src : Nat) (m : List Nat) (s : State), s.awake = true → s.plat.boot.cur = some src → s.plat.boot.img = some m →
    let code := imageCode (s.b Reg.FUSE.CFG 0) ((List.range 8).flatMap (fun k => leBytes (s.reg (Reg.FUSE.KEYHASH k)).toNat 4)) (popcount 32 (s.reg Reg.FUSE.SVN).toNat) m
    (code = 0 → Completes .imageVerify s (fun t => t.b Reg.BOOT.STATUS 31 = true ∧ t.f Reg.BOOT.STATUS 27 26 = src % 4 ∧ t.b Reg.BOOT.STATUS 29 = !s.b Reg.FUSE.CFG 0 ∧
      t.reg Reg.BOOT.IMGSVN = BitVec.ofNat 32 (leNat ((m.drop 0x10).take 4)) ∧ t.reg Reg.BOOT.IMGLEN = BitVec.ofNat 32 (256 + leNat ((m.drop 8).take 4)) ∧ t.ped.rom = false ∧
      (∀ k, k < 3 → ∃ a, (t.core (96 + k)).cur = some a ∧ a.pc = BitVec.ofNat 32 (0xD0000000 + leNat ((m.drop 0xC).take 4))) ∧
      SameRegs s t [Reg.BOOT.STATUS, Reg.BOOT.IMGSVN, Reg.BOOT.IMGLEN])) ∧
    (∀ (k : Nat) (r : List Nat), code ≠ 0 → s.plat.boot.sources = k :: r → Completes .imageVerify s (fun t => t.f Reg.BOOT.STATUS 7 0 = code ∧ t.plat.boot.cur = some k ∧
      t.plat.boot.sources = r ∧ t.plat.boot.img = none ∧ SameRegs s t [Reg.BOOT.STATUS] ∧ SameMem s t)) ∧
    (code ≠ 0 → s.plat.boot.sources = [] → Completes .imageVerify s (fun t => t.f Reg.BOOT.STATUS 7 0 = code ∧ t.b Reg.BOOT.STATUS 30 = true ∧
      (∀ k, k < 3 → ∃ a, (t.core (96 + k)).cur = some a ∧ a.wait = true) ∧ SameRegs s t [Reg.BOOT.STATUS] ∧ SameMem s t))) ∧
  (∀ (k : Nat) (r : List Nat) (s : State), s.awake = true → s.plat.boot.wait = true → s.plat.boot.sources = k :: r →
    Completes .bootSourceTimeout s (fun t => t.f Reg.BOOT.STATUS 7 0 = 7 ∧ t.plat.boot.cur = some k ∧ t.now = max s.now (s.plat.boot.from_ + (if s.plat.boot.got then 8000000 else 800000000)) ∧
      SameRegs s t [Reg.BOOT.STATUS] ∧ SameMem s t))

/-- R592, R593: each cause of reset leaves its mark in RST and returns every register outside the always-on island to its reset value. -/
def Sys2Proof.Claims.Resets : Prop :=
  (∀ s : State, s.dozing = true → s.plat.resetAt ≠ some s.now → Completes .pinReset s (fun t => ResetTo s t 2 .pin ∧ t.now = s.now)) ∧
  (∀ (rail : Nat) (s : State), rail < 4 → s.dozing = true → s.plat.resetAt ≠ some s.now →
    Completes (.brownout rail) s (fun t => ResetTo s t 3 .wait ∧ t.plat.coreEn = false ∧ t.plat.ioEn = false ∧ t.plat.from_ = s.now + 8000000)) ∧
  (∀ (k v : Nat) (s : State), (Instr.overtemp k v).wf = true → s.dozing = true → s.plat.resetAt ≠ some s.now → 2160 ≤ sx 16 v →
    Completes (.overtemp k v) s (fun t => ResetTo s t 4 .wait ∧ t.plat.coreEn = false ∧ t.plat.ioEn = false ∧ t.plat.from_ = s.now + 800000000)) ∧
  (∀ (rq : Rq) (s : State), rq.ok = true → s.writable rq Reg.RST.CTL = true → s.plat.resetAt ≠ some s.now → Completes (.systemSoftReset rq) s (fun t => ResetTo s t 5 .fuses ∧ t.now = s.now))

/-- R456, R578, R580, R590: a supply warning, a lost clock and a hot sensor show in their registers and open a device-wide episode whose level lasts as long as they do. -/
def Obligations.Warnings : Prop :=
  (∀ (rail : Nat) (s : State), rail < 4 → s.awake = true → s.calm 1 →
    Completes (.supplyWarning rail) s (fun t => t.b Reg.PWR.STATUS (16 + rail) = true ∧ Announced t 1 rail ∧ SameRegs s t [Reg.PWR.STATUS, Reg.DEVICE.DWSTAT] ∧ SameMem s t)) ∧
  (∀ s : State, s.awake = true → Completes (.supplyWarning 4) s (fun t => t.b Reg.PWR.STATUS 20 = true ∧ SameRegs s t [Reg.PWR.STATUS] ∧ t.flight = s.flight ∧ SameMem s t)) ∧
  (∀ (rail : Nat) (s : State), rail < 5 → s.awake = true →
    Completes (.supplyWarningEnd rail) s (fun t => t.b Reg.PWR.STATUS (16 + rail) = false ∧ (t.f Reg.PWR.STATUS 19 16 = 0 → t.b Reg.DEVICE.DWSTAT 0 = false) ∧
      (t.f Reg.PWR.STATUS 19 16 ≠ 0 → t.reg Reg.DEVICE.DWSTAT = s.reg Reg.DEVICE.DWSTAT) ∧ SameRegs s t [Reg.PWR.STATUS, Reg.DEVICE.DWSTAT] ∧ SameMem s t)) ∧
  (∀ s : State, s.dozing = true → s.calm 5 →
    Completes .clockLoss s (fun t => t.b Reg.CLK.STATUS 31 = false ∧ t.b Reg.CLK.STATUS 30 = true ∧ Counted s t Reg.CLK.LOSSCNT ∧ Announced t 5 0 ∧
      SameRegs s t [Reg.CLK.STATUS, Reg.CLK.LOSSCNT, Reg.DEVICE.DWSTAT] ∧ SameMem s t)) ∧
  (∀ s : State, s.dozing = true → s.b Reg.CLK.STATUS 30 = true →
    Completes .clockRecover s (fun t => t.b Reg.CLK.STATUS 31 = true ∧ t.b Reg.CLK.STATUS 30 = false ∧ t.b Reg.DEVICE.DWSTAT 4 = false ∧
      SameRegs s t [Reg.CLK.STATUS, Reg.DEVICE.DWSTAT] ∧ SameMem s t)) ∧
  (∀ (k v : Nat) (s : State), (Instr.throttleStart k v).wf = true → s.awake = true → s.arm.tasks = [] → s.calm 2 → s.f Reg.THERM.THROT 12 0 = 0 →
    (s.tlim ≤ sx 16 v → Completes (.throttleStart k v) s (fun t => t.b Reg.THERM.THROT k = true ∧ t.reg (Reg.THERM.TEMP k) = BitVec.ofNat 32 v ∧ Announced t 2 k ∧
      SameRegs s t [Reg.THERM.TEMP k, Reg.THERM.TMAX, Reg.THERM.THROT, Reg.DEVICE.DWSTAT] ∧ SameMem s t)) ∧
    (sx 16 v < s.tlim → Completes (.throttleStart k v) s (fun t => t.reg (Reg.THERM.TEMP k) = BitVec.ofNat 32 v ∧ SameRegs s t [Reg.THERM.TEMP k, Reg.THERM.TMAX] ∧ SameMem s t))) ∧
  (∀ (k v : Nat) (s : State), (Instr.throttleEnd k v).wf = true → s.awake = true → s.arm.tasks = [] → s.b Reg.THERM.THROT k = true → sx 16 v ≤ s.tlim - 80 →
    Completes (.throttleEnd k v) s (fun t => t.b Reg.THERM.THROT k = false ∧ t.reg (Reg.THERM.TEMP k) = BitVec.ofNat 32 v ∧
      (t.f Reg.THERM.THROT 12 0 = 0 → t.b Reg.DEVICE.DWSTAT 1 = false) ∧ SameRegs s t [Reg.THERM.TEMP k, Reg.THERM.TMAX, Reg.THERM.THROT, Reg.DEVICE.DWSTAT] ∧ SameMem s t))

/-- R581-R585: a power state is entered only with every safety output at 0; DOZE waits until all is idle and ends with an event or a wake source; WATCH and SHELF take their steps and drop the rails; a wake source starts the device with its cause recorded. -/
def Sys2Proof.Claims.PowerStates : Prop :=
  (∀ (rq : Rq) (s : State), rq.ok = true → s.writable rq Reg.PWR.CMD = true → s.reg Reg.PEDESTAL.PSOUT0 = 0#32 → s.reg Reg.PEDESTAL.PSOUT1 = 0#32 → s.b Reg.PWR.STATUS 31 = false →
    Completes (.doze rq) s (fun t => t.plat.dozing = true ∧ t.plat.power = .run ∧ t.b Reg.PWR.STATUS 31 = true ∧ t.reg Reg.PWR.CMD = 1#32 ∧ SameRegs s t [Reg.PWR.CMD, Reg.PWR.STATUS] ∧ SameMem s t) ∧
    Completes (.watch rq) s (fun t => t.plat.down = some ⟨.watch, s.now, 0⟩ ∧ t.line.keeper.isSome = true ∧ t.b Reg.PWR.STATUS 31 = true ∧ t.reg Reg.PWR.CMD = 2#32 ∧ t.reg Reg.PWR.WAKEREC0 = 0#32 ∧
      SameRegs s t [Reg.PWR.CMD, Reg.PWR.STATUS, Reg.PWR.WAKEREC0, Reg.PWR.WAKEREC1, Reg.PWR.WAKEMASK_LO, Reg.PWR.WAKEMASK_HI] ∧ SameMem s t) ∧
    Completes (.shelf rq) s (fun t => t.plat.down = some ⟨.shelf, s.now, 0⟩ ∧ t.plat.arms = [] ∧ t.b Reg.PWR.STATUS 31 = true ∧ t.reg Reg.PWR.CMD = 3#32 ∧ t.reg Reg.PWR.WAKEREC0 = 0#32 ∧
      SameRegs s t [Reg.PWR.CMD, Reg.PWR.STATUS, Reg.PWR.WAKEREC0, Reg.PWR.WAKEREC1, Reg.PWR.WAKEMASK_LO, Reg.PWR.WAKEMASK_HI] ∧ SameMem s t)) ∧
  (∀ (rq : Rq) (s : State), rq.ok = true → s.writable rq Reg.PWR.CMD = true → s.reg Reg.PEDESTAL.PSOUT0 ≠ 0#32 →
    Completes (.doze rq) s (fun t => t.plat = s.plat ∧ t.b (Reg.PWR.page + 0x18) 31 = true ∧ SameRegs s t [Reg.PWR.page + 0xC, Reg.PWR.page + 0x18]) ∧
    Completes (.watch rq) s (fun t => t.plat = s.plat ∧ t.b (Reg.PWR.page + 0x18) 31 = true ∧ SameRegs s t [Reg.PWR.page + 0xC, Reg.PWR.page + 0x18]) ∧
    Completes (.shelf rq) s (fun t => t.plat = s.plat ∧ t.b (Reg.PWR.page + 0x18) 31 = true ∧ SameRegs s t [Reg.PWR.page + 0xC, Reg.PWR.page + 0x18])) ∧
  (∀ s : State, s.awake = true → s.plat.dozing = true → s.allIdle = true →
    Completes .dozeEntry s (fun t => t.plat.power = .doze ∧ t.plat.dozing = false ∧ t.b Reg.PWR.STATUS 31 = false ∧ (∀ e, e < 96 → (t.core e).gated = true) ∧ SameRegs s t [Reg.PWR.STATUS] ∧ SameMem s t)) ∧
  (∀ (src : Nat) (s : State), s.plat.power = .doze → src = 4 ∨ (src < 4 ∧ s.b Reg.PWR.WAKEEN src = true) →
    Completes (.dozeWake src) s (fun t => t.plat.power = .run ∧ t.now = s.now + 1 ∧ SameRegs s t [] ∧ SameMem s t)) ∧
  (∀ (d : DownSt) (s : State), s.plat.down = some d →
    (d.step = 0 → Completes .powerDownStep s (fun t => t.now = max s.now (d.at_ + 1600) ∧ t.plat.down = some { d with step := 1 } ∧ SameRegs s t [] ∧ SameMem s t)) ∧
    (d.step = 1 → Completes .powerDownStep s (fun t => t.now = max s.now (d.at_ + 8000) ∧ t.plat.ioEn = false ∧ t.plat.down = some { d with step := 2 } ∧ SameRegs s t [] ∧ SameMem s t)) ∧
    (2 ≤ d.step → Completes .powerDownStep s (fun t => t.now = max s.now (d.at_ + 808000) ∧ t.plat.power = d.target ∧ t.plat.coreEn = false ∧ t.plat.down = none ∧
      t.line.keeper = s.line.keeper ∧ (∀ a, islandReg a = false → t.reg a = regReset a) ∧ (∀ a, islandReg a = true → t.reg a = s.reg a)))) ∧
  (∀ (n : Nat) (s : State), n < 4 → s.wakeArmed false = true → s.plat.power ≠ .off → s.plat.power ≠ .start → s.b Reg.PWR.WAKEEN n = true → s.plat.resetAt ≠ some s.now →
    Completes (.wakePin n) s (fun t => ResetTo s t 8 .core ∧ t.f Reg.PWR.WAKEREC0 31 28 = 9 ∧ t.b Reg.PWR.WAKEREC0 n = true)) ∧
  (∀ s : State, s.wakeArmed false = true → s.plat.power ≠ .off → s.plat.power ≠ .start → s.b Reg.PWR.WAKEEN 31 = true → s.plat.resetAt = none →
    Completes .wakeTimer s (fun t => ResetTo s t 8 .core ∧ t.reg Reg.PWR.WAKEREC0 = 0xA0000000#32 ∧ s.now ≤ t.now)) ∧
  (∀ (c : Nat) (above : Bool) (a : Nat × Nat) (s : State), c < 48 → s.wakeArmed true = true → s.plat.power ≠ .off → s.plat.power ≠ .start → s.b Reg.PWR.WAKEEN 29 = true →
    (c, a) ∈ s.plat.arms → s.plat.resetAt ≠ some s.now →
    Completes (.wakeShock c above) s (fun t => ResetTo s t 8 .core ∧ t.f Reg.PWR.WAKEREC0 31 28 = 12 ∧ t.f Reg.PWR.WAKEREC0 21 16 = c ∧ t.b Reg.PWR.WAKEREC0 22 = above ∧
      (c < 32 → t.b Reg.PWR.WAKEMASK_LO c = true) ∧ (32 ≤ c → t.b Reg.PWR.WAKEMASK_HI (c - 32) = true)))

/-- R475, R586, R587, R601: under AUTO an engine idle for 1,024 CCLK loses its power and gets it back by its wake time; a fuse once programmed stays, and key words stay as they are after the key is programmed. -/
def Sys2Proof.Claims.GatingAndFuses : Prop :=
  (∀ (e : Nat) (s : State), e < 96 → s.awake = true → s.f (Reg.ENG.page e + 8) 5 4 = 0 → (s.core e).gated = false → (s.core e).cur = none → (s.core e).saved = [] → (s.core e).wbuf = [] →
    (s.core e).rst = none → (s.core e).halted = none → (∀ n, n < 64 → s.slotF e n 31 31 = 0) →
    Completes (.enginePowerGate e) s (fun t => (t.core e).gated = true ∧ t.now = max s.now ((s.core e).idleAt + 1024) ∧ (∀ j, j ≠ e → t.core j = s.core j) ∧ SameRegs s t [] ∧ SameMem s t)) ∧
  (∀ (e u : Nat) (s : State), e < 96 → s.awake = true → (s.core e).wakeAt = some u →
    Completes (.enginePowerUp e) s (fun t => (t.core e).gated = false ∧ (t.core e).wakeAt = none ∧ t.now = max s.now u ∧ (∀ j, j ≠ e → t.core j = s.core j) ∧ SameRegs s t [] ∧ SameMem s t)) ∧
  (∀ (rq : Rq) (w b : Nat) (s : State), (Instr.fuseProgram rq w b).wf = true → s.writable rq Reg.FUSE.PGM = true → s.plat.pgm = none →
    (w ≤ 9 → ¬(w < 8 ∧ s.b Reg.FUSE.CFG 0 = true) → Completes (.fuseProgram rq w b) s (fun t => t.plat.pgm = some (s.now + 8000) ∧ t.b Reg.FUSE.PGM 30 = true ∧ t.f Reg.FUSE.PGM 12 8 = w ∧
      t.f Reg.FUSE.PGM 4 0 = b ∧ t.plat.fuses = s.plat.fuses ∧ SameRegs s t [Reg.FUSE.PGM] ∧ SameMem s t)) ∧
    (9 < w ∨ (w < 8 ∧ s.b Reg.FUSE.CFG 0 = true) → Completes (.fuseProgram rq w b) s (fun t => t.plat = s.plat ∧ t.b (Reg.FUSE.page + 0x18) 31 = true ∧
      SameRegs s t [Reg.FUSE.page + 0xC, Reg.FUSE.page + 0x18] ∧ SameMem s t))) ∧
  (∀ (u : Nat) (s : State), s.awake = true → s.plat.pgm = some u → s.f Reg.FUSE.PGM 12 8 < s.plat.fuses.length →
    Completes .fuseProgramDone s (fun t => t.plat.pgm = none ∧ t.b Reg.FUSE.PGM 30 = false ∧ t.now = max s.now u ∧
      lget 0#32 t.plat.fuses (s.f Reg.FUSE.PGM 12 8) = (lget 0#32 s.plat.fuses (s.f Reg.FUSE.PGM 12 8) ||| BitVec.ofNat 32 (2 ^ s.f Reg.FUSE.PGM 4 0)) ∧
      (∀ w, w ≠ s.f Reg.FUSE.PGM 12 8 → lget 0#32 t.plat.fuses w = lget 0#32 s.plat.fuses w) ∧ SameRegs s t [Reg.FUSE.PGM] ∧ SameMem s t))

/-- Start-up and the resets (R579, R581, R592-R594). -/
def Obligations.StartUpAndResets : Prop := Claims.StartUp ∧ Claims.Resets

/-- Power states, gated engines and fuses (R475, R581-R587, R601). -/
def Obligations.PowerControl : Prop := Claims.PowerStates ∧ Claims.GatingAndFuses

/-! ## Host ports (chapter 21) -/

/-- R603-R608: a kick makes a waiting transmit side look at its descriptor, and fetch the frame an owned one names, padded to 60 bytes; a frame leaves with its CRC; a received one must have a right FCS, a legal length and a wanted address, and goes where an owned descriptor says, or is counted lost. -/
def Obligations.Ethernet : Prop :=
  (∀ (rq : Rq) (n : Nat) (s : State), (Instr.txkick rq n).wf = true → s.writable rq (Reg.ETH.TXKICK n) = true →
    ((s.eth n).wait = false → Completes (.txkick rq n) s (fun t => t.eth n = { s.eth n with kick := true } ∧ SameRegs s t [] ∧ SameMem s t)) ∧
    (∀ (v b : Nat) (u w : State), (s.eth n).wait = true → s.runs (Reg.ETH.page n) = true → s.b (Reg.ETH.STATUS n) 31 = false → (s.eth n).tx = none →
      let i := s.f (Reg.ETH.TXHEAD n) 9 0
      let len := bitsOf v 43 32
      ethRead n (s.ethDesc (Reg.ETH.TXRING n) i) 16 (s.setEth n { s.eth n with wait := false }) = (.val v, u) → bitOf v 63 = true → 14 ≤ len → len ≤ u.ethMax n →
      ethRead n (v % 2 ^ 32) len u = (.val b, w) →
      Completes (.txkick rq n) s (fun t => (t.eth n).tx = some ⟨i, bitOf v 62, leBytes b len ++ List.replicate (60 - len) 0, 0⟩ ∧ (t.eth n).wait = false ∧ SameRegs w t [] ∧ SameMem w t))) ∧
  (∀ (n sfd done : Nat) (x : EthTx) (s : State), n < 2 → s.awake = true → (s.eth n).tx = some x →
    Completes (.ethTxDone n sfd done) s (fun t => (t.eth n).sent = x.frame ++ leBytes (crc32 x.frame) 4 ∧ max s.now done ≤ t.now)) ∧
  (∀ (n sfd done : Nat) (b : List Nat) (fcs : Bool) (s : State), (Instr.ethRxFrame n b fcs sfd done).wf = true → s.awake = true → s.runs (Reg.ETH.page n) = true →
    (fcs = false → Completes (.ethRxFrame n b fcs sfd done) s (fun t => Counted s t (Reg.ETH.CRCERR n) ∧ t.now = max s.now done ∧ SameRegs s t [Reg.ETH.CRCERR n] ∧ SameMem s t)) ∧
    (fcs = true → b.length < 60 ∨ s.ethMax n < b.length ∨ s.ethTakes n b = false → Completes (.ethRxFrame n b fcs sfd done) s (fun t => t.now = max s.now done ∧ SameRegs s t [] ∧ SameMem s t)) ∧
    (∀ (v : Nat) (u : State), fcs = true → 60 ≤ b.length → b.length ≤ s.ethMax n → s.ethTakes n b = true → s.b (Reg.ETH.STATUS n) 30 = false →
      let i := s.f (Reg.ETH.RXHEAD n) 9 0
      let d := s.ethDesc (Reg.ETH.RXRING n) i
      ethRead n d 8 (s.moveTo done) = (.val v, u) →
      (bitOf (v / 2 ^ 32) 31 = false → Completes (.ethRxFrame n b fcs sfd done) s (fun t => Counted u t (Reg.ETH.RXDROP n) ∧ SameRegs u t [Reg.ETH.RXDROP n] ∧ SameMem u t)) ∧
      (∀ (w : Nat) (x : State), bitOf (v / 2 ^ 32) 31 = true →
        let m := min b.length (u.f (Reg.ETH.RXBUF n) 11 0)
        ethWriteMem n (v % 2 ^ 32) m (leNat (b.take m)) u = (.val w, x) →
        let ns := (x.timeAt sfd - (x.f (Reg.ETH.LAT n) 11 0 : Nat) * 2 ^ 38) / nsUnit
        let y := (ethWriteMem n (d + 8) 8 ((ns % 1000000000).toNat + (ns / 1000000000 % 2 ^ 32).toNat * 2 ^ 32) x).2
        let z := (ethWriteMem n (d + 4) 4 (descWord (v / 2 ^ 32) 0 (if m < b.length then 3 else 0) m) y).2
        Completes (.ethRxFrame n b fcs sfd done) s (fun t => t.reg (Reg.ETH.RXHEAD n) = BitVec.ofNat 32 ((i + 1) % z.ethCount (Reg.ETH.RXRING n)) ∧ SameRegs z t [Reg.ETH.RXHEAD n] ∧ SameMem z t))))

/-- R609, R616: MDIO and the flash controller take one transfer at a time, show it as busy, and at its end hold what was read. -/
def Sys2Proof.Claims.SerialTransfers : Prop :=
  (∀ (rq : Rq) (read : Bool) (phy reg data : Nat) (s : State), (Instr.mdioTransfer rq read phy reg data).wf = true → s.writable rq (Reg.ETH.MDIO 0) = true →
    Completes (.mdioTransfer rq read phy reg data) s (fun t => t.host.mdio = true ∧ t.b (Reg.ETH.MDIO 0) 30 = true ∧ t.b (Reg.ETH.MDIO 0) 29 = read ∧ t.f (Reg.ETH.MDIO 0) 25 21 = phy ∧
      t.f (Reg.ETH.MDIO 0) 20 16 = reg ∧ t.f (Reg.ETH.MDIO 0) 15 0 = data ∧ SameRegs s t [Reg.ETH.MDIO 0] ∧ SameMem s t)) ∧
  (∀ (data : Nat) (s : State), (Instr.mdioDone data).wf = true → s.awake = true → s.host.mdio = true →
    Completes (.mdioDone data) s (fun t => t.host.mdio = false ∧ t.b (Reg.ETH.MDIO 0) 30 = false ∧ (s.b (Reg.ETH.MDIO 0) 29 = true → t.f (Reg.ETH.MDIO 0) 15 0 = data) ∧
      (s.b (Reg.ETH.MDIO 0) 29 = false → t.f (Reg.ETH.MDIO 0) 15 0 = s.f (Reg.ETH.MDIO 0) 15 0) ∧ SameRegs s t [Reg.ETH.MDIO 0] ∧ SameMem s t)) ∧
  (∀ (rq : Rq) (v : Nat) (s : State), (Instr.qspiTransfer rq v).wf = true → s.writable rq Reg.QSPI.XCTL = true → bitsOf v 27 26 ≠ 3 → bitsOf v 25 24 ≠ 3 →
    (s.host.qspi = none → bitOf v 28 = true ∨ s.f Reg.QSPI.XLEN 16 0 ≤ 64 → Completes (.qspiTransfer rq v) s (fun t => t.host.qspi = some (s.now + s.qspiTime v) ∧ t.b Reg.QSPI.XCTL 30 = true ∧
      t.f Reg.QSPI.XCTL 29 16 = bitsOf v 29 16 ∧ t.f Reg.QSPI.XCTL 7 0 = bitsOf v 7 0 ∧ SameRegs s t [Reg.QSPI.XCTL] ∧ SameMem s t)) ∧
    (s.host.qspi ≠ none → Completes (.qspiTransfer rq v) s (fun t => t.host = s.host ∧ t.b (Reg.QSPI.page + 0x18) 31 = true ∧
      SameRegs s t [Reg.QSPI.page + 0xC, Reg.QSPI.page + 0x18] ∧ SameMem s t))) ∧
  (∀ (b : List Nat) (u : Nat) (s : State), (Instr.qspiDone b).wf = true → s.awake = true → s.host.qspi = some u → s.b Reg.QSPI.XCTL 29 = false → s.b Reg.QSPI.XCTL 28 = false →
    b.length = s.f Reg.QSPI.XLEN 16 0 →
    Completes (.qspiDone b) s (fun t => t.host.qspi = none ∧ t.now = max s.now u ∧ t.b Reg.QSPI.XCTL 30 = false ∧ t.b (Reg.QSPI.page + 0xC) 0 = true ∧
      (∀ k, k < 16 → 4 * k < b.length → t.reg (Reg.QSPI.DATA k) = BitVec.ofNat 32 (leNat ((b.drop (4 * k)).take 4))) ∧
      SameRegs s t ([Reg.QSPI.XCTL, Reg.QSPI.page + 0xC] ++ (List.range 16).map Reg.QSPI.DATA) ∧ SameMem s t))

/-- R611-R614: host writes wait in order in a queue of 16 and are performed one by one, refused outside registers and window; a read answers with a marker and its word, or an error; the boot queue takes words while the ROM waits, and each is popped once. -/
def Sys2Proof.Claims.HostSpi : Prop :=
  (∀ (a : Nat) (w : Word) (s : State), (Instr.hspiWrite a [w]).wf = true → s.awake = true → s.off Reg.HSPI.page = false →
    (s.host.hspi.wq.length < 16 → Completes (.hspiWrite a [w]) s (fun t => t.host.hspi = { s.host.hspi with wq := s.host.hspi.wq ++ [(a, w)] } ∧ SameRegs s t [] ∧ SameMem s t)) ∧
    (16 ≤ s.host.hspi.wq.length → Completes (.hspiWrite a [w]) s (fun t => t.host.hspi = { s.host.hspi with wovf := true } ∧ SameRegs s t [] ∧ SameMem s t))) ∧
  (∀ (a : Nat) (s : State), a < 2 ^ 40 → s.awake = true → s.off Reg.HSPI.page = false →
    (s.hspiRefused a = true → Completes (.hspiRead a 1) s (fun t => t.host.hspi = { s.host.hspi with miso := [0xFF, 0xE0, 0, 0, 0, 0] } ∧ SameRegs s t [] ∧ SameMem s t)) ∧
    (∀ (d : Nat) (u : State), s.hspiRefused a = false → a % 4 = 0 → s.accessHeld s.hspiRq a none = false → busPerform s.hspiRq 1 a 4 none s = (.ok, d, u) →
      Completes (.hspiRead a 1) s (fun t => t.host.hspi.miso = [0xFF, 0x5A] ++ leBytes d 4 ∧ SameRegs u t [] ∧ SameMem u t))) ∧
  (∀ s : State, s.awake = true → s.off Reg.HSPI.page = false →
    Completes .hspiStatus s (fun t => t.host.hspi = { s.host.hspi with miso := [s.hspiStatus], werr := false, wovf := false } ∧ SameRegs s t [] ∧ SameMem s t)) ∧
  (∀ (m : Nat) (s : State), (Instr.hspiIrqack m).wf = true → s.awake = true → s.off Reg.HSPI.page = false →
    Completes (.hspiIrqack m) s (fun t => t.reg Reg.HSPI.HOSTIRQ = (s.reg Reg.HSPI.HOSTIRQ &&& ~~~(BitVec.ofNat 32 m)) ∧ SameRegs s t [Reg.HSPI.HOSTIRQ] ∧ SameMem s t)) ∧
  (∀ (w : Word) (s : State), s.awake = true → s.off Reg.HSPI.page = false →
    (s.plat.boot.wait = true → s.host.hspi.boot.length < 64 → Completes (.hspiBootload [w]) s (fun t => t.host.hspi.boot = s.host.hspi.boot ++ [w] ∧ t.host.hspi.pushAt = some s.now ∧ SameRegs s t [])) ∧
    (s.plat.boot.wait = false → Completes (.hspiBootload [w]) s (fun t => t.host.hspi = { s.host.hspi with wovf := true } ∧ SameRegs s t []))) ∧
  (∀ (a : Nat) (w : Word) (r : List (Nat × Word)) (s : State), s.awake = true → s.host.hspi.wq = (a, w) :: r →
    (s.hspiRefused a = true → Completes .hspiWritePerform s (fun t => t.host.hspi = { s.host.hspi with wq := r, werr := true } ∧ SameRegs s t [] ∧ SameMem s t)) ∧
    (∀ (d : Nat) (u : State), s.hspiRefused a = false → s.accessHeld s.hspiRq a (some w.toNat) = false →
      busPerform s.hspiRq 1 a 4 (some w.toNat) (s.setHspi { s.host.hspi with wq := r }) = (.ok, d, u) → Completes .hspiWritePerform s (fun t => t = u))) ∧
  (∀ (w : Word) (r : List Word) (s : State), s.awake = true → s.readable ⟨0, 0, 97, false⟩ (Reg.HSPI.page + 0x50) = true → s.host.hspi.boot = w :: r → s.host.hspi.pushAt ≠ some s.now →
    s.plat.boot.wait = true →
    Completes .bootdataPop s (fun t => t.data = w.setWidth 64 ∧ t.host.hspi.boot = r ∧ t.plat.boot.bytes = s.plat.boot.bytes ++ leBytes w.toNat 4 ∧ SameRegs s t [] ∧ SameMem s t))

/-- R617, R618: SET and CLR change the outputs named alone; an edge that its pin's INCFG watches is recorded. -/
def Sys2Proof.Claims.Gpio : Prop :=
  (∀ (rq : Rq) (v : Nat) (s : State), (Instr.gpioSet rq v).wf = true → s.writable rq Reg.GPIO.SET = true → s.host.gpio.acts = [] →
    Completes (.gpioSet rq v) s (fun t => t.reg Reg.GPIO.OUT = (s.reg Reg.GPIO.OUT ||| BitVec.ofNat 32 v) ∧ SameRegs s t [Reg.GPIO.OUT] ∧ SameMem s t)) ∧
  (∀ (rq : Rq) (v : Nat) (s : State), (Instr.gpioClr rq v).wf = true → s.writable rq Reg.GPIO.CLR = true → s.host.gpio.acts = [] →
    Completes (.gpioClr rq v) s (fun t => t.reg Reg.GPIO.OUT = (s.reg Reg.GPIO.OUT &&& ~~~(BitVec.ofNat 32 v)) ∧ SameRegs s t [Reg.GPIO.OUT] ∧ SameMem s t)) ∧
  (∀ (v : Nat) (s : State), (Instr.gpioEdge v).wf = true → s.awake = true →
    Completes (.gpioEdge v) s (fun t => t.host.gpio = { s.host.gpio with pins := v } ∧ SameRegs s t [Reg.GPIO.EDGE, Reg.GPIO.page + 0xC] ∧ SameMem s t ∧
      ∀ j, j < 32 → t.b Reg.GPIO.EDGE j = (s.b Reg.GPIO.EDGE j || (bitOf v j && !bitOf s.host.gpio.pins j && s.b (Reg.GPIO.INCFG j) 28) ||
        (!bitOf v j && bitOf s.host.gpio.pins j && s.b (Reg.GPIO.INCFG j) 29))))

/-! ## Counters and debug (chapter 22) -/

/-- R620, R624, R625: ring 0 gives a unit away, which returns its registers to reset; a tagger holds one record at a time; a bandwidth window ends with its count as the last value and, where it is larger, the peak. -/
def Obligations.Counters : Prop :=
  (∀ (rq : Rq) (e j v : Nat) (s : State), (Instr.perfOwnWrite rq e j v).wf = true → s.writable rq (Reg.PERF.OWN e j) = true → rq.ring = 0 → s.log.inc = [] →
    Completes (.perfOwnWrite rq e j v) s (fun t => t.b (Reg.PERF.OWN e j) 31 = bitOf v 31 ∧ t.f (Reg.PERF.OWN e j) 8 0 = bitsOf v 8 0 ∧
      (t.reg (Reg.PERF.OWN e j) ≠ s.reg (Reg.PERF.OWN e j) → ∀ a ∈ perfUnitRegs e j, t.reg a = regReset a) ∧ SameRegs s t (Reg.PERF.OWN e j :: perfUnitRegs e j) ∧ SameMem s t)) ∧
  (∀ (e : Nat) (a : Act) (s : State), e < 96 → s.awake = true → (s.core e).cur = some a → s.b (Reg.PERF.TAGCFG e) 31 = true → s.perfOwned e 9 a.tenant = true → s.coreReady e = true →
    s.waitHeld e = false → s.host.tags.lookup e = none →
    (s.b (Reg.PERF.TAGINFO e) 31 = false → Completes (.tagChoose e) s (fun t => t.host.tags = (e, a.pc.toNat) :: s.host.tags ∧ SameRegs s t [] ∧ SameMem s t)) ∧
    (s.b (Reg.PERF.TAGINFO e) 31 = true → Completes (.tagChoose e) s (fun t => t.host.tags = s.host.tags ∧ t.reg (Reg.PERF.TAGLOST e) = s.reg (Reg.PERF.TAGLOST e) + 1#32 ∧
      SameRegs s t [Reg.PERF.TAGLOST e] ∧ SameMem s t))) ∧
  (∀ (e o n m g fd dh xw pc : Nat) (s : State), (Instr.tagComplete e o n m g fd dh xw).wf = true → s.awake = true → s.host.tags.lookup e = some pc → 1 ≤ o → o ≤ 4 → g ≤ 5 →
    Completes (.tagComplete e o n m g fd dh xw) s (fun t => t.host.tags.lookup e = none ∧ t.reg (Reg.PERF.TAGPC e) = BitVec.ofNat 32 pc ∧
      t.reg (Reg.PERF.TAGT1 e) = BitVec.ofNat 32 (min 65535 fd * 65536 + min 65535 dh) ∧ t.reg (Reg.PERF.TAGT2 e) = BitVec.ofNat 32 (min 65535 xw) ∧
      t.reg (Reg.PERF.TAGINFO e) = BitVec.ofNat 32 (2 ^ 31 + o * 2 ^ 28 + n * 2 ^ 24 + m * 2 ^ 20 + g * 2 ^ 17) ∧
      SameRegs s t [Reg.PERF.TAGPC e, Reg.PERF.TAGT1 e, Reg.PERF.TAGT2 e, Reg.PERF.TAGINFO e] ∧ SameMem s t)) ∧
  (∀ (e : Nat) (s : State), e < 96 → s.awake = true → s.b (Reg.PERF.BWCFG e) 31 = true →
    Completes (.bwWindowEnd e) s (fun t => t.reg (Reg.PERF.BWLAST e) = s.reg (Reg.PERF.BWCNT e) ∧ t.reg (Reg.PERF.BWCNT e) = 0#32 ∧ t.reg (Reg.PERF.BWWINS e) = s.reg (Reg.PERF.BWWINS e) + 1#32 ∧
      (t.reg (Reg.PERF.BWPEAK e)).toNat = max (s.reg (Reg.PERF.BWPEAK e)).toNat (s.reg (Reg.PERF.BWCNT e)).toNat ∧
      SameRegs s t [Reg.PERF.BWLAST e, Reg.PERF.BWCNT e, Reg.PERF.BWWINS e, Reg.PERF.BWPEAK e] ∧ SameMem s t))

/-- R627-R632: the test access port's instructions; EXTEST drives only in SAFE HOLD; a debug access runs alone, reaches CHAL and REQ without a session, and is refused with ERR, and zeros for a read, where no session opens its target. -/
def Sys2Proof.Claims.TestAccess : Prop :=
  (∀ s : State, s.dozing = true →
    Completes .tapExtest s (fun t => t.host.tap.driving = s.b Reg.PEDESTAL.STATUS 31 ∧ t.host.tap.ir = 0 ∧ SameRegs s t [] ∧ SameMem s t) ∧
    Completes .tapIdcode s (fun t => t.data = 0x2C048001#64 ∧ t.host.tap.driving = false ∧ SameRegs s t [] ∧ SameMem s t) ∧
    (∀ l, Completes (.tapSamplePreload l) s (fun t => t.host.tap.chain = l ∧ t.host.tap.driving = false ∧ SameRegs s t [] ∧ SameMem s t)) ∧
    (∀ b, Completes (.tapBypass b) s (fun t => t.host.tap.bypass = b ∧ t.host.tap.driving = false ∧ SameRegs s t [] ∧ SameMem s t)) ∧
    (s.dbgOpen = false → Completes .tapReset s (fun t => t.host.tap = { TapSt.idle with chain := s.host.tap.chain } ∧ SameRegs s t [] ∧ SameMem s t)) ∧
    (s.dbgOpen = true → Completes .tapReset s (fun t => t.host.tap = { TapSt.idle with chain := s.host.tap.chain } ∧ t.dbgOpen = false ∧ SameMem s t))) ∧
  (∀ (a : Nat) (v : Word) (s : State), a < 2 ^ 40 → s.dozing = true →
    (s.host.tap.acc = none → Completes (.dbgRead a) s (fun t => t.host.tap.acc = some ⟨a, none⟩ ∧ SameRegs s t [] ∧ SameMem s t) ∧
      Completes (.dbgWrite a v) s (fun t => t.host.tap.acc = some ⟨a, some v⟩ ∧ SameRegs s t [] ∧ SameMem s t)) ∧
    (s.host.tap.acc ≠ none → Completes (.dbgRead a) s (fun t => t.host.tap.acc = s.host.tap.acc ∧ t.b Reg.DEBUG.STATUS 29 = true ∧ SameRegs s t [Reg.DEBUG.STATUS] ∧ SameMem s t) ∧
      Completes (.dbgWrite a v) s (fun t => t.host.tap.acc = s.host.tap.acc ∧ t.b Reg.DEBUG.STATUS 29 = true ∧ SameRegs s t [Reg.DEBUG.STATUS] ∧ SameMem s t))) ∧
  (∀ (k : Nat) (s : State), k < 4 → s.readable ⟨0, 0, 103, true⟩ (Reg.DEBUG.CHAL k) = true → s.host.tap.acc = some ⟨Reg.DEBUG.CHAL k, none⟩ →
    Completes .dbgaccDone s (fun t => t.host.tap.acc = none ∧ t.host.tap.data = s.reg (Reg.DEBUG.CHAL k) ∧ SameRegs s t [] ∧ SameMem s t)) ∧
  (∀ (k : Nat) (v : Word) (s : State), k < 15 → s.writable ⟨0, 0, 103, true⟩ (Reg.DEBUG.REQ k) = true → s.host.tap.acc = some ⟨Reg.DEBUG.REQ k, some v⟩ →
    Completes .dbgaccDone s (fun t => t.host.tap.acc = none ∧ t.reg (Reg.DEBUG.REQ k) = v ∧ SameRegs s t [Reg.DEBUG.REQ k] ∧ SameMem s t)) ∧
  (∀ (a : Nat) (s : State), s.dozing = true → s.dbgOpen = false → dbgAlways a = false → s.host.tap.acc = some ⟨a, none⟩ →
    Completes .dbgaccDone s (fun t => t.host.tap.acc = none ∧ t.host.tap.data = 0#32 ∧ t.b Reg.DEBUG.STATUS 29 = true ∧ SameRegs s t [Reg.DEBUG.STATUS] ∧ SameMem s t))

/-- R508, R630-R640: a request is posted by its last word; ring 0 opens a session with its tenant, ring and rights; its close lets every engine run again; HALT, RESUME and STEP act where the session may halt the target, and break the lock-step on a copy; SYSRST resets only under a session of T0 and ring 0 with the right. -/
def Sys2Proof.Claims.DebugSessions : Prop :=
  (∀ (v : Nat) (s : State), (Instr.debugRequest v).wf = true → s.writable ⟨0, 0, 103, true⟩ (Reg.DEBUG.REQ 15) = true →
    Completes (.debugRequest v) s (fun t => t.reg (Reg.DEBUG.REQ 15) = BitVec.ofNat 32 v ∧ t.b Reg.DEBUG.STATUS 28 = true ∧ t.b (Reg.DEBUG.page + 0xC) 0 = true ∧
      SameRegs s t [Reg.DEBUG.REQ 15, Reg.DEBUG.STATUS, Reg.DEBUG.page + 0xC] ∧ SameMem s t)) ∧
  (∀ (rq : Rq) (tn ring cap : Nat) (s : State), (Instr.sessionOpen rq tn ring cap).wf = true → s.writable rq Reg.DEBUG.SESSION = true → s.dbgOpen = false →
    Completes (.sessionOpen rq tn ring cap) s (fun t => t.dbgOpen = true ∧ t.dbgTenant = tn ∧ t.dbgRing = ring ∧ t.f Reg.DEBUG.SESSION 30 27 = cap ∧ t.b Reg.DEBUG.STATUS 28 = false ∧
      SameRegs s t [Reg.DEBUG.SESSION, Reg.DEBUG.STATUS] ∧ SameMem s t)) ∧
  (∀ (rq : Rq) (s : State), rq.ok = true → s.writable rq Reg.DEBUG.SESSION = true → s.dbgOpen = true →
    Completes (.sessionClose rq) s (fun t => t.dbgOpen = false ∧ (∀ e, e < 96 → (t.core e).halted = none) ∧ (∀ k, k < 3 → t.reg (Reg.DEBUG.BRKEN k) = 0#32) ∧
      SameRegs s t ([Reg.DEBUG.SESSION, Reg.DEBUG.STATUS, Reg.DEBUG.CTRL] ++ (List.range 3).map Reg.DEBUG.BRKEN ++ (List.range 4).map Reg.DEBUG.CHAL) ∧ SameMem s t)) ∧
  (∀ (e : Nat) (s : State), e < 96 → s.writable ⟨0, 0, 103, true⟩ Reg.DEBUG.ECMD = true → s.dbgOpen = true →
    (s.dbgCap 30 = true → s.dbgEngine e = true →
      Completes (.halt e) s (fun t => (t.core e).halted = some .command ∧ (t.core e).stepReq = false ∧ (t.core e).cur = (s.core e).cur ∧ (∀ j, j ≠ e → t.core j = s.core j) ∧
        SameRegs s t [Reg.DEBUG.ECMD] ∧ SameMem s t) ∧
      ((s.core e).halted.isSome = true → Completes (.resume e) s (fun t => (t.core e).halted = none ∧ (t.core e).resv = none ∧ (t.core e).cur = (s.core e).cur ∧
        (∀ j, j ≠ e → t.core j = s.core j) ∧ SameRegs s t [Reg.DEBUG.ECMD] ∧ SameMem s t)) ∧
      (s.haltDone e = true → Completes (.step e) s (fun t => (t.core e).stepReq = true ∧ (t.core e).halted = (s.core e).halted ∧ (∀ j, j ≠ e → t.core j = s.core j) ∧
        SameRegs s t [Reg.DEBUG.ECMD] ∧ SameMem s t))) ∧
    (s.dbgCap 30 = false ∨ s.dbgEngine e = false → ∀ i ∈ [Instr.halt e, Instr.resume e, Instr.step e],
      Completes i s (fun t => t.cores = s.cores ∧ t.b Reg.DEBUG.STATUS 29 = true ∧ SameRegs s t [Reg.DEBUG.STATUS, Reg.DEBUG.page + 0xC, Reg.DEBUG.page + 0x18] ∧ SameMem s t))) ∧
  (∀ (k : Nat) (s : State), k < 3 → s.writable ⟨0, 0, 103, true⟩ Reg.DEBUG.ECMD = true → s.dbgRoot = true → s.dbgCap 30 = true → s.voters = [0, 1, 2] → s.pedQuiet →
    Completes (.halt (96 + k)) s (fun t => (t.core (96 + k)).halted = some .command ∧ t.inVote k = false ∧ t.ped.broken = some k ∧ t.b Reg.PEDESTAL.STATUS 30 = true ∧
      t.b Reg.PEDESTAL.STATUS 31 = true ∧ t.reg Reg.PEDESTAL.LASTOUT = BitVec.ofNat 32 (6 * 2 ^ 28 + k * 2 ^ 24) ∧ SameMem s t)) ∧
  (∀ s : State, s.writable ⟨0, 0, 103, true⟩ Reg.DEBUG.CTRL = true → s.plat.resetAt ≠ some s.now →
    (s.dbgRoot = true → s.dbgCap 27 = true → Completes .debugReset s (fun t => ResetTo s t 7 .fuses ∧ t.now = s.now)) ∧
    (s.dbgOpen = true → s.dbgCap 27 = false → Completes .debugReset s (fun t => t.plat = s.plat ∧ t.b Reg.DEBUG.STATUS 29 = true ∧
      SameRegs s t [Reg.DEBUG.STATUS, Reg.DEBUG.page + 0xC, Reg.DEBUG.page + 0x18] ∧ SameMem s t)))

/-! ## The whole machine -/

/-- R581: in OFF, WATCH and SHELF a register access, the arrival of an event, a second boundary, a checkpoint or the start of a line cycle changes nothing. -/
def Sys2Proof.Claims.DarkIsStill : Prop :=
  ∀ s : State, s.dark = true →
    (∀ (rq : Rq) (a n v : Nat), (Instr.registerWrite rq a n v).wf = true → exec (.registerWrite rq a n v) s = .next s) ∧
    (∀ (rq : Rq) (a : Nat), (Instr.rcRead rq a).wf = true → exec (.rcRead rq a) s = .next s) ∧
    exec .eventArrival s = .next s ∧ exec .secondBoundary s = .next s ∧ exec .checkpoint s = .next s ∧
    (∀ p, p < 4 → exec (.cycleStart p) s = .next s)

/-- The canonical form of memory and of the tables, which makes equal contents equal data, holds at reset. -/
def Obligations.CanonicalAtReset : Prop := State.reset.canonical = true
/-- Every step keeps it. -/
def Obligations.CanonicalKept : Prop := ∀ s t : State, s.canonical = true → step s = .next t → t.canonical = true
/-- Reset leaves every register at the value its description gives (R22), the device without power (R581) and nothing under way. -/
def Sys2Proof.Claims.ResetState : Prop :=
  (∀ a, State.reset.reg a = regReset a ∧ State.reset.lreg a = regReset a) ∧ State.reset.plat.power = .off ∧ State.reset.pending = [] ∧ State.reset.flight = [] ∧ State.reset.held = [] ∧
    regReset (Reg.PWM.page 0 + 0x1C) = 0x10#32 ∧ regReset Reg.THERM.TLIM = 120#32 ∧ regReset (Reg.TENANT.TCFG 0) = 0x80000000#32

/-- The serial flash, the host SPI and the pins (R610-R618). -/
def Obligations.HostPorts : Prop := Claims.SerialTransfers ∧ Claims.HostSpi ∧ Claims.Gpio

/-- The test access port and debug sessions (R627-R640). -/
def Obligations.DebugAccess : Prop := Claims.TestAccess ∧ Claims.DebugSessions

/-- The device without power (R581), and what reset leaves (R22). -/
def Obligations.DarkAndReset : Prop := Claims.DarkIsStill ∧ Claims.ResetState
end

