-- ==== Sys2Proof/Laws/Tables.lean ====
section
/-! SUPPORT. Sparse tables: a key read after it was put, other keys, and the canonical form. -/

namespace Sys2Proof.Machine

variable {α : Type}

theorem tget_tdel_same (d : Nat → α) (l : List (Nat × α)) (k : Nat) : tget d (tdel l k) k = d k := by
  induction l with
  | nil => rfl
  | cons p r ih =>
    obtain ⟨k', v'⟩ := p
    by_cases h : k' = k
    · simpa [tdel, h] using ih
    · simpa [tdel, h, tget] using ih

theorem tget_tdel_other (d : Nat → α) (l : List (Nat × α)) {k j : Nat} (h : j ≠ k) : tget d (tdel l k) j = tget d l j := by
  induction l with
  | nil => rfl
  | cons p r ih =>
    obtain ⟨k', v'⟩ := p
    by_cases hk : k' = k
    · subst hk
      simpa [tdel, tget, Ne.symm h] using ih
    · by_cases hj : k' = j
      · subst hj
        simp [tdel, tget, hk]
      · simpa [tdel, tget, hk, hj] using ih

theorem tget_tins_same (d : Nat → α) (l : List (Nat × α)) (k : Nat) (v : α) : tget d (tins l k v) k = v := by
  induction l with
  | nil => simp [tins, tget]
  | cons p r ih =>
    obtain ⟨k', v'⟩ := p
    unfold tins
    split
    · simp [tget]
    · split
      · simp [tget]
      · rename_i h _
        simpa [tget, h] using ih

theorem tget_tins_other (d : Nat → α) (l : List (Nat × α)) {k j : Nat} (v : α) (h : j ≠ k) : tget d (tins l k v) j = tget d l j := by
  induction l with
  | nil => simp [tins, tget, Ne.symm h]
  | cons p r ih =>
    obtain ⟨k', v'⟩ := p
    unfold tins
    split
    · rename_i hk
      subst hk
      simp [tget, Ne.symm h]
    · split
      · simp [tget, Ne.symm h]
      · by_cases hj : k' = j <;> simp [tget, hj, ih]

variable [DecidableEq α]

/-- What is put is what is read. -/
@[simp] theorem tget_tput_same (d : Nat → α) (l : List (Nat × α)) (k : Nat) (v : α) : tget d (tput d l k v) k = v := by
  unfold tput
  split
  · rename_i h
    simpa [h] using tget_tdel_same d l k
  · exact tget_tins_same d l k v

/-- Other keys keep their values. -/
@[simp] theorem tget_tput_other (d : Nat → α) (l : List (Nat × α)) {k j : Nat} (v : α) (h : j ≠ k) : tget d (tput d l k v) j = tget d l j := by
  unfold tput
  split
  · exact tget_tdel_other d l h
  · exact tget_tins_other d l v h

theorem tget_tput (d : Nat → α) (l : List (Nat × α)) (k j : Nat) (v : α) : tget d (tput d l k v) j = if j = k then v else tget d l j := by
  split
  · rename_i h
    subst h
    exact tget_tput_same d l j v
  · rename_i h
    exact tget_tput_other d l v h

theorem twfFrom_mono (d : Nat → α) {lo lo' : Nat} (l : List (Nat × α)) (h : lo' ≤ lo) (w : twfFrom d lo l = true) : twfFrom d lo' l = true := by
  cases l with
  | nil => rfl
  | cons p r =>
    simp only [twfFrom, Bool.and_eq_true, decide_eq_true_eq] at w ⊢
    exact ⟨⟨Nat.le_trans h w.1.1, w.1.2⟩, w.2⟩

theorem twfFrom_tdel (d : Nat → α) (l : List (Nat × α)) (lo k : Nat) (w : twfFrom d lo l = true) : twfFrom d lo (tdel l k) = true := by
  induction l generalizing lo with
  | nil => rfl
  | cons p r ih =>
    simp only [twfFrom, Bool.and_eq_true, decide_eq_true_eq] at w
    by_cases h : p.1 = k
    · have : tdel (p :: r) k = tdel r k := by simp [tdel, h]
      rw [this]
      exact ih lo (twfFrom_mono d r (by omega) w.2)
    · have : tdel (p :: r) k = p :: tdel r k := by simp [tdel, h]
      rw [this]
      simp only [twfFrom, Bool.and_eq_true, decide_eq_true_eq]
      exact ⟨w.1, ih _ w.2⟩

theorem twfFrom_tins (d : Nat → α) (l : List (Nat × α)) (lo k : Nat) (v : α) (hl : lo ≤ k) (hv : v ≠ d k) (w : twfFrom d lo l = true) :
    twfFrom d lo (tins l k v) = true := by
  induction l generalizing lo with
  | nil => simp [tins, twfFrom, hl, hv]
  | cons p r ih =>
    obtain ⟨k', v'⟩ := p
    simp only [twfFrom, Bool.and_eq_true, decide_eq_true_eq] at w
    unfold tins
    split
    · rename_i h
      subst h
      simp only [twfFrom, Bool.and_eq_true, decide_eq_true_eq]
      exact ⟨⟨hl, hv⟩, w.2⟩
    · split
      · rename_i h2
        simp only [twfFrom, Bool.and_eq_true, decide_eq_true_eq]
        exact ⟨⟨hl, hv⟩, ⟨h2, w.1.2⟩, w.2⟩
      · rename_i h1 h2
        simp only [twfFrom, Bool.and_eq_true, decide_eq_true_eq]
        exact ⟨w.1, ih _ (by omega) w.2⟩

/-- A table in canonical form stays so when a key is put. -/
theorem twf_tput (d : Nat → α) (l : List (Nat × α)) (k : Nat) (v : α) (w : twf d l = true) : twf d (tput d l k v) = true := by
  unfold tput
  split
  · exact twfFrom_tdel d l 0 k w
  · rename_i h
    exact twfFrom_tins d l 0 k v (Nat.zero_le _) h w

omit [DecidableEq α] in
theorem tget_tclear (d : Nat → α) (l : List (Nat × α)) (lo hi k : Nat) :
    tget d (tclear lo hi l) k = if lo ≤ k ∧ k < hi then d k else tget d l k := by
  induction l with
  | nil => simp [tclear, tget]
  | cons p r ih =>
    obtain ⟨k', v'⟩ := p
    by_cases hp : lo ≤ k' ∧ k' < hi
    · have e : tclear lo hi ((k', v') :: r) = tclear lo hi r := by simp [tclear, hp.1, hp.2]
      rw [e, ih]
      by_cases hk : k' = k
      · subst hk
        simp [hp]
      · simp [tget, hk]
    · have e : tclear lo hi ((k', v') :: r) = (k', v') :: tclear lo hi r := by
        have : (!(decide (lo ≤ k') && decide (k' < hi))) = true := by
          simp only [Bool.not_eq_true', Bool.and_eq_false_iff, decide_eq_false_iff_not]
          omega
        simp only [tclear, List.filter_cons, this, if_true]
      rw [e]
      by_cases hk : k' = k
      · subst hk
        simp [tget, hp]
      · simp only [tget, hk, if_false]
        exact ih

theorem twfFrom_tclear (d : Nat → α) (l : List (Nat × α)) (from_ lo hi : Nat) (w : twfFrom d from_ l = true) : twfFrom d from_ (tclear lo hi l) = true := by
  induction l generalizing from_ with
  | nil => rfl
  | cons p r ih =>
    simp only [twfFrom, Bool.and_eq_true, decide_eq_true_eq] at w
    by_cases h : (!(decide (lo ≤ p.1) && decide (p.1 < hi))) = true
    · have e : tclear lo hi (p :: r) = p :: tclear lo hi r := by simp only [tclear, List.filter_cons, h, if_true]
      rw [e]
      simp only [twfFrom, Bool.and_eq_true, decide_eq_true_eq]
      exact ⟨w.1, ih _ w.2⟩
    · have e : tclear lo hi (p :: r) = tclear lo hi r := by simp only [tclear, List.filter_cons, h]; rfl
      rw [e]
      exact ih from_ (twfFrom_mono d r (by omega) w.2)

theorem twf_tclear (d : Nat → α) (l : List (Nat × α)) (lo hi : Nat) (w : twf d l = true) : twf d (tclear lo hi l) = true := twfFrom_tclear d l 0 lo hi w

end Sys2Proof.Machine
end

