-- ==== Sys2Proof/Laws/State.lean ====
section
/-! SUPPORT. What each update of State leaves alone, field by field, and what is read after it. -/

namespace Sys2Proof.Machine

variable (s : State)

/-- A page event touches nothing but the edge log and the waves in flight (R29, R48). -/
theorem State.raisePage_shape (base : Nat) : ∃ e l, s.raisePage base = { s with edge := e, flight := l } := by
  unfold State.raisePage
  split
  · exact ⟨_, _, rfl⟩
  · dsimp only
    split
    · exact ⟨_, _, rfl⟩
    · split
      · exact ⟨_, _, rfl⟩
      · exact ⟨_, _, rfl⟩

theorem State.setStat_shape (base : Nat) (w : Word) :
    ∃ e l, s.setStat base w = { s.setReg (base + 0xC) (s.reg (base + 0xC) ||| w) with edge := e, flight := l } := by
  unfold State.setStat
  dsimp only
  split
  · exact ⟨_, _, rfl⟩
  · obtain ⟨e, l, h⟩ := (s.hwSet (base + 0xC) w).raisePage_shape base
    exact ⟨e, l, h⟩

theorem State.setStatBit_shape (base i : Nat) : ∃ r e l, s.setStatBit base i = { s with regs := r, edge := e, flight := l } := by
  obtain ⟨e, l, h⟩ := s.setStat_shape base (BitVec.ofNat 32 (2 ^ i))
  exact ⟨_, e, l, h⟩
theorem State.cntAdd_shape (a hi lo n : Nat) (sat : Bool) : ∃ r e, s.cntAdd a hi lo n sat = { s with regs := r, edge := e } := ⟨_, _, rfl⟩
theorem State.setReg_shape (a : Nat) (v : Word) : ∃ r, s.setReg a v = { s with regs := r } := ⟨_, rfl⟩

/-- A capture touches its page's PAGE_ERR and PAGE_STAT, the edge log and the waves in flight (R30). -/
theorem State.capture_shape (base code info : Nat) : ∃ r e l, s.capture base code info = { s with regs := r, edge := e, flight := l } := by
  unfold State.capture
  dsimp only
  split
  · obtain ⟨r, e, h⟩ := s.cntAdd_shape (base + 0x18) 23 20 1 true
    rw [h]
    exact State.setStatBit_shape { s with regs := r, edge := e } base 31
  · generalize BitVec.ofNat 32 _ = v
    obtain ⟨r, h⟩ := s.setReg_shape (base + 0x18) v
    rw [h]
    exact State.setStatBit_shape { s with regs := r } base 31

@[simp] theorem State.setReg_now (a : Nat) (v : Word) : (s.setReg a v).now = s.now := rfl
@[simp] theorem State.setReg_rel (a : Nat) (v : Word) : (s.setReg a v).rel = s.rel := rfl
@[simp] theorem State.setReg_edge (a : Nat) (v : Word) : (s.setReg a v).edge = s.edge := rfl
@[simp] theorem State.setReg_fresh (a : Nat) (v : Word) : (s.setReg a v).fresh = s.fresh := rfl
@[simp] theorem State.setReg_answer (a : Nat) (v : Word) : (s.setReg a v).answer = s.answer := rfl
@[simp] theorem State.setReg_data (a : Nat) (v : Word) : (s.setReg a v).data = s.data := rfl
@[simp] theorem State.setReg_live (a : Nat) (v : Word) : (s.setReg a v).live = s.live := rfl
@[simp] theorem State.setReg_pages (a : Nat) (v : Word) : (s.setReg a v).pages = s.pages := rfl
@[simp] theorem State.setReg_held (a : Nat) (v : Word) : (s.setReg a v).held = s.held := rfl
@[simp] theorem State.setReg_flight (a : Nat) (v : Word) : (s.setReg a v).flight = s.flight := rfl
@[simp] theorem State.setReg_chans (a : Nat) (v : Word) : (s.setReg a v).chans = s.chans := rfl
@[simp] theorem State.setReg_cal (a : Nat) (v : Word) : (s.setReg a v).cal = s.cal := rfl
@[simp] theorem State.setReg_maqs (a : Nat) (v : Word) : (s.setReg a v).maqs = s.maqs := rfl
@[simp] theorem State.setReg_mem (a : Nat) (v : Word) : (s.setReg a v).mem = s.mem := rfl
@[simp] theorem State.setReg_synds (a : Nat) (v : Word) : (s.setReg a v).synds = s.synds := rfl
@[simp] theorem State.setReg_rasp (a : Nat) (v : Word) : (s.setReg a v).rasp = s.rasp := rfl
@[simp] theorem State.setReg_cores (a : Nat) (v : Word) : (s.setReg a v).cores = s.cores := rfl
@[simp] theorem State.setReg_invs (a : Nat) (v : Word) : (s.setReg a v).invs = s.invs := rfl
@[simp] theorem State.setReg_ped (a : Nat) (v : Word) : (s.setReg a v).ped = s.ped := rfl
@[simp] theorem State.setReg_arm (a : Nat) (v : Word) : (s.setReg a v).arm = s.arm := rfl
@[simp] theorem State.setReg_scans (a : Nat) (v : Word) : (s.setReg a v).scans = s.scans := rfl
@[simp] theorem State.setReg_dwPend (a : Nat) (v : Word) : (s.setReg a v).dwPend = s.dwPend := rfl
@[simp] theorem State.setReg_mbox (a : Nat) (v : Word) : (s.setReg a v).mbox = s.mbox := rfl
@[simp] theorem State.setReg_line (a : Nat) (v : Word) : (s.setReg a v).line = s.line := rfl
@[simp] theorem State.setReg_plat (a : Nat) (v : Word) : (s.setReg a v).plat = s.plat := rfl
@[simp] theorem State.setReg_host (a : Nat) (v : Word) : (s.setReg a v).host = s.host := rfl
@[simp] theorem State.setReg_pending (a : Nat) (v : Word) : (s.setReg a v).pending = s.pending := rfl
@[simp] theorem State.setLive_now (a : Nat) (v : Word) : (s.setLive a v).now = s.now := rfl
@[simp] theorem State.setLive_rel (a : Nat) (v : Word) : (s.setLive a v).rel = s.rel := rfl
@[simp] theorem State.setLive_edge (a : Nat) (v : Word) : (s.setLive a v).edge = s.edge := rfl
@[simp] theorem State.setLive_fresh (a : Nat) (v : Word) : (s.setLive a v).fresh = s.fresh := rfl
@[simp] theorem State.setLive_answer (a : Nat) (v : Word) : (s.setLive a v).answer = s.answer := rfl
@[simp] theorem State.setLive_data (a : Nat) (v : Word) : (s.setLive a v).data = s.data := rfl
@[simp] theorem State.setLive_regs (a : Nat) (v : Word) : (s.setLive a v).regs = s.regs := rfl
@[simp] theorem State.setLive_pages (a : Nat) (v : Word) : (s.setLive a v).pages = s.pages := rfl
@[simp] theorem State.setLive_held (a : Nat) (v : Word) : (s.setLive a v).held = s.held := rfl
@[simp] theorem State.setLive_flight (a : Nat) (v : Word) : (s.setLive a v).flight = s.flight := rfl
@[simp] theorem State.setLive_chans (a : Nat) (v : Word) : (s.setLive a v).chans = s.chans := rfl
@[simp] theorem State.setLive_cal (a : Nat) (v : Word) : (s.setLive a v).cal = s.cal := rfl
@[simp] theorem State.setLive_maqs (a : Nat) (v : Word) : (s.setLive a v).maqs = s.maqs := rfl
@[simp] theorem State.setLive_mem (a : Nat) (v : Word) : (s.setLive a v).mem = s.mem := rfl
@[simp] theorem State.setLive_synds (a : Nat) (v : Word) : (s.setLive a v).synds = s.synds := rfl
@[simp] theorem State.setLive_rasp (a : Nat) (v : Word) : (s.setLive a v).rasp = s.rasp := rfl
@[simp] theorem State.setLive_cores (a : Nat) (v : Word) : (s.setLive a v).cores = s.cores := rfl
@[simp] theorem State.setLive_invs (a : Nat) (v : Word) : (s.setLive a v).invs = s.invs := rfl
@[simp] theorem State.setLive_ped (a : Nat) (v : Word) : (s.setLive a v).ped = s.ped := rfl
@[simp] theorem State.setLive_arm (a : Nat) (v : Word) : (s.setLive a v).arm = s.arm := rfl
@[simp] theorem State.setLive_scans (a : Nat) (v : Word) : (s.setLive a v).scans = s.scans := rfl
@[simp] theorem State.setLive_dwPend (a : Nat) (v : Word) : (s.setLive a v).dwPend = s.dwPend := rfl
@[simp] theorem State.setLive_mbox (a : Nat) (v : Word) : (s.setLive a v).mbox = s.mbox := rfl
@[simp] theorem State.setLive_line (a : Nat) (v : Word) : (s.setLive a v).line = s.line := rfl
@[simp] theorem State.setLive_plat (a : Nat) (v : Word) : (s.setLive a v).plat = s.plat := rfl
@[simp] theorem State.setLive_host (a : Nat) (v : Word) : (s.setLive a v).host = s.host := rfl
@[simp] theorem State.setLive_pending (a : Nat) (v : Word) : (s.setLive a v).pending = s.pending := rfl
@[simp] theorem State.setF_now (a hi lo v : Nat) : (s.setF a hi lo v).now = s.now := rfl
@[simp] theorem State.setF_rel (a hi lo v : Nat) : (s.setF a hi lo v).rel = s.rel := rfl
@[simp] theorem State.setF_edge (a hi lo v : Nat) : (s.setF a hi lo v).edge = s.edge := rfl
@[simp] theorem State.setF_fresh (a hi lo v : Nat) : (s.setF a hi lo v).fresh = s.fresh := rfl
@[simp] theorem State.setF_answer (a hi lo v : Nat) : (s.setF a hi lo v).answer = s.answer := rfl
@[simp] theorem State.setF_data (a hi lo v : Nat) : (s.setF a hi lo v).data = s.data := rfl
@[simp] theorem State.setF_live (a hi lo v : Nat) : (s.setF a hi lo v).live = s.live := rfl
@[simp] theorem State.setF_pages (a hi lo v : Nat) : (s.setF a hi lo v).pages = s.pages := rfl
@[simp] theorem State.setF_held (a hi lo v : Nat) : (s.setF a hi lo v).held = s.held := rfl
@[simp] theorem State.setF_flight (a hi lo v : Nat) : (s.setF a hi lo v).flight = s.flight := rfl
@[simp] theorem State.setF_chans (a hi lo v : Nat) : (s.setF a hi lo v).chans = s.chans := rfl
@[simp] theorem State.setF_cal (a hi lo v : Nat) : (s.setF a hi lo v).cal = s.cal := rfl
@[simp] theorem State.setF_maqs (a hi lo v : Nat) : (s.setF a hi lo v).maqs = s.maqs := rfl
@[simp] theorem State.setF_mem (a hi lo v : Nat) : (s.setF a hi lo v).mem = s.mem := rfl
@[simp] theorem State.setF_synds (a hi lo v : Nat) : (s.setF a hi lo v).synds = s.synds := rfl
@[simp] theorem State.setF_rasp (a hi lo v : Nat) : (s.setF a hi lo v).rasp = s.rasp := rfl
@[simp] theorem State.setF_cores (a hi lo v : Nat) : (s.setF a hi lo v).cores = s.cores := rfl
@[simp] theorem State.setF_invs (a hi lo v : Nat) : (s.setF a hi lo v).invs = s.invs := rfl
@[simp] theorem State.setF_ped (a hi lo v : Nat) : (s.setF a hi lo v).ped = s.ped := rfl
@[simp] theorem State.setF_arm (a hi lo v : Nat) : (s.setF a hi lo v).arm = s.arm := rfl
@[simp] theorem State.setF_scans (a hi lo v : Nat) : (s.setF a hi lo v).scans = s.scans := rfl
@[simp] theorem State.setF_dwPend (a hi lo v : Nat) : (s.setF a hi lo v).dwPend = s.dwPend := rfl
@[simp] theorem State.setF_mbox (a hi lo v : Nat) : (s.setF a hi lo v).mbox = s.mbox := rfl
@[simp] theorem State.setF_line (a hi lo v : Nat) : (s.setF a hi lo v).line = s.line := rfl
@[simp] theorem State.setF_plat (a hi lo v : Nat) : (s.setF a hi lo v).plat = s.plat := rfl
@[simp] theorem State.setF_host (a hi lo v : Nat) : (s.setF a hi lo v).host = s.host := rfl
@[simp] theorem State.setF_pending (a hi lo v : Nat) : (s.setF a hi lo v).pending = s.pending := rfl
@[simp] theorem State.setPage_now (b : Nat) (p : PageSt) : (s.setPage b p).now = s.now := rfl
@[simp] theorem State.setPage_rel (b : Nat) (p : PageSt) : (s.setPage b p).rel = s.rel := rfl
@[simp] theorem State.setPage_edge (b : Nat) (p : PageSt) : (s.setPage b p).edge = s.edge := rfl
@[simp] theorem State.setPage_fresh (b : Nat) (p : PageSt) : (s.setPage b p).fresh = s.fresh := rfl
@[simp] theorem State.setPage_answer (b : Nat) (p : PageSt) : (s.setPage b p).answer = s.answer := rfl
@[simp] theorem State.setPage_data (b : Nat) (p : PageSt) : (s.setPage b p).data = s.data := rfl
@[simp] theorem State.setPage_regs (b : Nat) (p : PageSt) : (s.setPage b p).regs = s.regs := rfl
@[simp] theorem State.setPage_live (b : Nat) (p : PageSt) : (s.setPage b p).live = s.live := rfl
@[simp] theorem State.setPage_held (b : Nat) (p : PageSt) : (s.setPage b p).held = s.held := rfl
@[simp] theorem State.setPage_flight (b : Nat) (p : PageSt) : (s.setPage b p).flight = s.flight := rfl
@[simp] theorem State.setPage_chans (b : Nat) (p : PageSt) : (s.setPage b p).chans = s.chans := rfl
@[simp] theorem State.setPage_cal (b : Nat) (p : PageSt) : (s.setPage b p).cal = s.cal := rfl
@[simp] theorem State.setPage_maqs (b : Nat) (p : PageSt) : (s.setPage b p).maqs = s.maqs := rfl
@[simp] theorem State.setPage_mem (b : Nat) (p : PageSt) : (s.setPage b p).mem = s.mem := rfl
@[simp] theorem State.setPage_synds (b : Nat) (p : PageSt) : (s.setPage b p).synds = s.synds := rfl
@[simp] theorem State.setPage_rasp (b : Nat) (p : PageSt) : (s.setPage b p).rasp = s.rasp := rfl
@[simp] theorem State.setPage_cores (b : Nat) (p : PageSt) : (s.setPage b p).cores = s.cores := rfl
@[simp] theorem State.setPage_invs (b : Nat) (p : PageSt) : (s.setPage b p).invs = s.invs := rfl
@[simp] theorem State.setPage_ped (b : Nat) (p : PageSt) : (s.setPage b p).ped = s.ped := rfl
@[simp] theorem State.setPage_arm (b : Nat) (p : PageSt) : (s.setPage b p).arm = s.arm := rfl
@[simp] theorem State.setPage_scans (b : Nat) (p : PageSt) : (s.setPage b p).scans = s.scans := rfl
@[simp] theorem State.setPage_dwPend (b : Nat) (p : PageSt) : (s.setPage b p).dwPend = s.dwPend := rfl
@[simp] theorem State.setPage_mbox (b : Nat) (p : PageSt) : (s.setPage b p).mbox = s.mbox := rfl
@[simp] theorem State.setPage_line (b : Nat) (p : PageSt) : (s.setPage b p).line = s.line := rfl
@[simp] theorem State.setPage_plat (b : Nat) (p : PageSt) : (s.setPage b p).plat = s.plat := rfl
@[simp] theorem State.setPage_host (b : Nat) (p : PageSt) : (s.setPage b p).host = s.host := rfl
@[simp] theorem State.setPage_pending (b : Nat) (p : PageSt) : (s.setPage b p).pending = s.pending := rfl
@[simp] theorem State.setCh_now (c : Nat) (x : ChanSt) : (s.setCh c x).now = s.now := rfl
@[simp] theorem State.setCh_rel (c : Nat) (x : ChanSt) : (s.setCh c x).rel = s.rel := rfl
@[simp] theorem State.setCh_edge (c : Nat) (x : ChanSt) : (s.setCh c x).edge = s.edge := rfl
@[simp] theorem State.setCh_fresh (c : Nat) (x : ChanSt) : (s.setCh c x).fresh = s.fresh := rfl
@[simp] theorem State.setCh_answer (c : Nat) (x : ChanSt) : (s.setCh c x).answer = s.answer := rfl
@[simp] theorem State.setCh_data (c : Nat) (x : ChanSt) : (s.setCh c x).data = s.data := rfl
@[simp] theorem State.setCh_regs (c : Nat) (x : ChanSt) : (s.setCh c x).regs = s.regs := rfl
@[simp] theorem State.setCh_live (c : Nat) (x : ChanSt) : (s.setCh c x).live = s.live := rfl
@[simp] theorem State.setCh_pages (c : Nat) (x : ChanSt) : (s.setCh c x).pages = s.pages := rfl
@[simp] theorem State.setCh_held (c : Nat) (x : ChanSt) : (s.setCh c x).held = s.held := rfl
@[simp] theorem State.setCh_flight (c : Nat) (x : ChanSt) : (s.setCh c x).flight = s.flight := rfl
@[simp] theorem State.setCh_cal (c : Nat) (x : ChanSt) : (s.setCh c x).cal = s.cal := rfl
@[simp] theorem State.setCh_maqs (c : Nat) (x : ChanSt) : (s.setCh c x).maqs = s.maqs := rfl
@[simp] theorem State.setCh_mem (c : Nat) (x : ChanSt) : (s.setCh c x).mem = s.mem := rfl
@[simp] theorem State.setCh_synds (c : Nat) (x : ChanSt) : (s.setCh c x).synds = s.synds := rfl
@[simp] theorem State.setCh_rasp (c : Nat) (x : ChanSt) : (s.setCh c x).rasp = s.rasp := rfl
@[simp] theorem State.setCh_cores (c : Nat) (x : ChanSt) : (s.setCh c x).cores = s.cores := rfl
@[simp] theorem State.setCh_invs (c : Nat) (x : ChanSt) : (s.setCh c x).invs = s.invs := rfl
@[simp] theorem State.setCh_ped (c : Nat) (x : ChanSt) : (s.setCh c x).ped = s.ped := rfl
@[simp] theorem State.setCh_arm (c : Nat) (x : ChanSt) : (s.setCh c x).arm = s.arm := rfl
@[simp] theorem State.setCh_scans (c : Nat) (x : ChanSt) : (s.setCh c x).scans = s.scans := rfl
@[simp] theorem State.setCh_dwPend (c : Nat) (x : ChanSt) : (s.setCh c x).dwPend = s.dwPend := rfl
@[simp] theorem State.setCh_mbox (c : Nat) (x : ChanSt) : (s.setCh c x).mbox = s.mbox := rfl
@[simp] theorem State.setCh_line (c : Nat) (x : ChanSt) : (s.setCh c x).line = s.line := rfl
@[simp] theorem State.setCh_plat (c : Nat) (x : ChanSt) : (s.setCh c x).plat = s.plat := rfl
@[simp] theorem State.setCh_host (c : Nat) (x : ChanSt) : (s.setCh c x).host = s.host := rfl
@[simp] theorem State.setCh_pending (c : Nat) (x : ChanSt) : (s.setCh c x).pending = s.pending := rfl
@[simp] theorem State.moveTo_rel (t : Nat) : (s.moveTo t).rel = s.rel := rfl
@[simp] theorem State.moveTo_edge (t : Nat) : (s.moveTo t).edge = s.edge := rfl
@[simp] theorem State.moveTo_fresh (t : Nat) : (s.moveTo t).fresh = s.fresh := rfl
@[simp] theorem State.moveTo_answer (t : Nat) : (s.moveTo t).answer = s.answer := rfl
@[simp] theorem State.moveTo_data (t : Nat) : (s.moveTo t).data = s.data := rfl
@[simp] theorem State.moveTo_regs (t : Nat) : (s.moveTo t).regs = s.regs := rfl
@[simp] theorem State.moveTo_live (t : Nat) : (s.moveTo t).live = s.live := rfl
@[simp] theorem State.moveTo_pages (t : Nat) : (s.moveTo t).pages = s.pages := rfl
@[simp] theorem State.moveTo_held (t : Nat) : (s.moveTo t).held = s.held := rfl
@[simp] theorem State.moveTo_flight (t : Nat) : (s.moveTo t).flight = s.flight := rfl
@[simp] theorem State.moveTo_chans (t : Nat) : (s.moveTo t).chans = s.chans := rfl
@[simp] theorem State.moveTo_cal (t : Nat) : (s.moveTo t).cal = s.cal := rfl
@[simp] theorem State.moveTo_maqs (t : Nat) : (s.moveTo t).maqs = s.maqs := rfl
@[simp] theorem State.moveTo_mem (t : Nat) : (s.moveTo t).mem = s.mem := rfl
@[simp] theorem State.moveTo_synds (t : Nat) : (s.moveTo t).synds = s.synds := rfl
@[simp] theorem State.moveTo_rasp (t : Nat) : (s.moveTo t).rasp = s.rasp := rfl
@[simp] theorem State.moveTo_cores (t : Nat) : (s.moveTo t).cores = s.cores := rfl
@[simp] theorem State.moveTo_invs (t : Nat) : (s.moveTo t).invs = s.invs := rfl
@[simp] theorem State.moveTo_ped (t : Nat) : (s.moveTo t).ped = s.ped := rfl
@[simp] theorem State.moveTo_arm (t : Nat) : (s.moveTo t).arm = s.arm := rfl
@[simp] theorem State.moveTo_scans (t : Nat) : (s.moveTo t).scans = s.scans := rfl
@[simp] theorem State.moveTo_dwPend (t : Nat) : (s.moveTo t).dwPend = s.dwPend := rfl
@[simp] theorem State.moveTo_mbox (t : Nat) : (s.moveTo t).mbox = s.mbox := rfl
@[simp] theorem State.moveTo_line (t : Nat) : (s.moveTo t).line = s.line := rfl
@[simp] theorem State.moveTo_plat (t : Nat) : (s.moveTo t).plat = s.plat := rfl
@[simp] theorem State.moveTo_host (t : Nat) : (s.moveTo t).host = s.host := rfl
@[simp] theorem State.moveTo_pending (t : Nat) : (s.moveTo t).pending = s.pending := rfl
@[simp] theorem State.hwSet_now (a : Nat) (w : Word) : (s.hwSet a w).now = s.now := rfl
@[simp] theorem State.hwSet_rel (a : Nat) (w : Word) : (s.hwSet a w).rel = s.rel := rfl
@[simp] theorem State.hwSet_fresh (a : Nat) (w : Word) : (s.hwSet a w).fresh = s.fresh := rfl
@[simp] theorem State.hwSet_answer (a : Nat) (w : Word) : (s.hwSet a w).answer = s.answer := rfl
@[simp] theorem State.hwSet_data (a : Nat) (w : Word) : (s.hwSet a w).data = s.data := rfl
@[simp] theorem State.hwSet_live (a : Nat) (w : Word) : (s.hwSet a w).live = s.live := rfl
@[simp] theorem State.hwSet_pages (a : Nat) (w : Word) : (s.hwSet a w).pages = s.pages := rfl
@[simp] theorem State.hwSet_held (a : Nat) (w : Word) : (s.hwSet a w).held = s.held := rfl
@[simp] theorem State.hwSet_flight (a : Nat) (w : Word) : (s.hwSet a w).flight = s.flight := rfl
@[simp] theorem State.hwSet_chans (a : Nat) (w : Word) : (s.hwSet a w).chans = s.chans := rfl
@[simp] theorem State.hwSet_cal (a : Nat) (w : Word) : (s.hwSet a w).cal = s.cal := rfl
@[simp] theorem State.hwSet_maqs (a : Nat) (w : Word) : (s.hwSet a w).maqs = s.maqs := rfl
@[simp] theorem State.hwSet_mem (a : Nat) (w : Word) : (s.hwSet a w).mem = s.mem := rfl
@[simp] theorem State.hwSet_synds (a : Nat) (w : Word) : (s.hwSet a w).synds = s.synds := rfl
@[simp] theorem State.hwSet_rasp (a : Nat) (w : Word) : (s.hwSet a w).rasp = s.rasp := rfl
@[simp] theorem State.hwSet_cores (a : Nat) (w : Word) : (s.hwSet a w).cores = s.cores := rfl
@[simp] theorem State.hwSet_invs (a : Nat) (w : Word) : (s.hwSet a w).invs = s.invs := rfl
@[simp] theorem State.hwSet_ped (a : Nat) (w : Word) : (s.hwSet a w).ped = s.ped := rfl
@[simp] theorem State.hwSet_arm (a : Nat) (w : Word) : (s.hwSet a w).arm = s.arm := rfl
@[simp] theorem State.hwSet_scans (a : Nat) (w : Word) : (s.hwSet a w).scans = s.scans := rfl
@[simp] theorem State.hwSet_dwPend (a : Nat) (w : Word) : (s.hwSet a w).dwPend = s.dwPend := rfl
@[simp] theorem State.hwSet_mbox (a : Nat) (w : Word) : (s.hwSet a w).mbox = s.mbox := rfl
@[simp] theorem State.hwSet_line (a : Nat) (w : Word) : (s.hwSet a w).line = s.line := rfl
@[simp] theorem State.hwSet_plat (a : Nat) (w : Word) : (s.hwSet a w).plat = s.plat := rfl
@[simp] theorem State.hwSet_host (a : Nat) (w : Word) : (s.hwSet a w).host = s.host := rfl
@[simp] theorem State.hwSet_pending (a : Nat) (w : Word) : (s.hwSet a w).pending = s.pending := rfl
@[simp] theorem State.hwUpd_now (a hi lo v : Nat) : (s.hwUpd a hi lo v).now = s.now := by unfold State.hwUpd; split <;> rfl
@[simp] theorem State.hwUpd_rel (a hi lo v : Nat) : (s.hwUpd a hi lo v).rel = s.rel := by unfold State.hwUpd; split <;> rfl
@[simp] theorem State.hwUpd_edge (a hi lo v : Nat) : (s.hwUpd a hi lo v).edge = s.edge := by unfold State.hwUpd; split <;> rfl
@[simp] theorem State.hwUpd_fresh (a hi lo v : Nat) : (s.hwUpd a hi lo v).fresh = s.fresh := by unfold State.hwUpd; split <;> rfl
@[simp] theorem State.hwUpd_answer (a hi lo v : Nat) : (s.hwUpd a hi lo v).answer = s.answer := by unfold State.hwUpd; split <;> rfl
@[simp] theorem State.hwUpd_data (a hi lo v : Nat) : (s.hwUpd a hi lo v).data = s.data := by unfold State.hwUpd; split <;> rfl
@[simp] theorem State.hwUpd_live (a hi lo v : Nat) : (s.hwUpd a hi lo v).live = s.live := by unfold State.hwUpd; split <;> rfl
@[simp] theorem State.hwUpd_pages (a hi lo v : Nat) : (s.hwUpd a hi lo v).pages = s.pages := by unfold State.hwUpd; split <;> rfl
@[simp] theorem State.hwUpd_held (a hi lo v : Nat) : (s.hwUpd a hi lo v).held = s.held := by unfold State.hwUpd; split <;> rfl
@[simp] theorem State.hwUpd_flight (a hi lo v : Nat) : (s.hwUpd a hi lo v).flight = s.flight := by unfold State.hwUpd; split <;> rfl
@[simp] theorem State.hwUpd_chans (a hi lo v : Nat) : (s.hwUpd a hi lo v).chans = s.chans := by unfold State.hwUpd; split <;> rfl
@[simp] theorem State.hwUpd_cal (a hi lo v : Nat) : (s.hwUpd a hi lo v).cal = s.cal := by unfold State.hwUpd; split <;> rfl
@[simp] theorem State.hwUpd_maqs (a hi lo v : Nat) : (s.hwUpd a hi lo v).maqs = s.maqs := by unfold State.hwUpd; split <;> rfl
@[simp] theorem State.hwUpd_mem (a hi lo v : Nat) : (s.hwUpd a hi lo v).mem = s.mem := by unfold State.hwUpd; split <;> rfl
@[simp] theorem State.hwUpd_synds (a hi lo v : Nat) : (s.hwUpd a hi lo v).synds = s.synds := by unfold State.hwUpd; split <;> rfl
@[simp] theorem State.hwUpd_rasp (a hi lo v : Nat) : (s.hwUpd a hi lo v).rasp = s.rasp := by unfold State.hwUpd; split <;> rfl
@[simp] theorem State.hwUpd_cores (a hi lo v : Nat) : (s.hwUpd a hi lo v).cores = s.cores := by unfold State.hwUpd; split <;> rfl
@[simp] theorem State.hwUpd_invs (a hi lo v : Nat) : (s.hwUpd a hi lo v).invs = s.invs := by unfold State.hwUpd; split <;> rfl
@[simp] theorem State.hwUpd_ped (a hi lo v : Nat) : (s.hwUpd a hi lo v).ped = s.ped := by unfold State.hwUpd; split <;> rfl
@[simp] theorem State.hwUpd_arm (a hi lo v : Nat) : (s.hwUpd a hi lo v).arm = s.arm := by unfold State.hwUpd; split <;> rfl
@[simp] theorem State.hwUpd_scans (a hi lo v : Nat) : (s.hwUpd a hi lo v).scans = s.scans := by unfold State.hwUpd; split <;> rfl
@[simp] theorem State.hwUpd_dwPend (a hi lo v : Nat) : (s.hwUpd a hi lo v).dwPend = s.dwPend := by unfold State.hwUpd; split <;> rfl
@[simp] theorem State.hwUpd_mbox (a hi lo v : Nat) : (s.hwUpd a hi lo v).mbox = s.mbox := by unfold State.hwUpd; split <;> rfl
@[simp] theorem State.hwUpd_line (a hi lo v : Nat) : (s.hwUpd a hi lo v).line = s.line := by unfold State.hwUpd; split <;> rfl
@[simp] theorem State.hwUpd_plat (a hi lo v : Nat) : (s.hwUpd a hi lo v).plat = s.plat := by unfold State.hwUpd; split <;> rfl
@[simp] theorem State.hwUpd_host (a hi lo v : Nat) : (s.hwUpd a hi lo v).host = s.host := by unfold State.hwUpd; split <;> rfl
@[simp] theorem State.hwUpd_pending (a hi lo v : Nat) : (s.hwUpd a hi lo v).pending = s.pending := by unfold State.hwUpd; split <;> rfl
@[simp] theorem State.swStore_now (a : Nat) (v : Word) : (s.swStore a v).now = s.now := rfl
@[simp] theorem State.swStore_rel (a : Nat) (v : Word) : (s.swStore a v).rel = s.rel := rfl
@[simp] theorem State.swStore_fresh (a : Nat) (v : Word) : (s.swStore a v).fresh = s.fresh := rfl
@[simp] theorem State.swStore_answer (a : Nat) (v : Word) : (s.swStore a v).answer = s.answer := rfl
@[simp] theorem State.swStore_data (a : Nat) (v : Word) : (s.swStore a v).data = s.data := rfl
@[simp] theorem State.swStore_live (a : Nat) (v : Word) : (s.swStore a v).live = s.live := rfl
@[simp] theorem State.swStore_pages (a : Nat) (v : Word) : (s.swStore a v).pages = s.pages := rfl
@[simp] theorem State.swStore_held (a : Nat) (v : Word) : (s.swStore a v).held = s.held := rfl
@[simp] theorem State.swStore_flight (a : Nat) (v : Word) : (s.swStore a v).flight = s.flight := rfl
@[simp] theorem State.swStore_chans (a : Nat) (v : Word) : (s.swStore a v).chans = s.chans := rfl
@[simp] theorem State.swStore_cal (a : Nat) (v : Word) : (s.swStore a v).cal = s.cal := rfl
@[simp] theorem State.swStore_maqs (a : Nat) (v : Word) : (s.swStore a v).maqs = s.maqs := rfl
@[simp] theorem State.swStore_mem (a : Nat) (v : Word) : (s.swStore a v).mem = s.mem := rfl
@[simp] theorem State.swStore_synds (a : Nat) (v : Word) : (s.swStore a v).synds = s.synds := rfl
@[simp] theorem State.swStore_rasp (a : Nat) (v : Word) : (s.swStore a v).rasp = s.rasp := rfl
@[simp] theorem State.swStore_cores (a : Nat) (v : Word) : (s.swStore a v).cores = s.cores := rfl
@[simp] theorem State.swStore_invs (a : Nat) (v : Word) : (s.swStore a v).invs = s.invs := rfl
@[simp] theorem State.swStore_ped (a : Nat) (v : Word) : (s.swStore a v).ped = s.ped := rfl
@[simp] theorem State.swStore_arm (a : Nat) (v : Word) : (s.swStore a v).arm = s.arm := rfl
@[simp] theorem State.swStore_scans (a : Nat) (v : Word) : (s.swStore a v).scans = s.scans := rfl
@[simp] theorem State.swStore_dwPend (a : Nat) (v : Word) : (s.swStore a v).dwPend = s.dwPend := rfl
@[simp] theorem State.swStore_mbox (a : Nat) (v : Word) : (s.swStore a v).mbox = s.mbox := rfl
@[simp] theorem State.swStore_line (a : Nat) (v : Word) : (s.swStore a v).line = s.line := rfl
@[simp] theorem State.swStore_plat (a : Nat) (v : Word) : (s.swStore a v).plat = s.plat := rfl
@[simp] theorem State.swStore_host (a : Nat) (v : Word) : (s.swStore a v).host = s.host := rfl
@[simp] theorem State.swStore_pending (a : Nat) (v : Word) : (s.swStore a v).pending = s.pending := rfl
@[simp] theorem State.cntAdd_now (a hi lo n : Nat) (sat : Bool) : (s.cntAdd a hi lo n sat).now = s.now := rfl
@[simp] theorem State.cntAdd_rel (a hi lo n : Nat) (sat : Bool) : (s.cntAdd a hi lo n sat).rel = s.rel := rfl
@[simp] theorem State.cntAdd_fresh (a hi lo n : Nat) (sat : Bool) : (s.cntAdd a hi lo n sat).fresh = s.fresh := rfl
@[simp] theorem State.cntAdd_answer (a hi lo n : Nat) (sat : Bool) : (s.cntAdd a hi lo n sat).answer = s.answer := rfl
@[simp] theorem State.cntAdd_data (a hi lo n : Nat) (sat : Bool) : (s.cntAdd a hi lo n sat).data = s.data := rfl
@[simp] theorem State.cntAdd_live (a hi lo n : Nat) (sat : Bool) : (s.cntAdd a hi lo n sat).live = s.live := rfl
@[simp] theorem State.cntAdd_pages (a hi lo n : Nat) (sat : Bool) : (s.cntAdd a hi lo n sat).pages = s.pages := rfl
@[simp] theorem State.cntAdd_held (a hi lo n : Nat) (sat : Bool) : (s.cntAdd a hi lo n sat).held = s.held := rfl
@[simp] theorem State.cntAdd_flight (a hi lo n : Nat) (sat : Bool) : (s.cntAdd a hi lo n sat).flight = s.flight := rfl
@[simp] theorem State.cntAdd_chans (a hi lo n : Nat) (sat : Bool) : (s.cntAdd a hi lo n sat).chans = s.chans := rfl
@[simp] theorem State.cntAdd_cal (a hi lo n : Nat) (sat : Bool) : (s.cntAdd a hi lo n sat).cal = s.cal := rfl
@[simp] theorem State.cntAdd_maqs (a hi lo n : Nat) (sat : Bool) : (s.cntAdd a hi lo n sat).maqs = s.maqs := rfl
@[simp] theorem State.cntAdd_mem (a hi lo n : Nat) (sat : Bool) : (s.cntAdd a hi lo n sat).mem = s.mem := rfl
@[simp] theorem State.cntAdd_synds (a hi lo n : Nat) (sat : Bool) : (s.cntAdd a hi lo n sat).synds = s.synds := rfl
@[simp] theorem State.cntAdd_rasp (a hi lo n : Nat) (sat : Bool) : (s.cntAdd a hi lo n sat).rasp = s.rasp := rfl
@[simp] theorem State.cntAdd_cores (a hi lo n : Nat) (sat : Bool) : (s.cntAdd a hi lo n sat).cores = s.cores := rfl
@[simp] theorem State.cntAdd_invs (a hi lo n : Nat) (sat : Bool) : (s.cntAdd a hi lo n sat).invs = s.invs := rfl
@[simp] theorem State.cntAdd_ped (a hi lo n : Nat) (sat : Bool) : (s.cntAdd a hi lo n sat).ped = s.ped := rfl
@[simp] theorem State.cntAdd_arm (a hi lo n : Nat) (sat : Bool) : (s.cntAdd a hi lo n sat).arm = s.arm := rfl
@[simp] theorem State.cntAdd_scans (a hi lo n : Nat) (sat : Bool) : (s.cntAdd a hi lo n sat).scans = s.scans := rfl
@[simp] theorem State.cntAdd_dwPend (a hi lo n : Nat) (sat : Bool) : (s.cntAdd a hi lo n sat).dwPend = s.dwPend := rfl
@[simp] theorem State.cntAdd_mbox (a hi lo n : Nat) (sat : Bool) : (s.cntAdd a hi lo n sat).mbox = s.mbox := rfl
@[simp] theorem State.cntAdd_line (a hi lo n : Nat) (sat : Bool) : (s.cntAdd a hi lo n sat).line = s.line := rfl
@[simp] theorem State.cntAdd_plat (a hi lo n : Nat) (sat : Bool) : (s.cntAdd a hi lo n sat).plat = s.plat := rfl
@[simp] theorem State.cntAdd_host (a hi lo n : Nat) (sat : Bool) : (s.cntAdd a hi lo n sat).host = s.host := rfl
@[simp] theorem State.cntAdd_pending (a hi lo n : Nat) (sat : Bool) : (s.cntAdd a hi lo n sat).pending = s.pending := rfl
@[simp] theorem State.hwLoadRC_now (a hi lo v : Nat) : (s.hwLoadRC a hi lo v).now = s.now := rfl
@[simp] theorem State.hwLoadRC_rel (a hi lo v : Nat) : (s.hwLoadRC a hi lo v).rel = s.rel := rfl
@[simp] theorem State.hwLoadRC_fresh (a hi lo v : Nat) : (s.hwLoadRC a hi lo v).fresh = s.fresh := rfl
@[simp] theorem State.hwLoadRC_answer (a hi lo v : Nat) : (s.hwLoadRC a hi lo v).answer = s.answer := rfl
@[simp] theorem State.hwLoadRC_data (a hi lo v : Nat) : (s.hwLoadRC a hi lo v).data = s.data := rfl
@[simp] theorem State.hwLoadRC_live (a hi lo v : Nat) : (s.hwLoadRC a hi lo v).live = s.live := rfl
@[simp] theorem State.hwLoadRC_pages (a hi lo v : Nat) : (s.hwLoadRC a hi lo v).pages = s.pages := rfl
@[simp] theorem State.hwLoadRC_held (a hi lo v : Nat) : (s.hwLoadRC a hi lo v).held = s.held := rfl
@[simp] theorem State.hwLoadRC_flight (a hi lo v : Nat) : (s.hwLoadRC a hi lo v).flight = s.flight := rfl
@[simp] theorem State.hwLoadRC_chans (a hi lo v : Nat) : (s.hwLoadRC a hi lo v).chans = s.chans := rfl
@[simp] theorem State.hwLoadRC_cal (a hi lo v : Nat) : (s.hwLoadRC a hi lo v).cal = s.cal := rfl
@[simp] theorem State.hwLoadRC_maqs (a hi lo v : Nat) : (s.hwLoadRC a hi lo v).maqs = s.maqs := rfl
@[simp] theorem State.hwLoadRC_mem (a hi lo v : Nat) : (s.hwLoadRC a hi lo v).mem = s.mem := rfl
@[simp] theorem State.hwLoadRC_synds (a hi lo v : Nat) : (s.hwLoadRC a hi lo v).synds = s.synds := rfl
@[simp] theorem State.hwLoadRC_rasp (a hi lo v : Nat) : (s.hwLoadRC a hi lo v).rasp = s.rasp := rfl
@[simp] theorem State.hwLoadRC_cores (a hi lo v : Nat) : (s.hwLoadRC a hi lo v).cores = s.cores := rfl
@[simp] theorem State.hwLoadRC_invs (a hi lo v : Nat) : (s.hwLoadRC a hi lo v).invs = s.invs := rfl
@[simp] theorem State.hwLoadRC_ped (a hi lo v : Nat) : (s.hwLoadRC a hi lo v).ped = s.ped := rfl
@[simp] theorem State.hwLoadRC_arm (a hi lo v : Nat) : (s.hwLoadRC a hi lo v).arm = s.arm := rfl
@[simp] theorem State.hwLoadRC_scans (a hi lo v : Nat) : (s.hwLoadRC a hi lo v).scans = s.scans := rfl
@[simp] theorem State.hwLoadRC_dwPend (a hi lo v : Nat) : (s.hwLoadRC a hi lo v).dwPend = s.dwPend := rfl
@[simp] theorem State.hwLoadRC_mbox (a hi lo v : Nat) : (s.hwLoadRC a hi lo v).mbox = s.mbox := rfl
@[simp] theorem State.hwLoadRC_line (a hi lo v : Nat) : (s.hwLoadRC a hi lo v).line = s.line := rfl
@[simp] theorem State.hwLoadRC_plat (a hi lo v : Nat) : (s.hwLoadRC a hi lo v).plat = s.plat := rfl
@[simp] theorem State.hwLoadRC_host (a hi lo v : Nat) : (s.hwLoadRC a hi lo v).host = s.host := rfl
@[simp] theorem State.hwLoadRC_pending (a hi lo v : Nat) : (s.hwLoadRC a hi lo v).pending = s.pending := rfl
@[simp] theorem State.fly_now (id due : Nat) (sc : Scope) (tag : Option Nat) : (s.fly id due sc tag).now = s.now := rfl
@[simp] theorem State.fly_rel (id due : Nat) (sc : Scope) (tag : Option Nat) : (s.fly id due sc tag).rel = s.rel := rfl
@[simp] theorem State.fly_edge (id due : Nat) (sc : Scope) (tag : Option Nat) : (s.fly id due sc tag).edge = s.edge := rfl
@[simp] theorem State.fly_fresh (id due : Nat) (sc : Scope) (tag : Option Nat) : (s.fly id due sc tag).fresh = s.fresh := rfl
@[simp] theorem State.fly_answer (id due : Nat) (sc : Scope) (tag : Option Nat) : (s.fly id due sc tag).answer = s.answer := rfl
@[simp] theorem State.fly_data (id due : Nat) (sc : Scope) (tag : Option Nat) : (s.fly id due sc tag).data = s.data := rfl
@[simp] theorem State.fly_regs (id due : Nat) (sc : Scope) (tag : Option Nat) : (s.fly id due sc tag).regs = s.regs := rfl
@[simp] theorem State.fly_live (id due : Nat) (sc : Scope) (tag : Option Nat) : (s.fly id due sc tag).live = s.live := rfl
@[simp] theorem State.fly_pages (id due : Nat) (sc : Scope) (tag : Option Nat) : (s.fly id due sc tag).pages = s.pages := rfl
@[simp] theorem State.fly_held (id due : Nat) (sc : Scope) (tag : Option Nat) : (s.fly id due sc tag).held = s.held := rfl
@[simp] theorem State.fly_chans (id due : Nat) (sc : Scope) (tag : Option Nat) : (s.fly id due sc tag).chans = s.chans := rfl
@[simp] theorem State.fly_cal (id due : Nat) (sc : Scope) (tag : Option Nat) : (s.fly id due sc tag).cal = s.cal := rfl
@[simp] theorem State.fly_maqs (id due : Nat) (sc : Scope) (tag : Option Nat) : (s.fly id due sc tag).maqs = s.maqs := rfl
@[simp] theorem State.fly_mem (id due : Nat) (sc : Scope) (tag : Option Nat) : (s.fly id due sc tag).mem = s.mem := rfl
@[simp] theorem State.fly_synds (id due : Nat) (sc : Scope) (tag : Option Nat) : (s.fly id due sc tag).synds = s.synds := rfl
@[simp] theorem State.fly_rasp (id due : Nat) (sc : Scope) (tag : Option Nat) : (s.fly id due sc tag).rasp = s.rasp := rfl
@[simp] theorem State.fly_cores (id due : Nat) (sc : Scope) (tag : Option Nat) : (s.fly id due sc tag).cores = s.cores := rfl
@[simp] theorem State.fly_invs (id due : Nat) (sc : Scope) (tag : Option Nat) : (s.fly id due sc tag).invs = s.invs := rfl
@[simp] theorem State.fly_ped (id due : Nat) (sc : Scope) (tag : Option Nat) : (s.fly id due sc tag).ped = s.ped := rfl
@[simp] theorem State.fly_arm (id due : Nat) (sc : Scope) (tag : Option Nat) : (s.fly id due sc tag).arm = s.arm := rfl
@[simp] theorem State.fly_scans (id due : Nat) (sc : Scope) (tag : Option Nat) : (s.fly id due sc tag).scans = s.scans := rfl
@[simp] theorem State.fly_dwPend (id due : Nat) (sc : Scope) (tag : Option Nat) : (s.fly id due sc tag).dwPend = s.dwPend := rfl
@[simp] theorem State.fly_mbox (id due : Nat) (sc : Scope) (tag : Option Nat) : (s.fly id due sc tag).mbox = s.mbox := rfl
@[simp] theorem State.fly_line (id due : Nat) (sc : Scope) (tag : Option Nat) : (s.fly id due sc tag).line = s.line := rfl
@[simp] theorem State.fly_plat (id due : Nat) (sc : Scope) (tag : Option Nat) : (s.fly id due sc tag).plat = s.plat := rfl
@[simp] theorem State.fly_host (id due : Nat) (sc : Scope) (tag : Option Nat) : (s.fly id due sc tag).host = s.host := rfl
@[simp] theorem State.fly_pending (id due : Nat) (sc : Scope) (tag : Option Nat) : (s.fly id due sc tag).pending = s.pending := rfl
@[simp] theorem State.raiseDev_now (id : Nat) (tag : Option Nat) : (s.raiseDev id tag).now = s.now := rfl
@[simp] theorem State.raiseDev_rel (id : Nat) (tag : Option Nat) : (s.raiseDev id tag).rel = s.rel := rfl
@[simp] theorem State.raiseDev_edge (id : Nat) (tag : Option Nat) : (s.raiseDev id tag).edge = s.edge := rfl
@[simp] theorem State.raiseDev_fresh (id : Nat) (tag : Option Nat) : (s.raiseDev id tag).fresh = s.fresh := rfl
@[simp] theorem State.raiseDev_answer (id : Nat) (tag : Option Nat) : (s.raiseDev id tag).answer = s.answer := rfl
@[simp] theorem State.raiseDev_data (id : Nat) (tag : Option Nat) : (s.raiseDev id tag).data = s.data := rfl
@[simp] theorem State.raiseDev_regs (id : Nat) (tag : Option Nat) : (s.raiseDev id tag).regs = s.regs := rfl
@[simp] theorem State.raiseDev_live (id : Nat) (tag : Option Nat) : (s.raiseDev id tag).live = s.live := rfl
@[simp] theorem State.raiseDev_pages (id : Nat) (tag : Option Nat) : (s.raiseDev id tag).pages = s.pages := rfl
@[simp] theorem State.raiseDev_held (id : Nat) (tag : Option Nat) : (s.raiseDev id tag).held = s.held := rfl
@[simp] theorem State.raiseDev_chans (id : Nat) (tag : Option Nat) : (s.raiseDev id tag).chans = s.chans := rfl
@[simp] theorem State.raiseDev_cal (id : Nat) (tag : Option Nat) : (s.raiseDev id tag).cal = s.cal := rfl
@[simp] theorem State.raiseDev_maqs (id : Nat) (tag : Option Nat) : (s.raiseDev id tag).maqs = s.maqs := rfl
@[simp] theorem State.raiseDev_mem (id : Nat) (tag : Option Nat) : (s.raiseDev id tag).mem = s.mem := rfl
@[simp] theorem State.raiseDev_synds (id : Nat) (tag : Option Nat) : (s.raiseDev id tag).synds = s.synds := rfl
@[simp] theorem State.raiseDev_rasp (id : Nat) (tag : Option Nat) : (s.raiseDev id tag).rasp = s.rasp := rfl
@[simp] theorem State.raiseDev_cores (id : Nat) (tag : Option Nat) : (s.raiseDev id tag).cores = s.cores := rfl
@[simp] theorem State.raiseDev_invs (id : Nat) (tag : Option Nat) : (s.raiseDev id tag).invs = s.invs := rfl
@[simp] theorem State.raiseDev_ped (id : Nat) (tag : Option Nat) : (s.raiseDev id tag).ped = s.ped := rfl
@[simp] theorem State.raiseDev_arm (id : Nat) (tag : Option Nat) : (s.raiseDev id tag).arm = s.arm := rfl
@[simp] theorem State.raiseDev_scans (id : Nat) (tag : Option Nat) : (s.raiseDev id tag).scans = s.scans := rfl
@[simp] theorem State.raiseDev_dwPend (id : Nat) (tag : Option Nat) : (s.raiseDev id tag).dwPend = s.dwPend := rfl
@[simp] theorem State.raiseDev_mbox (id : Nat) (tag : Option Nat) : (s.raiseDev id tag).mbox = s.mbox := rfl
@[simp] theorem State.raiseDev_line (id : Nat) (tag : Option Nat) : (s.raiseDev id tag).line = s.line := rfl
@[simp] theorem State.raiseDev_plat (id : Nat) (tag : Option Nat) : (s.raiseDev id tag).plat = s.plat := rfl
@[simp] theorem State.raiseDev_host (id : Nat) (tag : Option Nat) : (s.raiseDev id tag).host = s.host := rfl
@[simp] theorem State.raiseDev_pending (id : Nat) (tag : Option Nat) : (s.raiseDev id tag).pending = s.pending := rfl
@[simp] theorem State.raiseChan_now (c id : Nat) : (s.raiseChan c id).now = s.now := rfl
@[simp] theorem State.raiseChan_rel (c id : Nat) : (s.raiseChan c id).rel = s.rel := rfl
@[simp] theorem State.raiseChan_edge (c id : Nat) : (s.raiseChan c id).edge = s.edge := rfl
@[simp] theorem State.raiseChan_fresh (c id : Nat) : (s.raiseChan c id).fresh = s.fresh := rfl
@[simp] theorem State.raiseChan_answer (c id : Nat) : (s.raiseChan c id).answer = s.answer := rfl
@[simp] theorem State.raiseChan_data (c id : Nat) : (s.raiseChan c id).data = s.data := rfl
@[simp] theorem State.raiseChan_regs (c id : Nat) : (s.raiseChan c id).regs = s.regs := rfl
@[simp] theorem State.raiseChan_live (c id : Nat) : (s.raiseChan c id).live = s.live := rfl
@[simp] theorem State.raiseChan_pages (c id : Nat) : (s.raiseChan c id).pages = s.pages := rfl
@[simp] theorem State.raiseChan_held (c id : Nat) : (s.raiseChan c id).held = s.held := rfl
@[simp] theorem State.raiseChan_chans (c id : Nat) : (s.raiseChan c id).chans = s.chans := rfl
@[simp] theorem State.raiseChan_cal (c id : Nat) : (s.raiseChan c id).cal = s.cal := rfl
@[simp] theorem State.raiseChan_maqs (c id : Nat) : (s.raiseChan c id).maqs = s.maqs := rfl
@[simp] theorem State.raiseChan_mem (c id : Nat) : (s.raiseChan c id).mem = s.mem := rfl
@[simp] theorem State.raiseChan_synds (c id : Nat) : (s.raiseChan c id).synds = s.synds := rfl
@[simp] theorem State.raiseChan_rasp (c id : Nat) : (s.raiseChan c id).rasp = s.rasp := rfl
@[simp] theorem State.raiseChan_cores (c id : Nat) : (s.raiseChan c id).cores = s.cores := rfl
@[simp] theorem State.raiseChan_invs (c id : Nat) : (s.raiseChan c id).invs = s.invs := rfl
@[simp] theorem State.raiseChan_ped (c id : Nat) : (s.raiseChan c id).ped = s.ped := rfl
@[simp] theorem State.raiseChan_arm (c id : Nat) : (s.raiseChan c id).arm = s.arm := rfl
@[simp] theorem State.raiseChan_scans (c id : Nat) : (s.raiseChan c id).scans = s.scans := rfl
@[simp] theorem State.raiseChan_dwPend (c id : Nat) : (s.raiseChan c id).dwPend = s.dwPend := rfl
@[simp] theorem State.raiseChan_mbox (c id : Nat) : (s.raiseChan c id).mbox = s.mbox := rfl
@[simp] theorem State.raiseChan_line (c id : Nat) : (s.raiseChan c id).line = s.line := rfl
@[simp] theorem State.raiseChan_plat (c id : Nat) : (s.raiseChan c id).plat = s.plat := rfl
@[simp] theorem State.raiseChan_host (c id : Nat) : (s.raiseChan c id).host = s.host := rfl
@[simp] theorem State.raiseChan_pending (c id : Nat) : (s.raiseChan c id).pending = s.pending := rfl
@[simp] theorem State.chanEvent_now (c off : Nat) : (s.chanEvent c off).now = s.now := by unfold State.chanEvent; split <;> rfl
@[simp] theorem State.chanEvent_rel (c off : Nat) : (s.chanEvent c off).rel = s.rel := by unfold State.chanEvent; split <;> rfl
@[simp] theorem State.chanEvent_edge (c off : Nat) : (s.chanEvent c off).edge = s.edge := by unfold State.chanEvent; split <;> rfl
@[simp] theorem State.chanEvent_fresh (c off : Nat) : (s.chanEvent c off).fresh = s.fresh := by unfold State.chanEvent; split <;> rfl
@[simp] theorem State.chanEvent_answer (c off : Nat) : (s.chanEvent c off).answer = s.answer := by unfold State.chanEvent; split <;> rfl
@[simp] theorem State.chanEvent_data (c off : Nat) : (s.chanEvent c off).data = s.data := by unfold State.chanEvent; split <;> rfl
@[simp] theorem State.chanEvent_regs (c off : Nat) : (s.chanEvent c off).regs = s.regs := by unfold State.chanEvent; split <;> rfl
@[simp] theorem State.chanEvent_live (c off : Nat) : (s.chanEvent c off).live = s.live := by unfold State.chanEvent; split <;> rfl
@[simp] theorem State.chanEvent_pages (c off : Nat) : (s.chanEvent c off).pages = s.pages := by unfold State.chanEvent; split <;> rfl
@[simp] theorem State.chanEvent_held (c off : Nat) : (s.chanEvent c off).held = s.held := by unfold State.chanEvent; split <;> rfl
@[simp] theorem State.chanEvent_chans (c off : Nat) : (s.chanEvent c off).chans = s.chans := by unfold State.chanEvent; split <;> rfl
@[simp] theorem State.chanEvent_cal (c off : Nat) : (s.chanEvent c off).cal = s.cal := by unfold State.chanEvent; split <;> rfl
@[simp] theorem State.chanEvent_maqs (c off : Nat) : (s.chanEvent c off).maqs = s.maqs := by unfold State.chanEvent; split <;> rfl
@[simp] theorem State.chanEvent_mem (c off : Nat) : (s.chanEvent c off).mem = s.mem := by unfold State.chanEvent; split <;> rfl
@[simp] theorem State.chanEvent_synds (c off : Nat) : (s.chanEvent c off).synds = s.synds := by unfold State.chanEvent; split <;> rfl
@[simp] theorem State.chanEvent_rasp (c off : Nat) : (s.chanEvent c off).rasp = s.rasp := by unfold State.chanEvent; split <;> rfl
@[simp] theorem State.chanEvent_cores (c off : Nat) : (s.chanEvent c off).cores = s.cores := by unfold State.chanEvent; split <;> rfl
@[simp] theorem State.chanEvent_invs (c off : Nat) : (s.chanEvent c off).invs = s.invs := by unfold State.chanEvent; split <;> rfl
@[simp] theorem State.chanEvent_ped (c off : Nat) : (s.chanEvent c off).ped = s.ped := by unfold State.chanEvent; split <;> rfl
@[simp] theorem State.chanEvent_arm (c off : Nat) : (s.chanEvent c off).arm = s.arm := by unfold State.chanEvent; split <;> rfl
@[simp] theorem State.chanEvent_scans (c off : Nat) : (s.chanEvent c off).scans = s.scans := by unfold State.chanEvent; split <;> rfl
@[simp] theorem State.chanEvent_dwPend (c off : Nat) : (s.chanEvent c off).dwPend = s.dwPend := by unfold State.chanEvent; split <;> rfl
@[simp] theorem State.chanEvent_mbox (c off : Nat) : (s.chanEvent c off).mbox = s.mbox := by unfold State.chanEvent; split <;> rfl
@[simp] theorem State.chanEvent_line (c off : Nat) : (s.chanEvent c off).line = s.line := by unfold State.chanEvent; split <;> rfl
@[simp] theorem State.chanEvent_plat (c off : Nat) : (s.chanEvent c off).plat = s.plat := by unfold State.chanEvent; split <;> rfl
@[simp] theorem State.chanEvent_host (c off : Nat) : (s.chanEvent c off).host = s.host := by unfold State.chanEvent; split <;> rfl
@[simp] theorem State.chanEvent_pending (c off : Nat) : (s.chanEvent c off).pending = s.pending := by unfold State.chanEvent; split <;> rfl
@[simp] theorem State.raiseSw_now (id : Nat) : (s.raiseSw id).now = s.now := by unfold State.raiseSw; split <;> rfl
@[simp] theorem State.raiseSw_rel (id : Nat) : (s.raiseSw id).rel = s.rel := by unfold State.raiseSw; split <;> rfl
@[simp] theorem State.raiseSw_edge (id : Nat) : (s.raiseSw id).edge = s.edge := by unfold State.raiseSw; split <;> rfl
@[simp] theorem State.raiseSw_fresh (id : Nat) : (s.raiseSw id).fresh = s.fresh := by unfold State.raiseSw; split <;> rfl
@[simp] theorem State.raiseSw_answer (id : Nat) : (s.raiseSw id).answer = s.answer := by unfold State.raiseSw; split <;> rfl
@[simp] theorem State.raiseSw_data (id : Nat) : (s.raiseSw id).data = s.data := by unfold State.raiseSw; split <;> rfl
@[simp] theorem State.raiseSw_regs (id : Nat) : (s.raiseSw id).regs = s.regs := by unfold State.raiseSw; split <;> rfl
@[simp] theorem State.raiseSw_live (id : Nat) : (s.raiseSw id).live = s.live := by unfold State.raiseSw; split <;> rfl
@[simp] theorem State.raiseSw_pages (id : Nat) : (s.raiseSw id).pages = s.pages := by unfold State.raiseSw; split <;> rfl
@[simp] theorem State.raiseSw_held (id : Nat) : (s.raiseSw id).held = s.held := by unfold State.raiseSw; split <;> rfl
@[simp] theorem State.raiseSw_chans (id : Nat) : (s.raiseSw id).chans = s.chans := by unfold State.raiseSw; split <;> rfl
@[simp] theorem State.raiseSw_cal (id : Nat) : (s.raiseSw id).cal = s.cal := by unfold State.raiseSw; split <;> rfl
@[simp] theorem State.raiseSw_maqs (id : Nat) : (s.raiseSw id).maqs = s.maqs := by unfold State.raiseSw; split <;> rfl
@[simp] theorem State.raiseSw_mem (id : Nat) : (s.raiseSw id).mem = s.mem := by unfold State.raiseSw; split <;> rfl
@[simp] theorem State.raiseSw_synds (id : Nat) : (s.raiseSw id).synds = s.synds := by unfold State.raiseSw; split <;> rfl
@[simp] theorem State.raiseSw_rasp (id : Nat) : (s.raiseSw id).rasp = s.rasp := by unfold State.raiseSw; split <;> rfl
@[simp] theorem State.raiseSw_cores (id : Nat) : (s.raiseSw id).cores = s.cores := by unfold State.raiseSw; split <;> rfl
@[simp] theorem State.raiseSw_invs (id : Nat) : (s.raiseSw id).invs = s.invs := by unfold State.raiseSw; split <;> rfl
@[simp] theorem State.raiseSw_ped (id : Nat) : (s.raiseSw id).ped = s.ped := by unfold State.raiseSw; split <;> rfl
@[simp] theorem State.raiseSw_arm (id : Nat) : (s.raiseSw id).arm = s.arm := by unfold State.raiseSw; split <;> rfl
@[simp] theorem State.raiseSw_scans (id : Nat) : (s.raiseSw id).scans = s.scans := by unfold State.raiseSw; split <;> rfl
@[simp] theorem State.raiseSw_dwPend (id : Nat) : (s.raiseSw id).dwPend = s.dwPend := by unfold State.raiseSw; split <;> rfl
@[simp] theorem State.raiseSw_mbox (id : Nat) : (s.raiseSw id).mbox = s.mbox := by unfold State.raiseSw; split <;> rfl
@[simp] theorem State.raiseSw_line (id : Nat) : (s.raiseSw id).line = s.line := by unfold State.raiseSw; split <;> rfl
@[simp] theorem State.raiseSw_plat (id : Nat) : (s.raiseSw id).plat = s.plat := by unfold State.raiseSw; split <;> rfl
@[simp] theorem State.raiseSw_host (id : Nat) : (s.raiseSw id).host = s.host := by unfold State.raiseSw; split <;> rfl
@[simp] theorem State.raiseSw_pending (id : Nat) : (s.raiseSw id).pending = s.pending := by unfold State.raiseSw; split <;> rfl
@[simp] theorem State.raisePage_now (base : Nat) : (s.raisePage base).now = s.now := by obtain ⟨e, l, h⟩ := s.raisePage_shape base; rw [h]
@[simp] theorem State.raisePage_rel (base : Nat) : (s.raisePage base).rel = s.rel := by obtain ⟨e, l, h⟩ := s.raisePage_shape base; rw [h]
@[simp] theorem State.raisePage_fresh (base : Nat) : (s.raisePage base).fresh = s.fresh := by obtain ⟨e, l, h⟩ := s.raisePage_shape base; rw [h]
@[simp] theorem State.raisePage_answer (base : Nat) : (s.raisePage base).answer = s.answer := by obtain ⟨e, l, h⟩ := s.raisePage_shape base; rw [h]
@[simp] theorem State.raisePage_data (base : Nat) : (s.raisePage base).data = s.data := by obtain ⟨e, l, h⟩ := s.raisePage_shape base; rw [h]
@[simp] theorem State.raisePage_regs (base : Nat) : (s.raisePage base).regs = s.regs := by obtain ⟨e, l, h⟩ := s.raisePage_shape base; rw [h]
@[simp] theorem State.raisePage_live (base : Nat) : (s.raisePage base).live = s.live := by obtain ⟨e, l, h⟩ := s.raisePage_shape base; rw [h]
@[simp] theorem State.raisePage_pages (base : Nat) : (s.raisePage base).pages = s.pages := by obtain ⟨e, l, h⟩ := s.raisePage_shape base; rw [h]
@[simp] theorem State.raisePage_held (base : Nat) : (s.raisePage base).held = s.held := by obtain ⟨e, l, h⟩ := s.raisePage_shape base; rw [h]
@[simp] theorem State.raisePage_chans (base : Nat) : (s.raisePage base).chans = s.chans := by obtain ⟨e, l, h⟩ := s.raisePage_shape base; rw [h]
@[simp] theorem State.raisePage_cal (base : Nat) : (s.raisePage base).cal = s.cal := by obtain ⟨e, l, h⟩ := s.raisePage_shape base; rw [h]
@[simp] theorem State.raisePage_maqs (base : Nat) : (s.raisePage base).maqs = s.maqs := by obtain ⟨e, l, h⟩ := s.raisePage_shape base; rw [h]
@[simp] theorem State.raisePage_mem (base : Nat) : (s.raisePage base).mem = s.mem := by obtain ⟨e, l, h⟩ := s.raisePage_shape base; rw [h]
@[simp] theorem State.raisePage_synds (base : Nat) : (s.raisePage base).synds = s.synds := by obtain ⟨e, l, h⟩ := s.raisePage_shape base; rw [h]
@[simp] theorem State.raisePage_rasp (base : Nat) : (s.raisePage base).rasp = s.rasp := by obtain ⟨e, l, h⟩ := s.raisePage_shape base; rw [h]
@[simp] theorem State.raisePage_cores (base : Nat) : (s.raisePage base).cores = s.cores := by obtain ⟨e, l, h⟩ := s.raisePage_shape base; rw [h]
@[simp] theorem State.raisePage_invs (base : Nat) : (s.raisePage base).invs = s.invs := by obtain ⟨e, l, h⟩ := s.raisePage_shape base; rw [h]
@[simp] theorem State.raisePage_ped (base : Nat) : (s.raisePage base).ped = s.ped := by obtain ⟨e, l, h⟩ := s.raisePage_shape base; rw [h]
@[simp] theorem State.raisePage_arm (base : Nat) : (s.raisePage base).arm = s.arm := by obtain ⟨e, l, h⟩ := s.raisePage_shape base; rw [h]
@[simp] theorem State.raisePage_scans (base : Nat) : (s.raisePage base).scans = s.scans := by obtain ⟨e, l, h⟩ := s.raisePage_shape base; rw [h]
@[simp] theorem State.raisePage_dwPend (base : Nat) : (s.raisePage base).dwPend = s.dwPend := by obtain ⟨e, l, h⟩ := s.raisePage_shape base; rw [h]
@[simp] theorem State.raisePage_mbox (base : Nat) : (s.raisePage base).mbox = s.mbox := by obtain ⟨e, l, h⟩ := s.raisePage_shape base; rw [h]
@[simp] theorem State.raisePage_line (base : Nat) : (s.raisePage base).line = s.line := by obtain ⟨e, l, h⟩ := s.raisePage_shape base; rw [h]
@[simp] theorem State.raisePage_plat (base : Nat) : (s.raisePage base).plat = s.plat := by obtain ⟨e, l, h⟩ := s.raisePage_shape base; rw [h]
@[simp] theorem State.raisePage_host (base : Nat) : (s.raisePage base).host = s.host := by obtain ⟨e, l, h⟩ := s.raisePage_shape base; rw [h]
@[simp] theorem State.raisePage_pending (base : Nat) : (s.raisePage base).pending = s.pending := by obtain ⟨e, l, h⟩ := s.raisePage_shape base; rw [h]
@[simp] theorem State.setStat_now (base : Nat) (w : Word) : (s.setStat base w).now = s.now := by obtain ⟨e, l, h⟩ := s.setStat_shape base w; rw [h]; rfl
@[simp] theorem State.setStat_rel (base : Nat) (w : Word) : (s.setStat base w).rel = s.rel := by obtain ⟨e, l, h⟩ := s.setStat_shape base w; rw [h]; rfl
@[simp] theorem State.setStat_fresh (base : Nat) (w : Word) : (s.setStat base w).fresh = s.fresh := by obtain ⟨e, l, h⟩ := s.setStat_shape base w; rw [h]; rfl
@[simp] theorem State.setStat_answer (base : Nat) (w : Word) : (s.setStat base w).answer = s.answer := by obtain ⟨e, l, h⟩ := s.setStat_shape base w; rw [h]; rfl
@[simp] theorem State.setStat_data (base : Nat) (w : Word) : (s.setStat base w).data = s.data := by obtain ⟨e, l, h⟩ := s.setStat_shape base w; rw [h]; rfl
@[simp] theorem State.setStat_live (base : Nat) (w : Word) : (s.setStat base w).live = s.live := by obtain ⟨e, l, h⟩ := s.setStat_shape base w; rw [h]; rfl
@[simp] theorem State.setStat_pages (base : Nat) (w : Word) : (s.setStat base w).pages = s.pages := by obtain ⟨e, l, h⟩ := s.setStat_shape base w; rw [h]; rfl
@[simp] theorem State.setStat_held (base : Nat) (w : Word) : (s.setStat base w).held = s.held := by obtain ⟨e, l, h⟩ := s.setStat_shape base w; rw [h]; rfl
@[simp] theorem State.setStat_chans (base : Nat) (w : Word) : (s.setStat base w).chans = s.chans := by obtain ⟨e, l, h⟩ := s.setStat_shape base w; rw [h]; rfl
@[simp] theorem State.setStat_cal (base : Nat) (w : Word) : (s.setStat base w).cal = s.cal := by obtain ⟨e, l, h⟩ := s.setStat_shape base w; rw [h]; rfl
@[simp] theorem State.setStat_maqs (base : Nat) (w : Word) : (s.setStat base w).maqs = s.maqs := by obtain ⟨e, l, h⟩ := s.setStat_shape base w; rw [h]; rfl
@[simp] theorem State.setStat_mem (base : Nat) (w : Word) : (s.setStat base w).mem = s.mem := by obtain ⟨e, l, h⟩ := s.setStat_shape base w; rw [h]; rfl
@[simp] theorem State.setStat_synds (base : Nat) (w : Word) : (s.setStat base w).synds = s.synds := by obtain ⟨e, l, h⟩ := s.setStat_shape base w; rw [h]; rfl
@[simp] theorem State.setStat_rasp (base : Nat) (w : Word) : (s.setStat base w).rasp = s.rasp := by obtain ⟨e, l, h⟩ := s.setStat_shape base w; rw [h]; rfl
@[simp] theorem State.setStat_cores (base : Nat) (w : Word) : (s.setStat base w).cores = s.cores := by obtain ⟨e, l, h⟩ := s.setStat_shape base w; rw [h]; rfl
@[simp] theorem State.setStat_invs (base : Nat) (w : Word) : (s.setStat base w).invs = s.invs := by obtain ⟨e, l, h⟩ := s.setStat_shape base w; rw [h]; rfl
@[simp] theorem State.setStat_ped (base : Nat) (w : Word) : (s.setStat base w).ped = s.ped := by obtain ⟨e, l, h⟩ := s.setStat_shape base w; rw [h]; rfl
@[simp] theorem State.setStat_arm (base : Nat) (w : Word) : (s.setStat base w).arm = s.arm := by obtain ⟨e, l, h⟩ := s.setStat_shape base w; rw [h]; rfl
@[simp] theorem State.setStat_scans (base : Nat) (w : Word) : (s.setStat base w).scans = s.scans := by obtain ⟨e, l, h⟩ := s.setStat_shape base w; rw [h]; rfl
@[simp] theorem State.setStat_dwPend (base : Nat) (w : Word) : (s.setStat base w).dwPend = s.dwPend := by obtain ⟨e, l, h⟩ := s.setStat_shape base w; rw [h]; rfl
@[simp] theorem State.setStat_mbox (base : Nat) (w : Word) : (s.setStat base w).mbox = s.mbox := by obtain ⟨e, l, h⟩ := s.setStat_shape base w; rw [h]; rfl
@[simp] theorem State.setStat_line (base : Nat) (w : Word) : (s.setStat base w).line = s.line := by obtain ⟨e, l, h⟩ := s.setStat_shape base w; rw [h]; rfl
@[simp] theorem State.setStat_plat (base : Nat) (w : Word) : (s.setStat base w).plat = s.plat := by obtain ⟨e, l, h⟩ := s.setStat_shape base w; rw [h]; rfl
@[simp] theorem State.setStat_host (base : Nat) (w : Word) : (s.setStat base w).host = s.host := by obtain ⟨e, l, h⟩ := s.setStat_shape base w; rw [h]; rfl
@[simp] theorem State.setStat_pending (base : Nat) (w : Word) : (s.setStat base w).pending = s.pending := by obtain ⟨e, l, h⟩ := s.setStat_shape base w; rw [h]; rfl
@[simp] theorem State.setStatBit_now (base i : Nat) : (s.setStatBit base i).now = s.now := by simp [State.setStatBit]
@[simp] theorem State.setStatBit_rel (base i : Nat) : (s.setStatBit base i).rel = s.rel := by simp [State.setStatBit]
@[simp] theorem State.setStatBit_fresh (base i : Nat) : (s.setStatBit base i).fresh = s.fresh := by simp [State.setStatBit]
@[simp] theorem State.setStatBit_answer (base i : Nat) : (s.setStatBit base i).answer = s.answer := by simp [State.setStatBit]
@[simp] theorem State.setStatBit_data (base i : Nat) : (s.setStatBit base i).data = s.data := by simp [State.setStatBit]
@[simp] theorem State.setStatBit_live (base i : Nat) : (s.setStatBit base i).live = s.live := by simp [State.setStatBit]
@[simp] theorem State.setStatBit_pages (base i : Nat) : (s.setStatBit base i).pages = s.pages := by simp [State.setStatBit]
@[simp] theorem State.setStatBit_held (base i : Nat) : (s.setStatBit base i).held = s.held := by simp [State.setStatBit]
@[simp] theorem State.setStatBit_chans (base i : Nat) : (s.setStatBit base i).chans = s.chans := by simp [State.setStatBit]
@[simp] theorem State.setStatBit_cal (base i : Nat) : (s.setStatBit base i).cal = s.cal := by simp [State.setStatBit]
@[simp] theorem State.setStatBit_maqs (base i : Nat) : (s.setStatBit base i).maqs = s.maqs := by simp [State.setStatBit]
@[simp] theorem State.setStatBit_mem (base i : Nat) : (s.setStatBit base i).mem = s.mem := by simp [State.setStatBit]
@[simp] theorem State.setStatBit_synds (base i : Nat) : (s.setStatBit base i).synds = s.synds := by simp [State.setStatBit]
@[simp] theorem State.setStatBit_rasp (base i : Nat) : (s.setStatBit base i).rasp = s.rasp := by simp [State.setStatBit]
@[simp] theorem State.setStatBit_cores (base i : Nat) : (s.setStatBit base i).cores = s.cores := by simp [State.setStatBit]
@[simp] theorem State.setStatBit_invs (base i : Nat) : (s.setStatBit base i).invs = s.invs := by simp [State.setStatBit]
@[simp] theorem State.setStatBit_ped (base i : Nat) : (s.setStatBit base i).ped = s.ped := by simp [State.setStatBit]
@[simp] theorem State.setStatBit_arm (base i : Nat) : (s.setStatBit base i).arm = s.arm := by simp [State.setStatBit]
@[simp] theorem State.setStatBit_scans (base i : Nat) : (s.setStatBit base i).scans = s.scans := by simp [State.setStatBit]
@[simp] theorem State.setStatBit_dwPend (base i : Nat) : (s.setStatBit base i).dwPend = s.dwPend := by simp [State.setStatBit]
@[simp] theorem State.setStatBit_mbox (base i : Nat) : (s.setStatBit base i).mbox = s.mbox := by simp [State.setStatBit]
@[simp] theorem State.setStatBit_line (base i : Nat) : (s.setStatBit base i).line = s.line := by simp [State.setStatBit]
@[simp] theorem State.setStatBit_plat (base i : Nat) : (s.setStatBit base i).plat = s.plat := by simp [State.setStatBit]
@[simp] theorem State.setStatBit_host (base i : Nat) : (s.setStatBit base i).host = s.host := by simp [State.setStatBit]
@[simp] theorem State.setStatBit_pending (base i : Nat) : (s.setStatBit base i).pending = s.pending := by simp [State.setStatBit]
@[simp] theorem State.capture_now (base code info : Nat) : (s.capture base code info).now = s.now := by obtain ⟨r, e, l, h⟩ := s.capture_shape base code info; rw [h]
@[simp] theorem State.capture_rel (base code info : Nat) : (s.capture base code info).rel = s.rel := by obtain ⟨r, e, l, h⟩ := s.capture_shape base code info; rw [h]
@[simp] theorem State.capture_fresh (base code info : Nat) : (s.capture base code info).fresh = s.fresh := by obtain ⟨r, e, l, h⟩ := s.capture_shape base code info; rw [h]
@[simp] theorem State.capture_answer (base code info : Nat) : (s.capture base code info).answer = s.answer := by obtain ⟨r, e, l, h⟩ := s.capture_shape base code info; rw [h]
@[simp] theorem State.capture_data (base code info : Nat) : (s.capture base code info).data = s.data := by obtain ⟨r, e, l, h⟩ := s.capture_shape base code info; rw [h]
@[simp] theorem State.capture_live (base code info : Nat) : (s.capture base code info).live = s.live := by obtain ⟨r, e, l, h⟩ := s.capture_shape base code info; rw [h]
@[simp] theorem State.capture_pages (base code info : Nat) : (s.capture base code info).pages = s.pages := by obtain ⟨r, e, l, h⟩ := s.capture_shape base code info; rw [h]
@[simp] theorem State.capture_held (base code info : Nat) : (s.capture base code info).held = s.held := by obtain ⟨r, e, l, h⟩ := s.capture_shape base code info; rw [h]
@[simp] theorem State.capture_chans (base code info : Nat) : (s.capture base code info).chans = s.chans := by obtain ⟨r, e, l, h⟩ := s.capture_shape base code info; rw [h]
@[simp] theorem State.capture_cal (base code info : Nat) : (s.capture base code info).cal = s.cal := by obtain ⟨r, e, l, h⟩ := s.capture_shape base code info; rw [h]
@[simp] theorem State.capture_maqs (base code info : Nat) : (s.capture base code info).maqs = s.maqs := by obtain ⟨r, e, l, h⟩ := s.capture_shape base code info; rw [h]
@[simp] theorem State.capture_mem (base code info : Nat) : (s.capture base code info).mem = s.mem := by obtain ⟨r, e, l, h⟩ := s.capture_shape base code info; rw [h]
@[simp] theorem State.capture_synds (base code info : Nat) : (s.capture base code info).synds = s.synds := by obtain ⟨r, e, l, h⟩ := s.capture_shape base code info; rw [h]
@[simp] theorem State.capture_rasp (base code info : Nat) : (s.capture base code info).rasp = s.rasp := by obtain ⟨r, e, l, h⟩ := s.capture_shape base code info; rw [h]
@[simp] theorem State.capture_cores (base code info : Nat) : (s.capture base code info).cores = s.cores := by obtain ⟨r, e, l, h⟩ := s.capture_shape base code info; rw [h]
@[simp] theorem State.capture_invs (base code info : Nat) : (s.capture base code info).invs = s.invs := by obtain ⟨r, e, l, h⟩ := s.capture_shape base code info; rw [h]
@[simp] theorem State.capture_ped (base code info : Nat) : (s.capture base code info).ped = s.ped := by obtain ⟨r, e, l, h⟩ := s.capture_shape base code info; rw [h]
@[simp] theorem State.capture_arm (base code info : Nat) : (s.capture base code info).arm = s.arm := by obtain ⟨r, e, l, h⟩ := s.capture_shape base code info; rw [h]
@[simp] theorem State.capture_scans (base code info : Nat) : (s.capture base code info).scans = s.scans := by obtain ⟨r, e, l, h⟩ := s.capture_shape base code info; rw [h]
@[simp] theorem State.capture_dwPend (base code info : Nat) : (s.capture base code info).dwPend = s.dwPend := by obtain ⟨r, e, l, h⟩ := s.capture_shape base code info; rw [h]
@[simp] theorem State.capture_mbox (base code info : Nat) : (s.capture base code info).mbox = s.mbox := by obtain ⟨r, e, l, h⟩ := s.capture_shape base code info; rw [h]
@[simp] theorem State.capture_line (base code info : Nat) : (s.capture base code info).line = s.line := by obtain ⟨r, e, l, h⟩ := s.capture_shape base code info; rw [h]
@[simp] theorem State.capture_plat (base code info : Nat) : (s.capture base code info).plat = s.plat := by obtain ⟨r, e, l, h⟩ := s.capture_shape base code info; rw [h]
@[simp] theorem State.capture_host (base code info : Nat) : (s.capture base code info).host = s.host := by obtain ⟨r, e, l, h⟩ := s.capture_shape base code info; rw [h]
@[simp] theorem State.capture_pending (base code info : Nat) : (s.capture base code info).pending = s.pending := by obtain ⟨r, e, l, h⟩ := s.capture_shape base code info; rw [h]
@[simp] theorem State.setPlat_now (p : PlatSt) : (s.setPlat p).now = s.now := rfl
@[simp] theorem State.setPlat_rel (p : PlatSt) : (s.setPlat p).rel = s.rel := rfl
@[simp] theorem State.setPlat_edge (p : PlatSt) : (s.setPlat p).edge = s.edge := rfl
@[simp] theorem State.setPlat_fresh (p : PlatSt) : (s.setPlat p).fresh = s.fresh := rfl
@[simp] theorem State.setPlat_answer (p : PlatSt) : (s.setPlat p).answer = s.answer := rfl
@[simp] theorem State.setPlat_data (p : PlatSt) : (s.setPlat p).data = s.data := rfl
@[simp] theorem State.setPlat_regs (p : PlatSt) : (s.setPlat p).regs = s.regs := rfl
@[simp] theorem State.setPlat_live (p : PlatSt) : (s.setPlat p).live = s.live := rfl
@[simp] theorem State.setPlat_pages (p : PlatSt) : (s.setPlat p).pages = s.pages := rfl
@[simp] theorem State.setPlat_held (p : PlatSt) : (s.setPlat p).held = s.held := rfl
@[simp] theorem State.setPlat_flight (p : PlatSt) : (s.setPlat p).flight = s.flight := rfl
@[simp] theorem State.setPlat_chans (p : PlatSt) : (s.setPlat p).chans = s.chans := rfl
@[simp] theorem State.setPlat_cal (p : PlatSt) : (s.setPlat p).cal = s.cal := rfl
@[simp] theorem State.setPlat_maqs (p : PlatSt) : (s.setPlat p).maqs = s.maqs := rfl
@[simp] theorem State.setPlat_mem (p : PlatSt) : (s.setPlat p).mem = s.mem := rfl
@[simp] theorem State.setPlat_synds (p : PlatSt) : (s.setPlat p).synds = s.synds := rfl
@[simp] theorem State.setPlat_rasp (p : PlatSt) : (s.setPlat p).rasp = s.rasp := rfl
@[simp] theorem State.setPlat_cores (p : PlatSt) : (s.setPlat p).cores = s.cores := rfl
@[simp] theorem State.setPlat_invs (p : PlatSt) : (s.setPlat p).invs = s.invs := rfl
@[simp] theorem State.setPlat_ped (p : PlatSt) : (s.setPlat p).ped = s.ped := rfl
@[simp] theorem State.setPlat_arm (p : PlatSt) : (s.setPlat p).arm = s.arm := rfl
@[simp] theorem State.setPlat_scans (p : PlatSt) : (s.setPlat p).scans = s.scans := rfl
@[simp] theorem State.setPlat_dwPend (p : PlatSt) : (s.setPlat p).dwPend = s.dwPend := rfl
@[simp] theorem State.setPlat_mbox (p : PlatSt) : (s.setPlat p).mbox = s.mbox := rfl
@[simp] theorem State.setPlat_line (p : PlatSt) : (s.setPlat p).line = s.line := rfl
@[simp] theorem State.setPlat_host (p : PlatSt) : (s.setPlat p).host = s.host := rfl
@[simp] theorem State.setPlat_pending (p : PlatSt) : (s.setPlat p).pending = s.pending := rfl
@[simp] theorem State.setCore_now (e : Nat) (c : Core) : (s.setCore e c).now = s.now := rfl
@[simp] theorem State.setCore_rel (e : Nat) (c : Core) : (s.setCore e c).rel = s.rel := rfl
@[simp] theorem State.setCore_edge (e : Nat) (c : Core) : (s.setCore e c).edge = s.edge := rfl
@[simp] theorem State.setCore_fresh (e : Nat) (c : Core) : (s.setCore e c).fresh = s.fresh := rfl
@[simp] theorem State.setCore_answer (e : Nat) (c : Core) : (s.setCore e c).answer = s.answer := rfl
@[simp] theorem State.setCore_data (e : Nat) (c : Core) : (s.setCore e c).data = s.data := rfl
@[simp] theorem State.setCore_regs (e : Nat) (c : Core) : (s.setCore e c).regs = s.regs := rfl
@[simp] theorem State.setCore_live (e : Nat) (c : Core) : (s.setCore e c).live = s.live := rfl
@[simp] theorem State.setCore_pages (e : Nat) (c : Core) : (s.setCore e c).pages = s.pages := rfl
@[simp] theorem State.setCore_held (e : Nat) (c : Core) : (s.setCore e c).held = s.held := rfl
@[simp] theorem State.setCore_flight (e : Nat) (c : Core) : (s.setCore e c).flight = s.flight := rfl
@[simp] theorem State.setCore_chans (e : Nat) (c : Core) : (s.setCore e c).chans = s.chans := rfl
@[simp] theorem State.setCore_cal (e : Nat) (c : Core) : (s.setCore e c).cal = s.cal := rfl
@[simp] theorem State.setCore_maqs (e : Nat) (c : Core) : (s.setCore e c).maqs = s.maqs := rfl
@[simp] theorem State.setCore_mem (e : Nat) (c : Core) : (s.setCore e c).mem = s.mem := rfl
@[simp] theorem State.setCore_synds (e : Nat) (c : Core) : (s.setCore e c).synds = s.synds := rfl
@[simp] theorem State.setCore_rasp (e : Nat) (c : Core) : (s.setCore e c).rasp = s.rasp := rfl
@[simp] theorem State.setCore_invs (e : Nat) (c : Core) : (s.setCore e c).invs = s.invs := rfl
@[simp] theorem State.setCore_ped (e : Nat) (c : Core) : (s.setCore e c).ped = s.ped := rfl
@[simp] theorem State.setCore_arm (e : Nat) (c : Core) : (s.setCore e c).arm = s.arm := rfl
@[simp] theorem State.setCore_scans (e : Nat) (c : Core) : (s.setCore e c).scans = s.scans := rfl
@[simp] theorem State.setCore_dwPend (e : Nat) (c : Core) : (s.setCore e c).dwPend = s.dwPend := rfl
@[simp] theorem State.setCore_mbox (e : Nat) (c : Core) : (s.setCore e c).mbox = s.mbox := rfl
@[simp] theorem State.setCore_line (e : Nat) (c : Core) : (s.setCore e c).line = s.line := rfl
@[simp] theorem State.setCore_plat (e : Nat) (c : Core) : (s.setCore e c).plat = s.plat := rfl
@[simp] theorem State.setCore_host (e : Nat) (c : Core) : (s.setCore e c).host = s.host := rfl
@[simp] theorem State.setCore_pending (e : Nat) (c : Core) : (s.setCore e c).pending = s.pending := rfl
@[simp] theorem State.setMaq_now (p : Nat) (m : MaqSt) : (s.setMaq p m).now = s.now := rfl
@[simp] theorem State.setMaq_rel (p : Nat) (m : MaqSt) : (s.setMaq p m).rel = s.rel := rfl
@[simp] theorem State.setMaq_edge (p : Nat) (m : MaqSt) : (s.setMaq p m).edge = s.edge := rfl
@[simp] theorem State.setMaq_fresh (p : Nat) (m : MaqSt) : (s.setMaq p m).fresh = s.fresh := rfl
@[simp] theorem State.setMaq_answer (p : Nat) (m : MaqSt) : (s.setMaq p m).answer = s.answer := rfl
@[simp] theorem State.setMaq_data (p : Nat) (m : MaqSt) : (s.setMaq p m).data = s.data := rfl
@[simp] theorem State.setMaq_regs (p : Nat) (m : MaqSt) : (s.setMaq p m).regs = s.regs := rfl
@[simp] theorem State.setMaq_live (p : Nat) (m : MaqSt) : (s.setMaq p m).live = s.live := rfl
@[simp] theorem State.setMaq_pages (p : Nat) (m : MaqSt) : (s.setMaq p m).pages = s.pages := rfl
@[simp] theorem State.setMaq_held (p : Nat) (m : MaqSt) : (s.setMaq p m).held = s.held := rfl
@[simp] theorem State.setMaq_flight (p : Nat) (m : MaqSt) : (s.setMaq p m).flight = s.flight := rfl
@[simp] theorem State.setMaq_chans (p : Nat) (m : MaqSt) : (s.setMaq p m).chans = s.chans := rfl
@[simp] theorem State.setMaq_cal (p : Nat) (m : MaqSt) : (s.setMaq p m).cal = s.cal := rfl
@[simp] theorem State.setMaq_mem (p : Nat) (m : MaqSt) : (s.setMaq p m).mem = s.mem := rfl
@[simp] theorem State.setMaq_synds (p : Nat) (m : MaqSt) : (s.setMaq p m).synds = s.synds := rfl
@[simp] theorem State.setMaq_rasp (p : Nat) (m : MaqSt) : (s.setMaq p m).rasp = s.rasp := rfl
@[simp] theorem State.setMaq_cores (p : Nat) (m : MaqSt) : (s.setMaq p m).cores = s.cores := rfl
@[simp] theorem State.setMaq_invs (p : Nat) (m : MaqSt) : (s.setMaq p m).invs = s.invs := rfl
@[simp] theorem State.setMaq_ped (p : Nat) (m : MaqSt) : (s.setMaq p m).ped = s.ped := rfl
@[simp] theorem State.setMaq_arm (p : Nat) (m : MaqSt) : (s.setMaq p m).arm = s.arm := rfl
@[simp] theorem State.setMaq_scans (p : Nat) (m : MaqSt) : (s.setMaq p m).scans = s.scans := rfl
@[simp] theorem State.setMaq_dwPend (p : Nat) (m : MaqSt) : (s.setMaq p m).dwPend = s.dwPend := rfl
@[simp] theorem State.setMaq_mbox (p : Nat) (m : MaqSt) : (s.setMaq p m).mbox = s.mbox := rfl
@[simp] theorem State.setMaq_line (p : Nat) (m : MaqSt) : (s.setMaq p m).line = s.line := rfl
@[simp] theorem State.setMaq_plat (p : Nat) (m : MaqSt) : (s.setMaq p m).plat = s.plat := rfl
@[simp] theorem State.setMaq_host (p : Nat) (m : MaqSt) : (s.setMaq p m).host = s.host := rfl
@[simp] theorem State.setMaq_pending (p : Nat) (m : MaqSt) : (s.setMaq p m).pending = s.pending := rfl
@[simp] theorem State.setLine_now (l : LineSt) : (s.setLine l).now = s.now := rfl
@[simp] theorem State.setLine_rel (l : LineSt) : (s.setLine l).rel = s.rel := rfl
@[simp] theorem State.setLine_edge (l : LineSt) : (s.setLine l).edge = s.edge := rfl
@[simp] theorem State.setLine_fresh (l : LineSt) : (s.setLine l).fresh = s.fresh := rfl
@[simp] theorem State.setLine_answer (l : LineSt) : (s.setLine l).answer = s.answer := rfl
@[simp] theorem State.setLine_data (l : LineSt) : (s.setLine l).data = s.data := rfl
@[simp] theorem State.setLine_regs (l : LineSt) : (s.setLine l).regs = s.regs := rfl
@[simp] theorem State.setLine_live (l : LineSt) : (s.setLine l).live = s.live := rfl
@[simp] theorem State.setLine_pages (l : LineSt) : (s.setLine l).pages = s.pages := rfl
@[simp] theorem State.setLine_held (l : LineSt) : (s.setLine l).held = s.held := rfl
@[simp] theorem State.setLine_flight (l : LineSt) : (s.setLine l).flight = s.flight := rfl
@[simp] theorem State.setLine_chans (l : LineSt) : (s.setLine l).chans = s.chans := rfl
@[simp] theorem State.setLine_cal (l : LineSt) : (s.setLine l).cal = s.cal := rfl
@[simp] theorem State.setLine_maqs (l : LineSt) : (s.setLine l).maqs = s.maqs := rfl
@[simp] theorem State.setLine_mem (l : LineSt) : (s.setLine l).mem = s.mem := rfl
@[simp] theorem State.setLine_synds (l : LineSt) : (s.setLine l).synds = s.synds := rfl
@[simp] theorem State.setLine_rasp (l : LineSt) : (s.setLine l).rasp = s.rasp := rfl
@[simp] theorem State.setLine_cores (l : LineSt) : (s.setLine l).cores = s.cores := rfl
@[simp] theorem State.setLine_invs (l : LineSt) : (s.setLine l).invs = s.invs := rfl
@[simp] theorem State.setLine_ped (l : LineSt) : (s.setLine l).ped = s.ped := rfl
@[simp] theorem State.setLine_arm (l : LineSt) : (s.setLine l).arm = s.arm := rfl
@[simp] theorem State.setLine_scans (l : LineSt) : (s.setLine l).scans = s.scans := rfl
@[simp] theorem State.setLine_dwPend (l : LineSt) : (s.setLine l).dwPend = s.dwPend := rfl
@[simp] theorem State.setLine_mbox (l : LineSt) : (s.setLine l).mbox = s.mbox := rfl
@[simp] theorem State.setLine_plat (l : LineSt) : (s.setLine l).plat = s.plat := rfl
@[simp] theorem State.setLine_host (l : LineSt) : (s.setLine l).host = s.host := rfl
@[simp] theorem State.setLine_pending (l : LineSt) : (s.setLine l).pending = s.pending := rfl
@[simp] theorem State.setPed_now (p : PedSt) : (s.setPed p).now = s.now := rfl
@[simp] theorem State.setPed_rel (p : PedSt) : (s.setPed p).rel = s.rel := rfl
@[simp] theorem State.setPed_edge (p : PedSt) : (s.setPed p).edge = s.edge := rfl
@[simp] theorem State.setPed_fresh (p : PedSt) : (s.setPed p).fresh = s.fresh := rfl
@[simp] theorem State.setPed_answer (p : PedSt) : (s.setPed p).answer = s.answer := rfl
@[simp] theorem State.setPed_data (p : PedSt) : (s.setPed p).data = s.data := rfl
@[simp] theorem State.setPed_regs (p : PedSt) : (s.setPed p).regs = s.regs := rfl
@[simp] theorem State.setPed_live (p : PedSt) : (s.setPed p).live = s.live := rfl
@[simp] theorem State.setPed_pages (p : PedSt) : (s.setPed p).pages = s.pages := rfl
@[simp] theorem State.setPed_held (p : PedSt) : (s.setPed p).held = s.held := rfl
@[simp] theorem State.setPed_flight (p : PedSt) : (s.setPed p).flight = s.flight := rfl
@[simp] theorem State.setPed_chans (p : PedSt) : (s.setPed p).chans = s.chans := rfl
@[simp] theorem State.setPed_cal (p : PedSt) : (s.setPed p).cal = s.cal := rfl
@[simp] theorem State.setPed_maqs (p : PedSt) : (s.setPed p).maqs = s.maqs := rfl
@[simp] theorem State.setPed_mem (p : PedSt) : (s.setPed p).mem = s.mem := rfl
@[simp] theorem State.setPed_synds (p : PedSt) : (s.setPed p).synds = s.synds := rfl
@[simp] theorem State.setPed_rasp (p : PedSt) : (s.setPed p).rasp = s.rasp := rfl
@[simp] theorem State.setPed_cores (p : PedSt) : (s.setPed p).cores = s.cores := rfl
@[simp] theorem State.setPed_invs (p : PedSt) : (s.setPed p).invs = s.invs := rfl
@[simp] theorem State.setPed_arm (p : PedSt) : (s.setPed p).arm = s.arm := rfl
@[simp] theorem State.setPed_scans (p : PedSt) : (s.setPed p).scans = s.scans := rfl
@[simp] theorem State.setPed_dwPend (p : PedSt) : (s.setPed p).dwPend = s.dwPend := rfl
@[simp] theorem State.setPed_mbox (p : PedSt) : (s.setPed p).mbox = s.mbox := rfl
@[simp] theorem State.setPed_line (p : PedSt) : (s.setPed p).line = s.line := rfl
@[simp] theorem State.setPed_plat (p : PedSt) : (s.setPed p).plat = s.plat := rfl
@[simp] theorem State.setPed_host (p : PedSt) : (s.setPed p).host = s.host := rfl
@[simp] theorem State.setPed_pending (p : PedSt) : (s.setPed p).pending = s.pending := rfl
@[simp] theorem State.setArm_now (a : ArmSt) : (s.setArm a).now = s.now := rfl
@[simp] theorem State.setArm_rel (a : ArmSt) : (s.setArm a).rel = s.rel := rfl
@[simp] theorem State.setArm_edge (a : ArmSt) : (s.setArm a).edge = s.edge := rfl
@[simp] theorem State.setArm_fresh (a : ArmSt) : (s.setArm a).fresh = s.fresh := rfl
@[simp] theorem State.setArm_answer (a : ArmSt) : (s.setArm a).answer = s.answer := rfl
@[simp] theorem State.setArm_data (a : ArmSt) : (s.setArm a).data = s.data := rfl
@[simp] theorem State.setArm_regs (a : ArmSt) : (s.setArm a).regs = s.regs := rfl
@[simp] theorem State.setArm_live (a : ArmSt) : (s.setArm a).live = s.live := rfl
@[simp] theorem State.setArm_pages (a : ArmSt) : (s.setArm a).pages = s.pages := rfl
@[simp] theorem State.setArm_held (a : ArmSt) : (s.setArm a).held = s.held := rfl
@[simp] theorem State.setArm_flight (a : ArmSt) : (s.setArm a).flight = s.flight := rfl
@[simp] theorem State.setArm_chans (a : ArmSt) : (s.setArm a).chans = s.chans := rfl
@[simp] theorem State.setArm_cal (a : ArmSt) : (s.setArm a).cal = s.cal := rfl
@[simp] theorem State.setArm_maqs (a : ArmSt) : (s.setArm a).maqs = s.maqs := rfl
@[simp] theorem State.setArm_mem (a : ArmSt) : (s.setArm a).mem = s.mem := rfl
@[simp] theorem State.setArm_synds (a : ArmSt) : (s.setArm a).synds = s.synds := rfl
@[simp] theorem State.setArm_rasp (a : ArmSt) : (s.setArm a).rasp = s.rasp := rfl
@[simp] theorem State.setArm_cores (a : ArmSt) : (s.setArm a).cores = s.cores := rfl
@[simp] theorem State.setArm_invs (a : ArmSt) : (s.setArm a).invs = s.invs := rfl
@[simp] theorem State.setArm_ped (a : ArmSt) : (s.setArm a).ped = s.ped := rfl
@[simp] theorem State.setArm_scans (a : ArmSt) : (s.setArm a).scans = s.scans := rfl
@[simp] theorem State.setArm_dwPend (a : ArmSt) : (s.setArm a).dwPend = s.dwPend := rfl
@[simp] theorem State.setArm_mbox (a : ArmSt) : (s.setArm a).mbox = s.mbox := rfl
@[simp] theorem State.setArm_line (a : ArmSt) : (s.setArm a).line = s.line := rfl
@[simp] theorem State.setArm_plat (a : ArmSt) : (s.setArm a).plat = s.plat := rfl
@[simp] theorem State.setArm_host (a : ArmSt) : (s.setArm a).host = s.host := rfl
@[simp] theorem State.setArm_pending (a : ArmSt) : (s.setArm a).pending = s.pending := rfl
@[simp] theorem State.setRasp_now (r : RaspSt) : (s.setRasp r).now = s.now := rfl
@[simp] theorem State.setRasp_rel (r : RaspSt) : (s.setRasp r).rel = s.rel := rfl
@[simp] theorem State.setRasp_edge (r : RaspSt) : (s.setRasp r).edge = s.edge := rfl
@[simp] theorem State.setRasp_fresh (r : RaspSt) : (s.setRasp r).fresh = s.fresh := rfl
@[simp] theorem State.setRasp_answer (r : RaspSt) : (s.setRasp r).answer = s.answer := rfl
@[simp] theorem State.setRasp_data (r : RaspSt) : (s.setRasp r).data = s.data := rfl
@[simp] theorem State.setRasp_regs (r : RaspSt) : (s.setRasp r).regs = s.regs := rfl
@[simp] theorem State.setRasp_live (r : RaspSt) : (s.setRasp r).live = s.live := rfl
@[simp] theorem State.setRasp_pages (r : RaspSt) : (s.setRasp r).pages = s.pages := rfl
@[simp] theorem State.setRasp_held (r : RaspSt) : (s.setRasp r).held = s.held := rfl
@[simp] theorem State.setRasp_flight (r : RaspSt) : (s.setRasp r).flight = s.flight := rfl
@[simp] theorem State.setRasp_chans (r : RaspSt) : (s.setRasp r).chans = s.chans := rfl
@[simp] theorem State.setRasp_cal (r : RaspSt) : (s.setRasp r).cal = s.cal := rfl
@[simp] theorem State.setRasp_maqs (r : RaspSt) : (s.setRasp r).maqs = s.maqs := rfl
@[simp] theorem State.setRasp_mem (r : RaspSt) : (s.setRasp r).mem = s.mem := rfl
@[simp] theorem State.setRasp_synds (r : RaspSt) : (s.setRasp r).synds = s.synds := rfl
@[simp] theorem State.setRasp_cores (r : RaspSt) : (s.setRasp r).cores = s.cores := rfl
@[simp] theorem State.setRasp_invs (r : RaspSt) : (s.setRasp r).invs = s.invs := rfl
@[simp] theorem State.setRasp_ped (r : RaspSt) : (s.setRasp r).ped = s.ped := rfl
@[simp] theorem State.setRasp_arm (r : RaspSt) : (s.setRasp r).arm = s.arm := rfl
@[simp] theorem State.setRasp_scans (r : RaspSt) : (s.setRasp r).scans = s.scans := rfl
@[simp] theorem State.setRasp_dwPend (r : RaspSt) : (s.setRasp r).dwPend = s.dwPend := rfl
@[simp] theorem State.setRasp_mbox (r : RaspSt) : (s.setRasp r).mbox = s.mbox := rfl
@[simp] theorem State.setRasp_line (r : RaspSt) : (s.setRasp r).line = s.line := rfl
@[simp] theorem State.setRasp_plat (r : RaspSt) : (s.setRasp r).plat = s.plat := rfl
@[simp] theorem State.setRasp_host (r : RaspSt) : (s.setRasp r).host = s.host := rfl
@[simp] theorem State.setRasp_pending (r : RaspSt) : (s.setRasp r).pending = s.pending := rfl
@[simp] theorem State.setHost_now (h : HostSt) : (s.setHost h).now = s.now := rfl
@[simp] theorem State.setHost_rel (h : HostSt) : (s.setHost h).rel = s.rel := rfl
@[simp] theorem State.setHost_edge (h : HostSt) : (s.setHost h).edge = s.edge := rfl
@[simp] theorem State.setHost_fresh (h : HostSt) : (s.setHost h).fresh = s.fresh := rfl
@[simp] theorem State.setHost_answer (h : HostSt) : (s.setHost h).answer = s.answer := rfl
@[simp] theorem State.setHost_data (h : HostSt) : (s.setHost h).data = s.data := rfl
@[simp] theorem State.setHost_regs (h : HostSt) : (s.setHost h).regs = s.regs := rfl
@[simp] theorem State.setHost_live (h : HostSt) : (s.setHost h).live = s.live := rfl
@[simp] theorem State.setHost_pages (h : HostSt) : (s.setHost h).pages = s.pages := rfl
@[simp] theorem State.setHost_held (h : HostSt) : (s.setHost h).held = s.held := rfl
@[simp] theorem State.setHost_flight (h : HostSt) : (s.setHost h).flight = s.flight := rfl
@[simp] theorem State.setHost_chans (h : HostSt) : (s.setHost h).chans = s.chans := rfl
@[simp] theorem State.setHost_cal (h : HostSt) : (s.setHost h).cal = s.cal := rfl
@[simp] theorem State.setHost_maqs (h : HostSt) : (s.setHost h).maqs = s.maqs := rfl
@[simp] theorem State.setHost_mem (h : HostSt) : (s.setHost h).mem = s.mem := rfl
@[simp] theorem State.setHost_synds (h : HostSt) : (s.setHost h).synds = s.synds := rfl
@[simp] theorem State.setHost_rasp (h : HostSt) : (s.setHost h).rasp = s.rasp := rfl
@[simp] theorem State.setHost_cores (h : HostSt) : (s.setHost h).cores = s.cores := rfl
@[simp] theorem State.setHost_invs (h : HostSt) : (s.setHost h).invs = s.invs := rfl
@[simp] theorem State.setHost_ped (h : HostSt) : (s.setHost h).ped = s.ped := rfl
@[simp] theorem State.setHost_arm (h : HostSt) : (s.setHost h).arm = s.arm := rfl
@[simp] theorem State.setHost_scans (h : HostSt) : (s.setHost h).scans = s.scans := rfl
@[simp] theorem State.setHost_dwPend (h : HostSt) : (s.setHost h).dwPend = s.dwPend := rfl
@[simp] theorem State.setHost_mbox (h : HostSt) : (s.setHost h).mbox = s.mbox := rfl
@[simp] theorem State.setHost_line (h : HostSt) : (s.setHost h).line = s.line := rfl
@[simp] theorem State.setHost_plat (h : HostSt) : (s.setHost h).plat = s.plat := rfl
@[simp] theorem State.setHost_pending (h : HostSt) : (s.setHost h).pending = s.pending := rfl
@[simp] theorem State.setTime_now (t : TimeSt) : (s.setTime t).now = s.now := rfl
@[simp] theorem State.setTime_rel (t : TimeSt) : (s.setTime t).rel = s.rel := rfl
@[simp] theorem State.setTime_edge (t : TimeSt) : (s.setTime t).edge = s.edge := rfl
@[simp] theorem State.setTime_fresh (t : TimeSt) : (s.setTime t).fresh = s.fresh := rfl
@[simp] theorem State.setTime_answer (t : TimeSt) : (s.setTime t).answer = s.answer := rfl
@[simp] theorem State.setTime_data (t : TimeSt) : (s.setTime t).data = s.data := rfl
@[simp] theorem State.setTime_regs (t : TimeSt) : (s.setTime t).regs = s.regs := rfl
@[simp] theorem State.setTime_live (t : TimeSt) : (s.setTime t).live = s.live := rfl
@[simp] theorem State.setTime_pages (t : TimeSt) : (s.setTime t).pages = s.pages := rfl
@[simp] theorem State.setTime_held (t : TimeSt) : (s.setTime t).held = s.held := rfl
@[simp] theorem State.setTime_flight (t : TimeSt) : (s.setTime t).flight = s.flight := rfl
@[simp] theorem State.setTime_chans (t : TimeSt) : (s.setTime t).chans = s.chans := rfl
@[simp] theorem State.setTime_maqs (t : TimeSt) : (s.setTime t).maqs = s.maqs := rfl
@[simp] theorem State.setTime_mem (t : TimeSt) : (s.setTime t).mem = s.mem := rfl
@[simp] theorem State.setTime_synds (t : TimeSt) : (s.setTime t).synds = s.synds := rfl
@[simp] theorem State.setTime_rasp (t : TimeSt) : (s.setTime t).rasp = s.rasp := rfl
@[simp] theorem State.setTime_cores (t : TimeSt) : (s.setTime t).cores = s.cores := rfl
@[simp] theorem State.setTime_invs (t : TimeSt) : (s.setTime t).invs = s.invs := rfl
@[simp] theorem State.setTime_ped (t : TimeSt) : (s.setTime t).ped = s.ped := rfl
@[simp] theorem State.setTime_arm (t : TimeSt) : (s.setTime t).arm = s.arm := rfl
@[simp] theorem State.setTime_scans (t : TimeSt) : (s.setTime t).scans = s.scans := rfl
@[simp] theorem State.setTime_dwPend (t : TimeSt) : (s.setTime t).dwPend = s.dwPend := rfl
@[simp] theorem State.setTime_mbox (t : TimeSt) : (s.setTime t).mbox = s.mbox := rfl
@[simp] theorem State.setTime_line (t : TimeSt) : (s.setTime t).line = s.line := rfl
@[simp] theorem State.setTime_plat (t : TimeSt) : (s.setTime t).plat = s.plat := rfl
@[simp] theorem State.setTime_host (t : TimeSt) : (s.setTime t).host = s.host := rfl
@[simp] theorem State.setTime_pending (t : TimeSt) : (s.setTime t).pending = s.pending := rfl
@[simp] theorem State.setByte_now (a : Nat) (v : Byte) : (s.setByte a v).now = s.now := rfl
@[simp] theorem State.setByte_rel (a : Nat) (v : Byte) : (s.setByte a v).rel = s.rel := rfl
@[simp] theorem State.setByte_edge (a : Nat) (v : Byte) : (s.setByte a v).edge = s.edge := rfl
@[simp] theorem State.setByte_fresh (a : Nat) (v : Byte) : (s.setByte a v).fresh = s.fresh := rfl
@[simp] theorem State.setByte_answer (a : Nat) (v : Byte) : (s.setByte a v).answer = s.answer := rfl
@[simp] theorem State.setByte_data (a : Nat) (v : Byte) : (s.setByte a v).data = s.data := rfl
@[simp] theorem State.setByte_regs (a : Nat) (v : Byte) : (s.setByte a v).regs = s.regs := rfl
@[simp] theorem State.setByte_live (a : Nat) (v : Byte) : (s.setByte a v).live = s.live := rfl
@[simp] theorem State.setByte_pages (a : Nat) (v : Byte) : (s.setByte a v).pages = s.pages := rfl
@[simp] theorem State.setByte_held (a : Nat) (v : Byte) : (s.setByte a v).held = s.held := rfl
@[simp] theorem State.setByte_flight (a : Nat) (v : Byte) : (s.setByte a v).flight = s.flight := rfl
@[simp] theorem State.setByte_chans (a : Nat) (v : Byte) : (s.setByte a v).chans = s.chans := rfl
@[simp] theorem State.setByte_cal (a : Nat) (v : Byte) : (s.setByte a v).cal = s.cal := rfl
@[simp] theorem State.setByte_maqs (a : Nat) (v : Byte) : (s.setByte a v).maqs = s.maqs := rfl
@[simp] theorem State.setByte_synds (a : Nat) (v : Byte) : (s.setByte a v).synds = s.synds := rfl
@[simp] theorem State.setByte_rasp (a : Nat) (v : Byte) : (s.setByte a v).rasp = s.rasp := rfl
@[simp] theorem State.setByte_cores (a : Nat) (v : Byte) : (s.setByte a v).cores = s.cores := rfl
@[simp] theorem State.setByte_invs (a : Nat) (v : Byte) : (s.setByte a v).invs = s.invs := rfl
@[simp] theorem State.setByte_ped (a : Nat) (v : Byte) : (s.setByte a v).ped = s.ped := rfl
@[simp] theorem State.setByte_arm (a : Nat) (v : Byte) : (s.setByte a v).arm = s.arm := rfl
@[simp] theorem State.setByte_scans (a : Nat) (v : Byte) : (s.setByte a v).scans = s.scans := rfl
@[simp] theorem State.setByte_dwPend (a : Nat) (v : Byte) : (s.setByte a v).dwPend = s.dwPend := rfl
@[simp] theorem State.setByte_mbox (a : Nat) (v : Byte) : (s.setByte a v).mbox = s.mbox := rfl
@[simp] theorem State.setByte_line (a : Nat) (v : Byte) : (s.setByte a v).line = s.line := rfl
@[simp] theorem State.setByte_plat (a : Nat) (v : Byte) : (s.setByte a v).plat = s.plat := rfl
@[simp] theorem State.setByte_host (a : Nat) (v : Byte) : (s.setByte a v).host = s.host := rfl
@[simp] theorem State.setByte_pending (a : Nat) (v : Byte) : (s.setByte a v).pending = s.pending := rfl
@[simp] theorem State.setSynd_now (a v : Nat) : (s.setSynd a v).now = s.now := rfl
@[simp] theorem State.setSynd_rel (a v : Nat) : (s.setSynd a v).rel = s.rel := rfl
@[simp] theorem State.setSynd_edge (a v : Nat) : (s.setSynd a v).edge = s.edge := rfl
@[simp] theorem State.setSynd_fresh (a v : Nat) : (s.setSynd a v).fresh = s.fresh := rfl
@[simp] theorem State.setSynd_answer (a v : Nat) : (s.setSynd a v).answer = s.answer := rfl
@[simp] theorem State.setSynd_data (a v : Nat) : (s.setSynd a v).data = s.data := rfl
@[simp] theorem State.setSynd_regs (a v : Nat) : (s.setSynd a v).regs = s.regs := rfl
@[simp] theorem State.setSynd_live (a v : Nat) : (s.setSynd a v).live = s.live := rfl
@[simp] theorem State.setSynd_pages (a v : Nat) : (s.setSynd a v).pages = s.pages := rfl
@[simp] theorem State.setSynd_held (a v : Nat) : (s.setSynd a v).held = s.held := rfl
@[simp] theorem State.setSynd_flight (a v : Nat) : (s.setSynd a v).flight = s.flight := rfl
@[simp] theorem State.setSynd_chans (a v : Nat) : (s.setSynd a v).chans = s.chans := rfl
@[simp] theorem State.setSynd_cal (a v : Nat) : (s.setSynd a v).cal = s.cal := rfl
@[simp] theorem State.setSynd_maqs (a v : Nat) : (s.setSynd a v).maqs = s.maqs := rfl
@[simp] theorem State.setSynd_mem (a v : Nat) : (s.setSynd a v).mem = s.mem := rfl
@[simp] theorem State.setSynd_rasp (a v : Nat) : (s.setSynd a v).rasp = s.rasp := rfl
@[simp] theorem State.setSynd_cores (a v : Nat) : (s.setSynd a v).cores = s.cores := rfl
@[simp] theorem State.setSynd_invs (a v : Nat) : (s.setSynd a v).invs = s.invs := rfl
@[simp] theorem State.setSynd_ped (a v : Nat) : (s.setSynd a v).ped = s.ped := rfl
@[simp] theorem State.setSynd_arm (a v : Nat) : (s.setSynd a v).arm = s.arm := rfl
@[simp] theorem State.setSynd_scans (a v : Nat) : (s.setSynd a v).scans = s.scans := rfl
@[simp] theorem State.setSynd_dwPend (a v : Nat) : (s.setSynd a v).dwPend = s.dwPend := rfl
@[simp] theorem State.setSynd_mbox (a v : Nat) : (s.setSynd a v).mbox = s.mbox := rfl
@[simp] theorem State.setSynd_line (a v : Nat) : (s.setSynd a v).line = s.line := rfl
@[simp] theorem State.setSynd_plat (a v : Nat) : (s.setSynd a v).plat = s.plat := rfl
@[simp] theorem State.setSynd_host (a v : Nat) : (s.setSynd a v).host = s.host := rfl
@[simp] theorem State.setSynd_pending (a v : Nat) : (s.setSynd a v).pending = s.pending := rfl
@[simp] theorem State.clearBlock_now (base : Nat) : (s.clearBlock base).now = s.now := rfl
@[simp] theorem State.clearBlock_rel (base : Nat) : (s.clearBlock base).rel = s.rel := rfl
@[simp] theorem State.clearBlock_edge (base : Nat) : (s.clearBlock base).edge = s.edge := rfl
@[simp] theorem State.clearBlock_fresh (base : Nat) : (s.clearBlock base).fresh = s.fresh := rfl
@[simp] theorem State.clearBlock_answer (base : Nat) : (s.clearBlock base).answer = s.answer := rfl
@[simp] theorem State.clearBlock_data (base : Nat) : (s.clearBlock base).data = s.data := rfl
@[simp] theorem State.clearBlock_pages (base : Nat) : (s.clearBlock base).pages = s.pages := rfl
@[simp] theorem State.clearBlock_held (base : Nat) : (s.clearBlock base).held = s.held := rfl
@[simp] theorem State.clearBlock_flight (base : Nat) : (s.clearBlock base).flight = s.flight := rfl
@[simp] theorem State.clearBlock_chans (base : Nat) : (s.clearBlock base).chans = s.chans := rfl
@[simp] theorem State.clearBlock_cal (base : Nat) : (s.clearBlock base).cal = s.cal := rfl
@[simp] theorem State.clearBlock_maqs (base : Nat) : (s.clearBlock base).maqs = s.maqs := rfl
@[simp] theorem State.clearBlock_mem (base : Nat) : (s.clearBlock base).mem = s.mem := rfl
@[simp] theorem State.clearBlock_synds (base : Nat) : (s.clearBlock base).synds = s.synds := rfl
@[simp] theorem State.clearBlock_rasp (base : Nat) : (s.clearBlock base).rasp = s.rasp := rfl
@[simp] theorem State.clearBlock_cores (base : Nat) : (s.clearBlock base).cores = s.cores := rfl
@[simp] theorem State.clearBlock_invs (base : Nat) : (s.clearBlock base).invs = s.invs := rfl
@[simp] theorem State.clearBlock_ped (base : Nat) : (s.clearBlock base).ped = s.ped := rfl
@[simp] theorem State.clearBlock_arm (base : Nat) : (s.clearBlock base).arm = s.arm := rfl
@[simp] theorem State.clearBlock_scans (base : Nat) : (s.clearBlock base).scans = s.scans := rfl
@[simp] theorem State.clearBlock_dwPend (base : Nat) : (s.clearBlock base).dwPend = s.dwPend := rfl
@[simp] theorem State.clearBlock_mbox (base : Nat) : (s.clearBlock base).mbox = s.mbox := rfl
@[simp] theorem State.clearBlock_line (base : Nat) : (s.clearBlock base).line = s.line := rfl
@[simp] theorem State.clearBlock_plat (base : Nat) : (s.clearBlock base).plat = s.plat := rfl
@[simp] theorem State.clearBlock_host (base : Nat) : (s.clearBlock base).host = s.host := rfl
@[simp] theorem State.clearBlock_pending (base : Nat) : (s.clearBlock base).pending = s.pending := rfl

/-! ## Registers read back -/

theorem State.reg_eq (a : Nat) : s.reg a = tget regReset s.regs a := rfl
theorem State.b_eq (a i : Nat) : s.b a i = bitOf (s.reg a).toNat i := rfl
theorem State.f_eq (a hi lo : Nat) : s.f a hi lo = bitsOf (s.reg a).toNat hi lo := rfl

theorem State.reg_setReg (a b : Nat) (v : Word) : (s.setReg a v).reg b = if b = a then v else s.reg b := tget_tput regReset s.regs a b v
@[simp] theorem State.reg_setReg_same (a : Nat) (v : Word) : (s.setReg a v).reg a = v := by simp [State.reg_setReg]
theorem State.reg_setF (a b hi lo v : Nat) :
    (s.setF a hi lo v).reg b = if b = a then BitVec.ofNat 32 (putBits (s.reg a).toNat hi lo v) else s.reg b := s.reg_setReg a b _
theorem State.reg_hwSet (a b : Nat) (w : Word) : (s.hwSet a w).reg b = if b = a then s.reg a ||| w else s.reg b := s.reg_setReg a b _
theorem State.reg_swStore (a b : Nat) (v : Word) : (s.swStore a v).reg b = if b = a then v else s.reg b := s.reg_setReg a b _
theorem State.reg_cntAdd (a b hi lo n : Nat) (sat : Bool) :
    (s.cntAdd a hi lo n sat).reg b = if b = a then addField (s.reg a) hi lo n sat else s.reg b := s.reg_setReg a b _
theorem State.reg_hwLoadRC (a b hi lo v : Nat) :
    (s.hwLoadRC a hi lo v).reg b = if b = a then BitVec.ofNat 32 (putBits (s.reg a).toNat hi lo v) else s.reg b := s.reg_setReg a b _
theorem State.lreg_setLive (a b : Nat) (v : Word) : (s.setLive a v).lreg b = if b = a then v else s.lreg b := tget_tput regReset s.live a b v
@[simp] theorem State.regs_raisePage (base : Nat) : (s.raisePage base).regs = s.regs := by obtain ⟨e, l, h⟩ := s.raisePage_shape base; rw [h]
/-- PAGE_STAT gets the bits; nothing else is written (R29). -/
theorem State.reg_setStat (base b : Nat) (w : Word) : (s.setStat base w).reg b = if b = base + 0xC then s.reg (base + 0xC) ||| w else s.reg b := by
  have h : (s.setStat base w).regs = (s.hwSet (base + 0xC) w).regs := by obtain ⟨e, l, h⟩ := s.setStat_shape base w; rw [h]; rfl
  rw [State.reg_eq, h]
  exact s.reg_hwSet (base + 0xC) b w
theorem State.reg_setStatBit (base b i : Nat) :
    (s.setStatBit base i).reg b = if b = base + 0xC then s.reg (base + 0xC) ||| BitVec.ofNat 32 (2 ^ i) else s.reg b := s.reg_setStat base b _
/-- A capture writes PAGE_ERR and PAGE_STAT of its page and no other register (R30). -/
theorem State.reg_capture (base code info b : Nat) (h1 : b ≠ base + 0xC) (h2 : b ≠ base + 0x18) : (s.capture base code info).reg b = s.reg b := by
  unfold State.capture
  dsimp only
  split <;> simp [State.reg_setStatBit, State.reg_cntAdd, State.reg_setReg, h1, h2]
@[simp] theorem State.page_setPage_same (b : Nat) (p : PageSt) : (s.setPage b p).page b = p := tget_tput_same _ _ _ _
theorem State.page_setPage_other {b c : Nat} (p : PageSt) (h : c ≠ b) : (s.setPage b p).page c = s.page c := tget_tput_other _ _ _ h
@[simp] theorem State.ch_setCh_same (c : Nat) (x : ChanSt) : (s.setCh c x).ch c = x := tget_tput_same _ _ _ _
theorem State.ch_setCh_other {c d : Nat} (x : ChanSt) (h : d ≠ c) : (s.setCh c x).ch d = s.ch d := tget_tput_other _ _ _ h
@[simp] theorem State.core_setCore_same (e : Nat) (k : Core) : (s.setCore e k).core e = k := tget_tput_same _ _ _ _
theorem State.core_setCore_other {e d : Nat} (k : Core) (h : d ≠ e) : (s.setCore e k).core d = s.core d := tget_tput_other _ _ _ h
@[simp] theorem State.maq_setMaq_same (p : Nat) (m : MaqSt) : (s.setMaq p m).maq p = m := tget_tput_same _ _ _ _
@[simp] theorem State.byte_setByte_same (a : Nat) (v : Byte) : (s.setByte a v).byte a = v := tget_tput_same _ _ _ _
theorem State.byte_setByte_other {a b : Nat} (v : Byte) (h : b ≠ a) : (s.setByte a v).byte b = s.byte b := tget_tput_other _ _ _ h
theorem State.moveTo_now (t : Nat) : (s.moveTo t).now = if s.now < t then t else s.now := rfl

@[simp] theorem State.reg_setLive (a : Nat) (v : Word) (b' : Nat) : (s.setLive a v).reg b' = s.reg b' := by simp [State.reg_eq]
@[simp] theorem State.reg_setPage (b : Nat) (p : PageSt) (b' : Nat) : (s.setPage b p).reg b' = s.reg b' := by simp [State.reg_eq]
@[simp] theorem State.reg_setCh (c : Nat) (x : ChanSt) (b' : Nat) : (s.setCh c x).reg b' = s.reg b' := by simp [State.reg_eq]
@[simp] theorem State.reg_moveTo (t : Nat) (b' : Nat) : (s.moveTo t).reg b' = s.reg b' := by simp [State.reg_eq]
@[simp] theorem State.reg_fly (id due : Nat) (sc : Scope) (tag : Option Nat) (b' : Nat) : (s.fly id due sc tag).reg b' = s.reg b' := by simp [State.reg_eq]
@[simp] theorem State.reg_raiseDev (id : Nat) (tag : Option Nat) (b' : Nat) : (s.raiseDev id tag).reg b' = s.reg b' := by simp [State.reg_eq]
@[simp] theorem State.reg_raiseChan (c id : Nat) (b' : Nat) : (s.raiseChan c id).reg b' = s.reg b' := by simp [State.reg_eq]
@[simp] theorem State.reg_chanEvent (c off : Nat) (b' : Nat) : (s.chanEvent c off).reg b' = s.reg b' := by simp [State.reg_eq]
@[simp] theorem State.reg_raiseSw (id : Nat) (b' : Nat) : (s.raiseSw id).reg b' = s.reg b' := by simp [State.reg_eq]
@[simp] theorem State.reg_raisePage (base : Nat) (b' : Nat) : (s.raisePage base).reg b' = s.reg b' := by simp [State.reg_eq]
@[simp] theorem State.reg_setPlat (p : PlatSt) (b' : Nat) : (s.setPlat p).reg b' = s.reg b' := by simp [State.reg_eq]
@[simp] theorem State.reg_setCore (e : Nat) (c : Core) (b' : Nat) : (s.setCore e c).reg b' = s.reg b' := by simp [State.reg_eq]
@[simp] theorem State.reg_setMaq (p : Nat) (m : MaqSt) (b' : Nat) : (s.setMaq p m).reg b' = s.reg b' := by simp [State.reg_eq]
@[simp] theorem State.reg_setLine (l : LineSt) (b' : Nat) : (s.setLine l).reg b' = s.reg b' := by simp [State.reg_eq]
@[simp] theorem State.reg_setPed (p : PedSt) (b' : Nat) : (s.setPed p).reg b' = s.reg b' := by simp [State.reg_eq]
@[simp] theorem State.reg_setArm (a : ArmSt) (b' : Nat) : (s.setArm a).reg b' = s.reg b' := by simp [State.reg_eq]
@[simp] theorem State.reg_setRasp (r : RaspSt) (b' : Nat) : (s.setRasp r).reg b' = s.reg b' := by simp [State.reg_eq]
@[simp] theorem State.reg_setHost (h : HostSt) (b' : Nat) : (s.setHost h).reg b' = s.reg b' := by simp [State.reg_eq]
@[simp] theorem State.reg_setTime (t : TimeSt) (b' : Nat) : (s.setTime t).reg b' = s.reg b' := by simp [State.reg_eq]
@[simp] theorem State.reg_setByte (a : Nat) (v : Byte) (b' : Nat) : (s.setByte a v).reg b' = s.reg b' := by simp [State.reg_eq]
@[simp] theorem State.reg_setSynd (a v : Nat) (b' : Nat) : (s.setSynd a v).reg b' = s.reg b' := by simp [State.reg_eq]

end Sys2Proof.Machine
end

