-- ==== Sys2Proof/Laws/Bus.lean ====
section
/-! SUPPORT. What one access does that reaches its register. -/

namespace Sys2Proof.Machine

variable (s : State)

/-- The page of a register a channel has (R45). -/
theorem pageAt_chan {c k o : Nat} (hc : c < 48) (hk : k < 12) (ho : o < 4096) :
    pageAt ((Reg.chanPage c k + o) / 4096 * 4096) = some ⟨Reg.chanPage c k, k + 1, 0, c, k + 1⟩ := by
  have e : (Reg.chanPage c k + o) / 4096 * 4096 = Reg.chanPage c k := by
    unfold Reg.chanPage
    omega
  rw [e]
  have h1 : Reg.chanPage c k % 4096 = 0 := by unfold Reg.chanPage; omega
  have h2 : 0x40000000 ≤ Reg.chanPage c k ∧ Reg.chanPage c k < 0x40300000 := by unfold Reg.chanPage; omega
  have h3 : (Reg.chanPage c k - 0x40000000) / 0x10000 = c := by unfold Reg.chanPage; omega
  have h4 : Reg.chanPage c k / 4096 % 16 = k := by unfold Reg.chanPage; omega
  simp [pageAt, h1, h2, h3, h4, hk]

/-- What a write does that reaches its register. -/
theorem wordWriteBy_reaches {rq : Rq} {a v : Nat} {p : Page} (hp : pageAt (a / 4096 * 4096) = some p) (h : s.reaches rq a (some v) = true) (hv : v < 2 ^ 32) :
    wordWriteBy rq a v s =
      { (regWrite rq p (a % 4096) v s).getD s with answer := writeAnswer p (a % 4096) v s (regWrite rq p (a % 4096) v s), data := 0 } := by
  unfold State.reaches at h
  simp only [hp, Bool.and_eq_true, Bool.not_eq_true', beq_iff_eq] at h
  obtain ⟨⟨⟨_, hr⟩, h4⟩, ⟨ho, hh⟩, _⟩ := h
  have e : v % 4294967296 = v := Nat.mod_eq_of_lt hv
  simp [wordWriteBy, answered, busAccess, State.accessHeld, hr, hp, ho, hh, busPerform, h4, regPerform, e]

/-- What a read does that reaches its register. -/
theorem wordReadBy_reaches {rq : Rq} {a : Nat} {p : Page} (hp : pageAt (a / 4096 * 4096) = some p) (h : s.reaches rq a none = true) :
    wordReadBy rq a s =
      { ((regRead rq p (a % 4096) s).map (·.2)).getD s with
        answer := if (regRead rq p (a % 4096) s).isNone then .buserr else .ok
        data := BitVec.ofNat 64 (((regRead rq p (a % 4096) s).map (·.1.toNat)).getD 0) } := by
  unfold State.reaches at h
  simp only [hp, Bool.and_eq_true, Bool.not_eq_true', beq_iff_eq] at h
  obtain ⟨⟨⟨_, hr⟩, h4⟩, ⟨ho, hh⟩, _⟩ := h
  cases e : regRead rq p (a % 4096) s <;>
    simp [wordReadBy, answered, busAccess, State.accessHeld, hr, hp, ho, hh, busPerform, h4, regPerform, e]

/-- No hold of a page depends on the value written. -/
theorem writable_reaches {rq : Rq} {a : Nat} (v : Nat) (h : s.writable rq a = true) : s.reaches rq a (some v) = true := h

/-- A row that needs the device to run. -/
theorem onRun_awake (f : State → State) (h : s.awake = true) : onRun f s = f s := by simp [onRun, h]
theorem onRun_asleep (f : State → State) (h : s.awake = false) : onRun f s = s := by simp [onRun, h]
theorem onDoze_awake (f : State → State) (h : s.dozing = true) : onDoze f s = f s := by simp [onDoze, h]
theorem onDoze_asleep (f : State → State) (h : s.dozing = false) : onDoze f s = s := by simp [onDoze, h]
theorem reaches_awake {rq : Rq} {a : Nat} {w : Option Nat} (h : s.reaches rq a w = true) : s.awake = true := by
  unfold State.reaches at h
  simp only [Bool.and_eq_true] at h
  exact h.1.1.1

end Sys2Proof.Machine
end

