-- ==== Sys2Proof/Tests/Slice0.lean ====
section
/-! SUPPORT. Tests of the model. -/

namespace Sys2Proof.Machine

theorem test_reset_canonical : State.reset.canonical = true := by decide

end Sys2Proof.Machine
end

section
/-! SUPPORT. Refused accesses to register pages (chapter 01): fields of a word that was written in one field, what a capture leaves in PAGE_ERR and PAGE_STAT, and the outcome of an access that the page does not perform. Settles NarrowAccess and ForeignAccess. -/

namespace Sys2Proof.Machine

/-! ## Fields of a word (R12) -/

theorem testBit_bitsOf (w hi lo i : Nat) : (bitsOf w hi lo).testBit i = (decide (i < hi + 1 - lo) && w.testBit (lo + i)) := by
  simp [bitsOf, Nat.testBit_mod_two_pow, Nat.testBit_shiftRight]

theorem bitOf_eq_testBit (w i : Nat) : bitOf w i = w.testBit i := by
  rw [Nat.testBit_eq_decide_div_mod_eq, bitOf, Nat.shiftRight_eq_div_pow]
  rfl

/-- A word with one field replaced, in three parts: above the field, the field, below it. -/
theorem putBits_eq_parts {w hi lo : Nat} (v : Nat) (h : lo ≤ hi) :
    putBits w hi lo v = 2 ^ (hi + 1) * (w / 2 ^ (hi + 1)) + (2 ^ lo * (v % 2 ^ (hi + 1 - lo)) + w % 2 ^ lo) := by
  have hpow : 2 ^ (hi + 1) = 2 ^ lo * 2 ^ (hi + 1 - lo) := by
    rw [← Nat.pow_add, Nat.add_sub_cancel' (by omega)]
  have hlow : 2 ^ lo * (w / 2 ^ lo) + w % 2 ^ lo = w := Nat.div_add_mod w _
  have hmid : 2 ^ (hi + 1) * (w / 2 ^ (hi + 1)) + 2 ^ lo * (w / 2 ^ lo % 2 ^ (hi + 1 - lo)) = 2 ^ lo * (w / 2 ^ lo) := by
    rw [hpow, ← Nat.div_div_eq_div_mul, Nat.mul_assoc, ← Nat.mul_add, Nat.div_add_mod]
  simp only [putBits, bitsOf, Nat.shiftLeft_eq, Nat.shiftRight_eq_div_pow]
  rw [Nat.mul_comm (w / 2 ^ lo % _), Nat.mul_comm (v % _)]
  omega

theorem testBit_putBits {w hi lo : Nat} (v i : Nat) (h : lo ≤ hi) :
    (putBits w hi lo v).testBit i = if lo ≤ i ∧ i ≤ hi then v.testBit (i - lo) else w.testBit i := by
  have hpow : 2 ^ (hi + 1) = 2 ^ lo * 2 ^ (hi + 1 - lo) := by
    rw [← Nat.pow_add, Nat.add_sub_cancel' (by omega)]
  have hl : w % 2 ^ lo < 2 ^ lo := Nat.mod_lt _ (Nat.two_pow_pos _)
  have hv : v % 2 ^ (hi + 1 - lo) < 2 ^ (hi + 1 - lo) := Nat.mod_lt _ (Nat.two_pow_pos _)
  have hm : 2 ^ lo * (v % 2 ^ (hi + 1 - lo)) + w % 2 ^ lo < 2 ^ (hi + 1) :=
    calc 2 ^ lo * (v % 2 ^ (hi + 1 - lo)) + w % 2 ^ lo
      _ < 2 ^ lo * (v % 2 ^ (hi + 1 - lo) + 1) := by rw [Nat.mul_add, Nat.mul_one]; omega
      _ ≤ 2 ^ (hi + 1) := by rw [hpow]; exact Nat.mul_le_mul_left _ hv
  rw [putBits_eq_parts v h, Nat.testBit_two_pow_mul_add _ hm, Nat.testBit_two_pow_mul_add _ hl]
  by_cases h1 : i < lo
  · have h2 : i < hi + 1 := by omega
    have h3 : ¬ (lo ≤ i ∧ i ≤ hi) := by omega
    simp [h1, h2, h3, Nat.testBit_mod_two_pow]
  · by_cases h2 : i < hi + 1
    · have h3 : lo ≤ i ∧ i ≤ hi := by omega
      have h4 : i - lo < hi + 1 - lo := by omega
      simp [h1, h2, h3, h4, Nat.testBit_mod_two_pow]
    · have h3 : ¬ (lo ≤ i ∧ i ≤ hi) := by omega
      have h4 : hi + 1 + (i - (hi + 1)) = i := by omega
      simp [h2, h3, ← Nat.shiftRight_eq_div_pow, Nat.testBit_shiftRight, h4]

theorem bitsOf_putBits_same {w hi lo : Nat} (v : Nat) (h : lo ≤ hi) : bitsOf (putBits w hi lo v) hi lo = v % 2 ^ (hi + 1 - lo) := by
  refine Nat.eq_of_testBit_eq fun i => ?_
  rw [testBit_bitsOf, testBit_putBits v _ h, Nat.testBit_mod_two_pow]
  by_cases hi' : i < hi + 1 - lo
  · have : lo + i ≤ hi := by omega
    simp [this]
  · simp [hi']

theorem bitsOf_putBits_disjoint {w hi lo hi' lo' : Nat} (v : Nat) (h : lo ≤ hi) (hd : hi' < lo ∨ hi < lo') :
    bitsOf (putBits w hi lo v) hi' lo' = bitsOf w hi' lo' := by
  refine Nat.eq_of_testBit_eq fun i => ?_
  rw [testBit_bitsOf, testBit_bitsOf, testBit_putBits v _ h]
  by_cases hi'' : i < hi' + 1 - lo'
  · have : ¬ (lo ≤ lo' + i ∧ lo' + i ≤ hi) := by omega
    simp [this]
  · simp [hi'']

theorem bitOf_putBits_outside {w hi lo i : Nat} (v : Nat) (h : lo ≤ hi) (hd : i < lo ∨ hi < i) :
    bitOf (putBits w hi lo v) i = bitOf w i := by
  have : ¬ (lo ≤ i ∧ i ≤ hi) := by omega
  rw [bitOf_eq_testBit, bitOf_eq_testBit, testBit_putBits v i h, if_neg this]

theorem putBits_lt {w hi lo n : Nat} (v : Nat) (h : lo ≤ hi) (hn : hi < n) (hw : w < 2 ^ n) : putBits w hi lo v < 2 ^ n := by
  refine Nat.lt_pow_two_of_testBit _ fun i hi' => ?_
  have : ¬ (lo ≤ i ∧ i ≤ hi) := by omega
  rw [testBit_putBits v i h, if_neg this]
  exact Nat.testBit_lt_two_pow (Nat.lt_of_lt_of_le hw (Nat.pow_le_pow_right (by omega) hi'))

/-! ## A saturating counter field (R22) -/

theorem toNat_addField_sat (w : Word) {hi lo : Nat} (n : Nat) (h : lo ≤ hi) (h32 : hi < 32) :
    (addField w hi lo n true).toNat = putBits w.toNat hi lo (min (2 ^ (hi + 1 - lo) - 1) (bitsOf w.toNat hi lo + n)) := by
  have hs (a b : Nat) : satN a b = min a b := by unfold satN; split <;> omega
  simp only [addField, if_true, hs, BitVec.toNat_ofNat]
  exact Nat.mod_eq_of_lt (putBits_lt _ h h32 w.isLt)

theorem bitsOf_addField_sat (w : Word) {hi lo : Nat} (n : Nat) (h : lo ≤ hi) (h32 : hi < 32) :
    bitsOf (addField w hi lo n true).toNat hi lo = min (2 ^ (hi + 1 - lo) - 1) (bitsOf w.toNat hi lo + n) := by
  have := Nat.two_pow_pos (hi + 1 - lo)
  rw [toNat_addField_sat w n h h32, bitsOf_putBits_same _ h, Nat.mod_eq_of_lt (by omega)]

theorem bitsOf_addField_disjoint (w : Word) {hi lo hi' lo' : Nat} (n : Nat) (h : lo ≤ hi) (h32 : hi < 32) (hd : hi' < lo ∨ hi < lo') :
    bitsOf (addField w hi lo n true).toNat hi' lo' = bitsOf w.toNat hi' lo' := by
  rw [toNat_addField_sat w n h h32, bitsOf_putBits_disjoint _ h hd]

theorem bitOf_addField_outside (w : Word) {hi lo i : Nat} (n : Nat) (h : lo ≤ hi) (h32 : hi < 32) (hd : i < lo ∨ hi < i) :
    bitOf (addField w hi lo n true).toNat i = bitOf w.toNat i := by
  rw [toNat_addField_sat w n h h32, bitOf_putBits_outside _ h hd]

theorem SameBlocks.refl (s : State) : SameBlocks s s :=
  ⟨rfl, rfl, rfl, rfl, rfl, rfl, rfl, rfl, rfl, rfl, rfl, rfl, fun _ => ⟨rfl, rfl⟩⟩

/-! ## What a capture leaves in the page header (R30) -/

/-- PAGE_ERR as a first error leaves it: VALID, CODE, MORE as it stood, INFO. -/
def firstErrorWord (code more info : Nat) : Nat := 0x80000000 + (code % 128) * 0x1000000 + more * 0x100000 + info % 0x100000

section
variable (s : State) (base code info : Nat)

theorem State.reg_capture_err_first (h : s.b (base + 0x18) 31 = false) :
    (s.capture base code info).reg (base + 0x18) = BitVec.ofNat 32 (firstErrorWord code (s.f (base + 0x18) 23 20) info) := by
  simp [State.capture, h, State.reg_setStatBit, firstErrorWord]

theorem State.reg_capture_err_further (h : s.b (base + 0x18) 31 = true) :
    (s.capture base code info).reg (base + 0x18) = addField (s.reg (base + 0x18)) 23 20 1 true := by
  simp [State.capture, h, State.reg_setStatBit, State.reg_cntAdd]

/-- Whatever was captured before, ERR is set. -/
theorem State.reg_capture_stat : (s.capture base code info).reg (base + 0xC) = s.reg (base + 0xC) ||| 0x80000000#32 := by
  cases h : s.b (base + 0x18) 31 <;> simp [State.capture, h, State.reg_setStatBit, State.reg_cntAdd, State.reg_setReg]

theorem toNat_firstErrorWord {more : Nat} (hm : more < 16) : (BitVec.ofNat 32 (firstErrorWord code more info)).toNat = firstErrorWord code more info := by
  rw [BitVec.toNat_ofNat]
  unfold firstErrorWord
  omega

theorem State.f_more_lt : s.f (base + 0x18) 23 20 < 16 := Nat.mod_lt _ (by decide)

/-- The fields of PAGE_ERR after a first error. -/
theorem State.err_capture_first (h : s.b (base + 0x18) 31 = false) :
    (s.capture base code info).b (base + 0x18) 31 = true ∧
    (s.capture base code info).f (base + 0x18) 30 24 = code % 128 ∧
    (s.capture base code info).f (base + 0x18) 19 0 = info % 0x100000 ∧
    (s.capture base code info).f (base + 0x18) 23 20 = s.f (base + 0x18) 23 20 := by
  have hm := s.f_more_lt base
  rw [State.b_eq, State.f_eq, State.f_eq, State.f_eq, State.reg_capture_err_first s base code info h, toNat_firstErrorWord code info hm]
  generalize s.f (base + 0x18) 23 20 = more at hm
  simp only [bitOf, bitsOf, firstErrorWord, Nat.shiftRight_eq_div_pow, beq_iff_eq]
  omega

/-- The fields of PAGE_ERR after a further error: MORE counts it, the rest stands. -/
theorem State.err_capture_further (h : s.b (base + 0x18) 31 = true) :
    (s.capture base code info).b (base + 0x18) 31 = true ∧
    (s.capture base code info).f (base + 0x18) 30 24 = s.f (base + 0x18) 30 24 ∧
    (s.capture base code info).f (base + 0x18) 19 0 = s.f (base + 0x18) 19 0 ∧
    (s.capture base code info).f (base + 0x18) 23 20 = min 15 (s.f (base + 0x18) 23 20 + 1) := by
  simp only [State.b_eq, State.f_eq, State.reg_capture_err_further s base code info h]
  refine ⟨?_, ?_, ?_, ?_⟩
  · rw [bitOf_addField_outside _ _ (by omega) (by omega) (by omega)]
    exact h
  · exact bitsOf_addField_disjoint _ _ (by omega) (by omega) (by omega)
  · exact bitsOf_addField_disjoint _ _ (by omega) (by omega) (by omega)
  · exact bitsOf_addField_sat _ _ (by omega) (by omega)

theorem State.b_capture_err_valid : (s.capture base code info).b (base + 0x18) 31 = true := by
  cases h : s.b (base + 0x18) 31
  · exact (State.err_capture_first s base code info h).1
  · exact (State.err_capture_further s base code info h).1

theorem State.b_capture_stat_err : (s.capture base code info).b (base + 0xC) 31 = true := by
  rw [State.b_eq, State.reg_capture_stat, bitOf_eq_testBit, BitVec.toNat_or, Nat.testBit_or]
  simp [show Nat.testBit 2147483648 31 = true by decide]

theorem State.sameRegs_capture : SameRegs s (s.capture base code info) [base + 0xC, base + 0x18] := by
  intro a ha
  simp only [List.mem_cons, List.not_mem_nil, or_false, not_or] at ha
  exact s.reg_capture base code info a ha.1 ha.2

theorem State.sameBlocks_capture : SameBlocks s (s.capture base code info) := by
  obtain ⟨r, e, l, h⟩ := s.capture_shape base code info
  rw [h]
  exact SameBlocks.refl s

end

/-! ## Accesses that the page does not perform -/

section
variable {rq : Rq} {a n : Nat} {p : Page} {s : State}

/-- R18: an access of fewer than 32 bits is neither held nor performed; the page captures code 0x01 and the word's offset. -/
theorem busAccess_narrow (kind : Nat) (w : Option Nat) (hr : isRegAddr a = true) (hp : pageAt (a / 4096 * 4096) = some p) (ho : s.accessOk rq p = true) (hn : n < 4) :
    busAccess rq kind a n w s = (.buserr, 0, s.capture p.base 1 (a % 4096 / 4 * 4)) := by
  have h4 : ¬ 4 ≤ n := by omega
  simp [busAccess, busPerform, hr, hp, ho, hn, h4]

/-- R31, R36: a page that refuses the requester neither holds the access nor captures it. -/
theorem busAccess_foreign (kind : Nat) (w : Option Nat) (hr : isRegAddr a = true) (hp : pageAt (a / 4096 * 4096) = some p) (ho : s.accessOk rq p = false) :
    busAccess rq kind a n w s = (.buserr, 0, s) := by
  simp [busAccess, State.accessHeld, busPerform, hr, hp, ho]

theorem wf_registerWrite (rq : Rq) (a n v : Nat) :
    (Instr.registerWrite rq a n v).wf = (rq.ok && isRegAddr a && (n == 1 || n == 2 || n == 4 || n == 8) && inBits (8 * n) v) := rfl

theorem wf_rcRead (rq : Rq) (a : Nat) : (Instr.rcRead rq a).wf = (rq.ok && isRegAddr a) := rfl

/-- REGISTER_WRITE is the access it makes, answered. -/
theorem exec_registerWrite {v : Nat} (hwf : (Instr.registerWrite rq a n v).wf = true) (hrun : s.awake = true) :
    exec (.registerWrite rq a n v) s = .next (answered (busAccess rq 1 a n (some v) s)) := by
  change execRegisterWrite rq a n v s = _
  rw [wf_registerWrite] at hwf
  rw [execRegisterWrite, if_pos hwf, onRun_awake s _ hrun]

/-- RC_READ is the access it makes, answered. -/
theorem exec_rcRead (hwf : (Instr.rcRead rq a).wf = true) (hrun : s.awake = true) :
    exec (.rcRead rq a) s = .next (answered (busAccess rq 1 a 4 none s)) := by
  change execRcRead rq a s = _
  rw [wf_rcRead] at hwf
  rw [execRcRead, if_pos hwf, onRun_awake s _ hrun, wordReadBy]

theorem isRegAddr_of_wf_registerWrite {v : Nat} (hwf : (Instr.registerWrite rq a n v).wf = true) : isRegAddr a = true := by
  simp only [wf_registerWrite, Bool.and_eq_true] at hwf
  obtain ⟨⟨⟨-, hr⟩, -⟩, -⟩ := hwf
  exact hr

end

/-- An answer writes no register, and no state that SameBlocks names. -/
theorem sameRegs_answered (s t : State) (x : Answer) (d : Nat) (l : List Nat) : SameRegs s (answered (x, d, t)) l ↔ SameRegs s t l := Iff.rfl
theorem sameBlocks_answered (s t : State) (x : Answer) (d : Nat) : SameBlocks s (answered (x, d, t)) ↔ SameBlocks s t := Iff.rfl

/-! ## The obligations -/

/-- Settles O5: the access is the page's capture of code 0x01 and nothing else, and a capture writes PAGE_ERR and PAGE_STAT alone. -/
theorem narrowAccess : Obligations.NarrowAccess := by
  unfold Obligations.NarrowAccess
  refine ⟨fun rq kind a n w p s hr hp ho hn => ?_, fun rq a n v p s hwf hn hp hrun ho => ?_⟩
  · have hinfo : a % 4096 / 4 * 4 % 0x100000 = a % 4096 / 4 * 4 := by omega
    refine ⟨_, busAccess_narrow kind w hr hp ho (by omega), State.b_capture_err_valid _ _ _ _, State.b_capture_stat_err _ _ _ _, fun hfirst => ?_,
      fun hfurther => (State.err_capture_further _ _ _ _ hfurther).2, State.sameRegs_capture _ _ _ _, State.sameBlocks_capture _ _ _ _⟩
    obtain ⟨-, hcode, hoff, hmore⟩ := State.err_capture_first s p.base 1 (a % 4096 / 4 * 4) hfirst
    exact ⟨hcode, hoff.trans hinfo, hmore⟩
  · have hacc := busAccess_narrow 1 (some v) (isRegAddr_of_wf_registerWrite hwf) hp ho (show n < 4 by omega)
    refine ⟨_, exec_registerWrite hwf hrun, ?_⟩
    rw [hacc]
    refine ⟨rfl, rfl, fun hfirst => ?_, (sameRegs_answered _ _ _ _ _).2 (State.sameRegs_capture _ _ _ _), (sameBlocks_answered _ _ _ _).2 (State.sameBlocks_capture _ _ _ _)⟩
    obtain ⟨-, hcode, -, -⟩ := State.err_capture_first s p.base 1 (a % 4096 / 4 * 4) hfirst
    exact hcode

/-- Settles O6: the refused access answers BUSERR on the state as it was, so either row only puts out that answer. -/
theorem foreignAccess : Obligations.ForeignAccess := by
  unfold Obligations.ForeignAccess
  intro rq kind a n w p s hr hp ho
  refine ⟨busAccess_foreign kind w hr hp ho, fun v hwf hrun => ⟨_, exec_registerWrite hwf hrun, ?_⟩, fun hwf hrun => ⟨_, exec_rcRead hwf hrun, ?_⟩⟩
  · rw [busAccess_foreign 1 (some v) hr hp ho]
    exact ⟨rfl, rfl, rfl, fun _ _ => rfl, SameBlocks.refl s, rfl⟩
  · rw [busAccess_foreign 1 none hr hp ho]
    exact ⟨rfl, rfl, rfl, rfl, fun _ _ => rfl, SameBlocks.refl s, rfl⟩

/-! ## States that meet the premises -/

/-- The device runs, tenant 3 exists, T0 owns the GPIO page, and PAGE_ERR of that page is valid with code 2 and MORE at its limit. -/
def gpioErrState : State :=
  { State.reset with plat := { PlatSt.idle with power := .run }, regs := [(Reg.TENANT.TCFG 3, 0x80000000#32), (Reg.GPIO.page + 0x18, 0x82F00040#32)] }

/-- A halfword write by ring 0 of T0 to GPIO.DIR: the error that is there stands, and MORE stays at 15. -/
theorem narrowAccess_witness :
    Completes (.registerWrite ⟨0, 0, 0, false⟩ Reg.GPIO.DIR 2 0xFFFF) gpioErrState (fun t => t.answer = .buserr ∧ SameRegs gpioErrState t [Reg.GPIO.page + 0xC, Reg.GPIO.page + 0x18]) ∧
    ∃ t, busAccess ⟨0, 0, 0, false⟩ 1 Reg.GPIO.DIR 2 (some 0xFFFF) gpioErrState = (.buserr, 0, t) ∧ t.f (Reg.GPIO.page + 0x18) 30 24 = 2 ∧ t.f (Reg.GPIO.page + 0x18) 23 20 = 15 := by
  have hp : pageAt (Reg.GPIO.DIR / 4096 * 4096) = some ⟨Reg.GPIO.page, 0x83, 0, 0, 0x83⟩ := by decide
  constructor
  · obtain ⟨t, ht, hans, -, -, hregs, -⟩ := narrowAccess.2 ⟨0, 0, 0, false⟩ Reg.GPIO.DIR 2 0xFFFF _ gpioErrState (by decide) (.inr rfl) hp (by decide) (by decide)
    exact ⟨t, ht, hans, hregs⟩
  · obtain ⟨t, ht, -, -, -, hfurther, -, -⟩ := narrowAccess.1 ⟨0, 0, 0, false⟩ 1 Reg.GPIO.DIR 2 (some 0xFFFF) _ gpioErrState (by decide) hp (by decide) (.inr rfl)
    obtain ⟨hcode, -, hmore⟩ := hfurther (by decide)
    exact ⟨t, ht, hcode.trans (by decide), hmore.trans (by decide)⟩

/-- A word write by tenant 3 to the same register, which is T0's: nothing is captured. -/
theorem foreignAccess_witness :
    Completes (.registerWrite ⟨3, 1, 0, false⟩ Reg.GPIO.DIR 4 0xFFFF) gpioErrState
      (fun t => t.answer = .buserr ∧ t.reg (Reg.GPIO.page + 0x18) = gpioErrState.reg (Reg.GPIO.page + 0x18)) := by
  have hp : pageAt (Reg.GPIO.DIR / 4096 * 4096) = some ⟨Reg.GPIO.page, 0x83, 0, 0, 0x83⟩ := by decide
  obtain ⟨-, hwrite, -⟩ := foreignAccess ⟨3, 1, 0, false⟩ 1 Reg.GPIO.DIR 4 none _ gpioErrState (by decide) hp (by decide)
  obtain ⟨t, ht, hans, -, herr, -⟩ := hwrite 0xFFFF (by decide) (by decide)
  exact ⟨t, ht, hans, herr⟩

end Sys2Proof.Machine
end

section
/-! SUPPORT. The sixteen conditions (chapter 10): the flags as the low bits of a flag word, what condHolds answers for each COND, and the syllables that take a COND. Settles Conditions. -/

namespace Sys2Proof.Machine

/-! ## A flag word as its bits (the table of FL in chapter 10) -/

/-- Bit 0 of a flag followed by the bits of `w` is the flag. -/
theorem bitOf_b2n_zero (b : Bool) (w : Nat) : bitOf (b2n b + 2 * w) 0 = b := by
  rw [bitOf_eq_testBit, Nat.testBit_zero, Nat.add_mul_mod_self_left]
  cases b
  · rfl
  · rfl

/-- Bit `i + 1` of a flag followed by the bits of `w` is bit `i` of `w`. -/
theorem bitOf_b2n_succ (b : Bool) (w i : Nat) : bitOf (b2n b + 2 * w) (i + 1) = bitOf w i := by
  have hlt : b2n b < 2 := by
    cases b
    · exact Nat.zero_lt_two
    · exact Nat.one_lt_two
  have hhalf : (b2n b + 2 * w) / 2 = w := by omega
  rw [bitOf_eq_testBit, bitOf_eq_testBit, Nat.testBit_add_one, hhalf]

/-- Z, N, C, V, G and S, each at its own weight, are the bits of the word from bit 0 up. -/
theorem flagSum_eq_bits (z n c v g s : Bool) :
    b2n z + 2 * b2n n + 4 * b2n c + 8 * b2n v + 16 * b2n g + 32 * b2n s =
      b2n z + 2 * (b2n n + 2 * (b2n c + 2 * (b2n v + 2 * (b2n g + 2 * (b2n s + 2 * 0))))) := by
  omega

/-! ## COND (R304) -/

/-- COND 0x0 to 0xE of any flag word: they read Z, N, C and V, at bits 0 to 3, and no other bit. -/
theorem map_condHolds_range (fl : Nat) :
    (List.range 15).map (fun k => condHolds k fl) =
      let z := bitOf fl 0; let n := bitOf fl 1; let c := bitOf fl 2; let v := bitOf fl 3
      [z, !z, c, !c, n, !n, v, !v, c && !z, !c || z, n == v, n != v, !z && (n == v), z || (n != v), true] := rfl

theorem condHolds_fifteen (fl : Nat) : condHolds 15 fl = (bitOf fl 4 || bitOf fl 5) := rfl

/-- SEL stands in S0 or S1, and its COND is 0x0 to 0xE. -/
theorem ok_sel (slot c dd da db : Nat) :
    (Syl.mk slot (.sel c dd da db)).ok = (decide (slot ≤ 1) && (decide (c < 15) && decide (dd < 32) && decide (da < 32) && decide (db < 32))) := rfl

/-- BR stands in S0 and takes every COND of its four bits. -/
theorem ok_br (slot c v : Nat) : (Syl.mk slot (.br c v)).ok = (slot == 0 && (decide (c < 16) && decide (v < 2 ^ 19))) := rfl

/-! ## The obligation -/

/-- Settles O27: each COND is a condition on bits 0 to 5 of the flag word, which are the six flags; the field checks of SEL and BR differ at 0xF. -/
theorem conditions : Obligations.Conditions := by
  unfold Obligations.Conditions
  refine ⟨fun z n c v => ?_, fun dd da db slot => ?_, fun v hv => ?_⟩
  · intro fl g s
    have hfl : fl + 16 * b2n g + 32 * b2n s = _ := flagSum_eq_bits z n c v g s
    rw [hfl, map_condHolds_range, condHolds_fifteen]
    simp only [bitOf_b2n_zero, bitOf_b2n_succ, and_self]
  · have hcond : decide (15 < 15) = false := rfl
    rw [ok_sel, hcond, Bool.false_and, Bool.false_and, Bool.false_and, Bool.and_false]
  · rw [ok_br, decide_eq_true hv]
    rfl

/-! ## Boundary values -/

/-- The largest branch offset field with COND 0xF, and the COND below it in a SEL: both are accepted, so the refusal of SEL is for 0xF alone. -/
theorem conditions_witness :
    (Syl.mk 0 (.br 15 (2 ^ 19 - 1))).ok = true ∧ (Syl.mk 1 (.sel 15 31 31 31)).ok = false ∧ (Syl.mk 1 (.sel 14 31 31 31)).ok = true := by
  obtain ⟨-, hsel, hbr⟩ := conditions
  exact ⟨hbr _ (by decide), hsel 31 31 31 1, by decide⟩

end Sys2Proof.Machine
end
